-- ==== Sys2Proof/Word.lean ====
section
/-!
DEFINITION. The words of the device: a 64-bit register (R4), a byte, a 128-bit instruction word (R89),
a 256-bit predicate and stream descriptor (R93), a 2,048-bit vector register (R93), and the plain
extraction of a bit field numbered as the spec numbers it, [hi:lo].
-/
namespace Sys2Proof

/-- A 64-bit register, queue or ring word (R4). -/
abbrev Word := BitVec 64

/-- A byte of memory. -/
abbrev Byte := BitVec 8

/-- The bits [hi:lo] of a number, as a number. -/
def bitsOf (hi lo n : Nat) : Nat := (n / 2 ^ lo) % 2 ^ (hi + 1 - lo)

/-- The number `n` with the bits [hi:lo] replaced by the low bits of `v`. -/
def putBits (hi lo n v : Nat) : Nat :=
  n - bitsOf hi lo n * 2 ^ lo + (v % 2 ^ (hi + 1 - lo)) * 2 ^ lo

/-- Bit `i` of a number. -/
def bitAt (i n : Nat) : Bool := (n / 2 ^ i) % 2 == 1

/-- 1 for true and 0 for false, as a register bit shows a Boolean. -/
def bit01 (b : Bool) : Nat := if b then 1 else 0

/-- A count that stops at a largest value instead of wrapping. -/
def satAdd (top a b : Nat) : Nat := min top (a + b)

/-- Division rounding up. -/
def ceilDiv (a b : Nat) : Nat := (a + (b - 1)) / b

end Sys2Proof
end

