-- ==== Sys2Proof/Machine/Kinds.lean ====
section
/-!
DEFINITION. The operands that commands carry whole: the fields of a Moon instruction word (R89), the kinds of CXL.io TLP
(R389), messages (R145), and the inputs a leader forwards to its shadow (R522).
-/
namespace Sys2Proof

/-- The fields of an instruction word other than OPC (R89). -/
structure MWord where
  fmt : BitVec 4
  md  : BitVec 4
  pn  : Bool
  pr  : BitVec 3
  dst : BitVec 5
  sa  : BitVec 5
  sb  : BitVec 5
  sc  : BitVec 5
  aux : BitVec 8
  rsv : BitVec 16
  imm : BitVec 64
  deriving DecidableEq, Repr

/-- The kinds of CXL.io TLP a fabric link carries (R389). -/
inductive IoKind where
  | doe | errorMessage | acknowledgement | enumeration | atomicOp | other
  deriving DecidableEq, Repr

namespace Machine

/-- A message: its 64-byte header and its payload (R145). -/
structure Msg where
  header : List Byte
  payload : List Byte
  deriving DecidableEq, Repr

/-- An input of a leader partition forwarded to its shadow (R522).
DEDUCED: assumption 28. -/
inductive ShadowInput where
  | descriptor (qp : Nat) (bytes : List Byte)
  | store (decl off : Nat) (bytes : List Byte)
  | publish (decl off expected new : Nat)
  | message (qp : Nat) (msg : Msg)
  deriving DecidableEq, Repr

end Machine

/-- An item of the pilot function's configuration (R402). -/
inductive ConfigItem where
  | vendor | subsystemVendor | device | subsystem | revision | classCode | header
  | bar (k : Nat)
  | expansionRom | interruptPin | capabilities | extended | designated | doeProtocols
  deriving DecidableEq, Repr

/-- An access to a 64-bit word of BAR0 (R5, R7): the pilot host writes a value or reads; or the management core stages a
value for a health-driven change (R31, R46). Or a read of an item of the pilot function's configuration (R402), for which
the offset stands for nothing.
DESIGN CHOICE: assumption 8. -/
inductive Access where
  | write (v : Word)
  | read
  | health (v : Word)
  | config (i : ConfigItem)
  deriving DecidableEq, Repr

/-- A codeword as it is decoded on a lane (R408): its header, whose fields are LANE [19:16], FSEQ [15:10], TYPE [9:8] and LCW
[7:0], and its payload of 640 bytes. -/
structure Codeword where
  header : BitVec 20
  payload : List Byte
  deriving DecidableEq, Repr

/-! ### Operands that go together -/

/-- What a BAR0 access of another shape than an aligned 64-bit one is: whether it writes, and of how many bytes (R5). -/
structure BarAccess where
  write : Bool
  bytes : Nat
  deriving DecidableEq, Repr

/-- What a patrol finds uncorrectable: lines of objects, each a granule and a line; partitions whose contexts share a line of
state (R375, R493); and whether both copies of a registry or placement-map line fail (R501). -/
structure ScrubFinds where
  lines : List (Nat × Nat)
  shared : List Nat
  maps : Bool
  deriving DecidableEq, Repr

/-- What a tray's data response carries: its line, where that is not what the tray was sent last (R471), and whether it is
poisoned. -/
structure TrayData where
  line : Option (List Byte)
  poison : Bool
  deriving DecidableEq, Repr

/-- The output that grants a message, and whether a tier-1 line that the message asks for fails uncorrectably (R277). -/
structure Grant where
  out : Nat
  bad : Bool
  deriving DecidableEq, Repr

/-- A port's 1 ms window and the uncorrectable codewords it brought (R416). -/
structure UncorrWindow where
  port : Nat
  count : Nat
  deriving DecidableEq, Repr

/-- What the training of the stacks finds: those that do not train (R555), and whether both copies of a registry or
placement-map line fail (R501). -/
structure Training where
  untrained : List Nat
  maps : Bool
  deriving DecidableEq, Repr

/-- The class of a queue whose return has filled, and the numbers of its records that are uncorrectable (R493). -/
structure FilledReturn where
  cls : Nat
  bad : List Nat
  deriving DecidableEq, Repr

end Sys2Proof
end

