-- ==== Sys2Proof/Syntax.lean ====
section
/-!
DEFINITION. The commands of the device: one constructor of `Instr` for each row of the table of operations and
events, with the operands the row's rule gives it. A Moon instruction carries the slot it issues from (R16) and the
fields of its word other than OPC, which the constructor names (R89); a descriptor's row names its queue pair.
-/
namespace Sys2Proof

/-- The commands. -/
inductive Instr where
  /-- BAR0_UNALIGNED_ACCESS (R5). -/
  | bar0UnalignedAccess (off : Nat) (a : BarAccess)
  /-- REGISTER_WRITE (R7, R59): an access to an aligned word.
  DESIGN CHOICE: assumption 8. -/
  | registerWrite (off : Nat) (a : Access)
  /-- ORB_RAISE (R46). -/
  | orbRaise (bits : BitVec 16)
  /-- ORBIT_BOUNDARY (R40). -/
  | orbitBoundary (p : Nat)
  /-- OVERDUE (R48). -/
  | overdue (p : Nat)
  /-- CONTEXT_PARK_COPY_DONE (R362). -/
  | contextParkCopyDone (c : Nat) (fails : Bool)
  /-- CONTEXT_RESUME_COPY_DONE (R362). -/
  | contextResumeCopyDone (c : Nat) (fails : Bool)
  /-- MOON_LEAVES_SERVICE (R500). -/
  | moonLeavesService (m : Nat)
  /-- XACC_NORMALISE (R72). -/
  | xaccNormalise (slot a : Nat)
  /-- NOP (R110). -/
  | nop (slot : Nat) (w : MWord)
  /-- SADD (R110). -/
  | sadd (slot : Nat) (w : MWord)
  /-- SADDI (R110). -/
  | saddi (slot : Nat) (w : MWord)
  /-- SSUB (R110). -/
  | ssub (slot : Nat) (w : MWord)
  /-- SMUL (R110). -/
  | smul (slot : Nat) (w : MWord)
  /-- SAND (R110). -/
  | sand (slot : Nat) (w : MWord)
  /-- SOR (R110). -/
  | sor (slot : Nat) (w : MWord)
  /-- SXOR (R110). -/
  | sxor (slot : Nat) (w : MWord)
  /-- SSHF (R110). -/
  | sshf (slot : Nat) (w : MWord)
  /-- SMOVI (R110). -/
  | smovi (slot : Nat) (w : MWord)
  /-- SCMP (R110). -/
  | scmp (slot : Nat) (w : MWord)
  /-- BR (R111). -/
  | br (slot : Nat) (w : MWord)
  /-- HALT (R111). -/
  | halt (slot : Nat) (w : MWord)
  /-- SDSET (R103). -/
  | sdset (slot : Nat) (w : MWord)
  /-- SDGET (R110). -/
  | sdget (slot : Nat) (w : MWord)
  /-- VADD (R112). -/
  | vadd (slot : Nat) (w : MWord)
  /-- VSUB (R112). -/
  | vsub (slot : Nat) (w : MWord)
  /-- VMUL (R112). -/
  | vmul (slot : Nat) (w : MWord)
  /-- VFMA (R113). -/
  | vfma (slot : Nat) (w : MWord)
  /-- VMIN (R113). -/
  | vmin (slot : Nat) (w : MWord)
  /-- VMAX (R113). -/
  | vmax (slot : Nat) (w : MWord)
  /-- VABS (R113). -/
  | vabs (slot : Nat) (w : MWord)
  /-- VNEG (R113). -/
  | vneg (slot : Nat) (w : MWord)
  /-- VAND (R112). -/
  | vand (slot : Nat) (w : MWord)
  /-- VOR (R112). -/
  | vor (slot : Nat) (w : MWord)
  /-- VXOR (R112). -/
  | vxor (slot : Nat) (w : MWord)
  /-- VSEL (R112). -/
  | vsel (slot : Nat) (w : MWord)
  /-- VBCST (R112). -/
  | vbcst (slot : Nat) (w : MWord)
  /-- VEXT (R112). -/
  | vext (slot : Nat) (w : MWord)
  /-- VINS (R112). -/
  | vins (slot : Nat) (w : MWord)
  /-- VMOV (R112). -/
  | vmov (slot : Nat) (w : MWord)
  /-- VCMP (R114). -/
  | vcmp (slot : Nat) (w : MWord)
  /-- PLOG (R114). -/
  | plog (slot : Nat) (w : MWord)
  /-- PCNT (R114). -/
  | pcnt (slot : Nat) (w : MWord)
  /-- PFST (R114). -/
  | pfst (slot : Nat) (w : MWord)
  /-- PSET (R114). -/
  | pset (slot : Nat) (w : MWord)
  /-- VCVT (R115). -/
  | vcvt (slot : Nat) (w : MWord)
  /-- MMA (R116). -/
  | mma (slot : Nat) (w : MWord)
  /-- LTB (R120). -/
  | ltb (slot : Nat) (w : MWord)
  /-- LTLD (R121). -/
  | ltld (slot : Nat) (w : MWord)
  /-- LAC (R122). -/
  | lac (slot : Nat) (w : MWord)
  /-- LEXPW (R123). -/
  | lexpw (slot : Nat) (w : MWord)
  /-- LBIN (R124). -/
  | lbin (slot : Nat) (w : MWord)
  /-- XCLR (R125). -/
  | xclr (slot : Nat) (w : MWord)
  /-- XADD (R125). -/
  | xadd (slot : Nat) (w : MWord)
  /-- XADDL (R125). -/
  | xaddl (slot : Nat) (w : MWord)
  /-- XDOT (R125). -/
  | xdot (slot : Nat) (w : MWord)
  /-- XRD (R125). -/
  | xrd (slot : Nat) (w : MWord)
  /-- XEXP (R125). -/
  | xexp (slot : Nat) (w : MWord)
  /-- XIMP (R125). -/
  | ximp (slot : Nat) (w : MWord)
  /-- XMRG (R125). -/
  | xmrg (slot : Nat) (w : MWord)
  /-- VEXP2 (R126). -/
  | vexp2 (slot : Nat) (w : MWord)
  /-- VRCP (R126). -/
  | vrcp (slot : Nat) (w : MWord)
  /-- VRMAX (R126). -/
  | vrmax (slot : Nat) (w : MWord)
  /-- VRSUM (R126). -/
  | vrsum (slot : Nat) (w : MWord)
  /-- LD (R128). -/
  | ld (slot : Nat) (w : MWord)
  /-- ST (R128). -/
  | st (slot : Nat) (w : MWord)
  /-- CLD (R128). -/
  | cld (slot : Nat) (w : MWord)
  /-- CST (R128). -/
  | cst (slot : Nat) (w : MWord)
  /-- EXPD (R174). -/
  | expd (slot : Nat) (w : MWord)
  /-- AMO (R134). -/
  | amo (slot : Nat) (w : MWord)
  /-- PUB (R135). -/
  | pub (slot : Nat) (w : MWord)
  /-- KVENC (R136). -/
  | kvenc (slot : Nat) (w : MWord)
  /-- WAIT (R138). -/
  | wait (slot : Nat) (w : MWord)
  /-- ACSET (R137). -/
  | acset (slot : Nat) (w : MWord)
  /-- ACRD (R138). -/
  | acrd (slot : Nat) (w : MWord)
  /-- FENCE (R139). -/
  | fence (slot : Nat) (w : MWord)
  /-- ORBIT (R140). -/
  | orbit (slot : Nat) (w : MWord)
  /-- ORQ (R141). -/
  | orq (slot : Nat) (w : MWord)
  /-- MSGS (R144). -/
  | msgs (slot : Nat) (w : MWord)
  /-- MSGR (R147). -/
  | msgr (slot : Nat) (w : MWord)
  /-- TBEGIN (R149). -/
  | tbegin (slot : Nat) (w : MWord)
  /-- TCLM (R150). -/
  | tclm (slot : Nat) (w : MWord)
  /-- TCMT (R151). -/
  | tcmt (slot : Nat) (w : MWord)
  /-- TLD (R151). -/
  | tld (slot : Nat) (w : MWord)
  /-- WKINIT (R153). -/
  | wkinit (slot : Nat) (w : MWord)
  /-- CQPUSH (R154). -/
  | cqpush (slot : Nat) (w : MWord)
  /-- CQPOP (R153). -/
  | cqpop (slot : Nat) (w : MWord)
  /-- VISIT (R155). -/
  | visit (slot : Nat) (w : MWord)
  /-- BMTST (R156). -/
  | bmtst (slot : Nat) (w : MWord)
  /-- TKINS (R157). -/
  | tkins (slot : Nat) (w : MWord)
  /-- TKRD (R157). -/
  | tkrd (slot : Nat) (w : MWord)
  /-- MEMORY_ANSWER (R132). -/
  | memoryAnswer (slot : Nat) (bad : List Nat)
  /-- COMET_ARRIVAL (R137). -/
  | cometArrival (c id : Nat) (bad : List Nat) (gone : Bool)
  /-- REQUEST_LATE (R262). -/
  | requestLate (id : Nat)
  /-- REQUEST_FAIL_TIMEOUT (R263). -/
  | requestFailTimeout (id : Nat)
  /-- GRANULE_FILL_DONE (R247). -/
  | granuleFillDone (h g : Nat)
  /-- FILL_ROOM_RETRY (R259). -/
  | fillRoomRetry (p : Nat)
  /-- MOVE_COPY_DONE (R248). -/
  | moveCopyDone (h : Nat)
  /-- OLD_LAYOUT_FREE (R248). -/
  | oldLayoutFree (h : Nat)
  /-- IMBAL_WINDOW_END (R250). -/
  | imbalWindowEnd
  /-- SCRUB_PATROL (R268). -/
  | scrubPatrol (corrected : Nat) (found : ScrubFinds)
  /-- NME_OPERATION_END (R265). -/
  | nmeOperationEnd (id : Nat) (fail : Option (Nat × Nat))
  /-- COMPLETION_WRITE (R350). -/
  | completionWrite (q hostCount : Nat)
  /-- PILOT_DOORBELL (R347). -/
  | pilotDoorbell (q : Nat) (d7 : Word)
  /-- RUN (R353). -/
  | run (q : Nat)
  /-- CTX_OPEN (R356). -/
  | ctxOpen (q : Nat)
  /-- CTX_CLOSE (R360). -/
  | ctxClose (q : Nat)
  /-- REGISTER (R240). -/
  | register (q : Nat)
  /-- VALIDATE (R243). -/
  | validate (q : Nat)
  /-- RELEASE (R244). -/
  | release (q : Nat)
  /-- RECLASS (R248). -/
  | reclass (q : Nat)
  /-- STEEP (R253). -/
  | steep (q : Nat)
  /-- QUERY (R240). -/
  | query (q : Nat)
  /-- FILL (R265). -/
  | fill (q : Nat)
  /-- COPY (R265). -/
  | copy (q : Nat)
  /-- COMPARE (R265). -/
  | compare (q : Nat)
  /-- REDUCE (R266). -/
  | reduce (q : Nat)
  /-- PUBLISH (R284). -/
  | publish (q : Nat)
  /-- MAP_STAGE (R364). -/
  | mapStage (q : Nat)
  /-- OWN_CLAIM (R369). -/
  | ownClaim (q : Nat)
  /-- OWN_OFFER (R369). -/
  | ownOffer (q : Nat)
  /-- OWN_ACCEPT (R369). -/
  | ownAccept (q : Nat)
  /-- OWN_DROP (R369). -/
  | ownDrop (q : Nat)
  /-- OFFER_LAPSE (R371). -/
  | offerLapse (ref : Nat)
  /-- CONTEXT_ABORT (R491). -/
  | contextAbort (c : Nat)
  /-- JOB_TEARDOWN (R294). -/
  | jobTeardown (p job : Nat)
  /-- ACCELERATOR_CRASH (R296). -/
  | acceleratorCrash (n : Nat)
  /-- MEMRD (R382). -/
  | memrd (port spid dpid tag addr : Nat) (any : Bool)
  /-- MEMRDDATA (R382). -/
  | memrddata (port spid dpid tag addr : Nat) (any : Bool)
  /-- MEMINV (R382). -/
  | meminv (port spid dpid tag addr : Nat)
  /-- MEMINVNT (R382). -/
  | meminvnt (port spid dpid tag addr : Nat)
  /-- MEMSPECRD (R382). -/
  | memspecrd (port : Nat)
  /-- MEMWR (R382). -/
  | memwr (port spid dpid tag addr : Nat) (data : List Byte)
  /-- MEMWRPTL (R382). -/
  | memwrptl (port spid dpid tag addr : Nat) (data : List Byte) (enables : Nat)
  /-- BIRSPI (R291). -/
  | birspi (port h l : Nat)
  /-- BIRSPS (R291). -/
  | birsps (port h l : Nat)
  /-- M2S_OTHER_OPCODE (R382). -/
  | m2sOtherOpcode (port tag resp : Nat)
  /-- BI_TIMEOUT (R292). -/
  | biTimeout (port h l : Nat)
  /-- COMBINER_LINE_ENTER (R287). -/
  | combinerLineEnter (h l : Nat)
  /-- COMBINER_APPLY (R287). -/
  | combinerApply (h l : Nat)
  /-- COMBINER_LINE_LEAVE (R287). -/
  | combinerLineLeave (h l : Nat)
  /-- TRAY_ORIGINATED_REQUEST (R273). -/
  | trayOriginatedRequest (port : Nat)
  /-- S2M_DRS (R386). -/
  | s2mDrs (port id : Nat) (data : TrayData) (abort : Bool)
  /-- S2M_NDR (R386). -/
  | s2mNdr (port id : Nat) (abort : Bool)
  /-- TRAY_IO_REQUEST (R386). -/
  | trayIoRequest (port : Nat) (messageTlp : Bool)
  /-- TRAY_BISNP (R386). -/
  | trayBisnp (port : Nat)
  /-- DEVICE_MESSAGE_RUN (R381). -/
  | deviceMessageRun (port cls dpid p ctx : Nat) (header payload : List Byte)
  /-- FABRIC_IO_TLP (R389). -/
  | fabricIoTlp (port tag : Nat) (kind : IoKind) (nonPosted : Bool)
  /-- CROSSBAR_GRANT (R308). -/
  | crossbarGrant (g : Grant)
  /-- SPILL_RETURN (R313). -/
  | spillReturn (n out cls : Nat)
  /-- TAG_ADMIT (R319). -/
  | tagAdmit (n : Nat)
  /-- XBAR_TAG_BUDGET (R319). -/
  | xbarTagBudget (n : Nat) (v : Word)
  /-- IDENTIFY (R395). -/
  | identify (mail : Bool)
  /-- BACKGROUND_OPERATION_STATUS (R395). -/
  | backgroundOperationStatus (mail : Bool)
  /-- GET_RESPONSE_MESSAGE_LIMIT (R395). -/
  | getResponseMessageLimit (mail : Bool)
  /-- SET_RESPONSE_MESSAGE_LIMIT (R396). -/
  | setResponseMessageLimit (mail : Bool) (n : Nat)
  /-- GET_EVENT_RECORDS (R395). -/
  | getEventRecords (mail : Bool)
  /-- CLEAR_EVENT_RECORDS (R395). -/
  | clearEventRecords (mail : Bool) (n : Nat)
  /-- GET_EVENT_INTERRUPT_POLICY (R395). -/
  | getEventInterruptPolicy (mail : Bool)
  /-- SET_EVENT_INTERRUPT_POLICY (R395). -/
  | setEventInterruptPolicy (mail : Bool) (policy : List Byte)
  /-- GET_PHYSICAL_PORT_STATE (R395). -/
  | getPhysicalPortState (mail : Bool) (ports : List Nat)
  /-- GFD_COMPONENT_COMMANDS (R395). -/
  | gfdComponentCommands (mail : Bool)
  /-- GET_DC_REGION_CONFIGURATION (R384). -/
  | getDcRegionConfiguration (mail : Bool)
  /-- GET_DC_REGION_EXTENT_LISTS (R384). -/
  | getDcRegionExtentLists (mail : Bool) (pbr : Nat)
  /-- FM_UNSUPPORTED_COMMAND (R397). -/
  | fmUnsupportedCommand (mail : Bool)
  /-- SK_GET_ID (R399). -/
  | skGetId (mail : Bool) (input : List Byte)
  /-- SK_ASSIGN_PBR (R543). -/
  | skAssignPbr (mail : Bool) (input : List Byte)
  /-- SK_DECLARE_DEAD (R399). -/
  | skDeclareDead (mail : Bool) (input : List Byte)
  /-- SK_CLEAR_ORPHANS (R400). -/
  | skClearOrphans (mail : Bool) (input : List Byte)
  /-- SK_JOB_TEARDOWN (R399). -/
  | skJobTeardown (mail : Bool) (input : List Byte)
  /-- SK_SET_WALLCLOCK (R545). -/
  | skSetWallclock (mail : Bool) (input : List Byte)
  /-- SK_PART_RESET (R399). -/
  | skPartReset (mail : Bool) (input : List Byte)
  /-- SK_GET_ERR (R399). -/
  | skGetErr (mail : Bool) (input : List Byte)
  /-- BACKGROUND_OP_END (R398). -/
  | backgroundOpEnd
  /-- IDE_KEY_MANAGEMENT (R390). -/
  | ideKeyManagement (n : Nat) (root : BitVec 512)
  /-- IDE_KEY_REFRESH (R391). -/
  | ideKeyRefresh (n : Nat)
  /-- IDE_INTEGRITY_FAILURE (R392). -/
  | ideIntegrityFailure (n : Nat)
  /-- VIRAL_RECEIVED (R394). -/
  | viralReceived (n : Nat)
  /-- SPDM_MEASUREMENTS (R463). -/
  | spdmMeasurements (nonce : List Byte)
  /-- PILOT_LINK_TRAINING (R401). -/
  | pilotLinkTraining (width rate : Nat) (cxl : Bool)
  /-- PILOT_FLR (R405). -/
  | pilotFlr
  /-- PILOT_D3HOT (R405). -/
  | pilotD3hot (enter : Bool)
  /-- DATA_FRAME (R412). -/
  | dataFrame (n : Nat) (words : List Codeword) (errors bad : List Nat)
  /-- TRAINING_FRAME (R415). -/
  | trainingFrame (n width lock version : Nat) (badLane : Bool)
  /-- TRAINING_STATE_END (R415). -/
  | trainingStateEnd (n lock : Nat)
  /-- TRAINING_TIMEOUT (R415). -/
  | trainingTimeout (n : Nat)
  /-- TRAINING_RESTART (R415). -/
  | trainingRestart (n : Nat)
  /-- LOSS_OF_LIGHT (R416). -/
  | lossOfLight (n : Nat)
  /-- UNCORR_LIMIT (R416). -/
  | uncorrLimit (w : UncorrWindow)
  /-- LASER_LOW (R424). -/
  | laserLow (f v : Nat)
  /-- LASER_RESTORED (R424). -/
  | laserRestored (f v : Nat)
  /-- RETRAIN (R416). -/
  | retrain (n : Nat) (pstate : BitVec 2)
  /-- PSTATE_REQ (R422). -/
  | pstateReq (n : Nat) (pstate : BitVec 2)
  /-- DARK_RECEIVED (R422). -/
  | darkReceived (n : Nat)
  /-- P1_ENTRY (R421). -/
  | p1Entry (n : Nat)
  /-- P1_EXIT (R421). -/
  | p1Exit (n : Nat)
  /-- PORT_LOST (R418). -/
  | portLost (n : Nat)
  /-- OE_LEAVES_SERVICE (R425). -/
  | oeLeavesService (j fault : Nat)
  /-- PRESENCE_CHANGE (R542). -/
  | presenceChange (n : Nat) (arrive : Bool) (cap : Nat) (fit : Bool)
  /-- VIN_RISE (R437). -/
  | vinRise (vin : Nat)
  /-- DEBOUNCE_END (R437). -/
  | debounceEnd
  /-- RAIL_GOOD (R437). -/
  | railGood (r mv cur pw : Nat)
  /-- RAIL_FAULT (R438). -/
  | railFault (r : Nat)
  /-- EARLY_SUPPLY_FAULT (R439). -/
  | earlySupplyFault
  /-- VIN_OUT_OF_RANGE (R433). -/
  | vinOutOfRange (vin : Nat)
  /-- ILIMIT (R434). -/
  | ilimit
  /-- ILIMIT_TIMEOUT (R434). -/
  | ilimitTimeout
  /-- SYS_RST_N (R438). -/
  | sysRstN
  /-- POWER_CAP_WINDOW (R440). -/
  | powerCapWindow (avg vin iin pin : Nat)
  /-- SAG_DETECT (R441). -/
  | sagDetect (x droop : Nat)
  /-- SAG_RECOVER (R441). -/
  | sagRecover (x : Nat)
  /-- THERMAL_READING (R445). -/
  | thermalReading (i v : Nat)
  /-- THERM_RECOVER (R441). -/
  | thermRecover (x : Nat)
  /-- SNAP (R449). -/
  | snap
  /-- BOOT (R460). -/
  | boot (puf rpr write : Bool)
  /-- HBM_TRAINING_END (R555). -/
  | hbmTrainingEnd (found : Training)
  /-- SUBMIT (R467). -/
  | submit
  /-- KEY_DELIVERY_DONE (R467). -/
  | keyDeliveryDone
  /-- DRAIN_BOUND (R474). -/
  | drainBound (k : Nat)
  /-- SCRUB_COMPLETE (R474). -/
  | scrubComplete (k : Nat)
  /-- ERR_HEAD (R482). -/
  | errHead (p : Nat) (h : BitVec 32)
  /-- FENCED (R485). -/
  | fenced (p : Nat)
  /-- ERR_CTX_ABORT (R490). -/
  | errCtxAbort (ref : BitVec 32)
  /-- ERR_PART_RESET (R493). -/
  | errPartReset (bits : BitVec 16)
  /-- ERR_DEV_RESET (R502). -/
  | errDevReset (key : BitVec 32)
  /-- PARTITION_RESET (R494). -/
  | partitionReset (p : Nat)
  /-- DEVICE_RESET (R502). -/
  | deviceReset (puf rpr write : Bool)
  /-- PAIR (R506). -/
  | pair (t : Nat) (partner : BitVec 5)
  /-- EXPEL (R518). -/
  | expel (t : Nat) (partner : BitVec 5)
  /-- REBUILD_COPY_DONE (R512). -/
  | rebuildCopyDone (k : Nat)
  /-- CHECK_WINDOW (R513). -/
  | checkWindow (reads : List (Nat × Nat × Nat × List Byte))
  /-- LOSS_LOG_WRITE (R516). -/
  | lossLogWrite (p : Nat)
  /-- SHADOW_JOIN (R521). -/
  | shadowJoin (p n0 : Nat) (key : BitVec 256)
  /-- SHADOW_FORWARD (R522). -/
  | shadowForward (p : Nat) (i : Machine.ShadowInput)
  /-- SHADOW_DIGEST (R525). -/
  | shadowDigest (p n : Nat) (d : BitVec 256) (v : Bool)
  /-- SHADOW_PROMOTE (R526). -/
  | shadowPromote (p m : Nat)
  /-- SHADOW_FAIL (R527). -/
  | shadowFail (p cause : Nat)
  /-- STATUS (R534). -/
  | status (req : Option (List Byte))
  /-- FLASH_INFO (R534). -/
  | flashInfo (req : Option (List Byte))
  /-- FLASH_WRITE (R537). -/
  | flashWrite (req : Option (List Byte))
  /-- FLASH_COMMIT (R538). -/
  | flashCommit (req : Option (List Byte))
  /-- FLASH_ERASE (R539). -/
  | flashErase (req : Option (List Byte))
  /-- FLASH_SLOT_TIMEOUT (R537). -/
  | flashSlotTimeout (k : Nat)
  /-- TELEM_READ (R546). -/
  | telemRead (req : Option (List Byte))
  /-- DISC_READ (R534). -/
  | discRead (req : Option (List Byte))
  /-- I3C_ENTDAA (R532). -/
  | i3cEntdaa (addr : Nat)
  /-- SET_ENDPOINT_ID (R532). -/
  | setEndpointId (eid : BitVec 8)
  /-- GET_ENDPOINT_ID (R532). -/
  | getEndpointId
  /-- GET_MCTP_VERSION_SUPPORT (R532). -/
  | getMctpVersionSupport
  /-- GET_MESSAGE_TYPE_SUPPORT (R532). -/
  | getMessageTypeSupport
  /-- GET_VENDOR_DEFINED_MESSAGE_SUPPORT (R532). -/
  | getVendorDefinedMessageSupport
  /-- VIEW_WRITE (R549). -/
  | viewWrite (p v : Nat)
  /-- TAP_RESET (R550). -/
  | tapReset
  /-- BYPASS (R550). -/
  | bypass
  /-- IDCODE (R550). -/
  | idcode
  /-- SAMPLE_PRELOAD (R550). -/
  | samplePreload
  /-- EXTEST (R551). -/
  | extest
  /-- CLAMP (R551). -/
  | clamp
  /-- HIGHZ (R551). -/
  | highz
  /-- SK_RAILMON (R550). -/
  | skRailmon
  /-- SK_SCAN (R551). -/
  | skScan
  /-- SK_MEMBIST (R551). -/
  | skMembist
  /-- PERST_N (R437). -/
  | perstN
  /-- PILOT_FUNCTION_READY (R437). -/
  | pilotFunctionReady
  /-- DERATED (R433). -/
  | derated (vin : Nat)
  /-- ILIMIT_RELEASE (R434). -/
  | ilimitRelease
  /-- SNAP_LATCH_DONE (R449). -/
  | snapLatchDone
  /-- SPILL_RETURN_FILLED (R314). -/
  | spillReturnFilled (n out : Nat) (f : FilledReturn)
  /-- TENANT_POWER_WINDOW (R477). -/
  | tenantPowerWindow (avg : Nat)
  deriving DecidableEq, Repr

end Sys2Proof
end

