-- ==== Sys2Proof/Config.lean ====
section
/-!
DEFINITION. What the spec leaves to the device: the random source (R246, R475), the placement hash it does not
disclose (R246), and the cryptographic functions it names but does not define. Each is an opaque constant: no proof
can see a value of it, so a statement about it holds for every value.
-/
namespace Sys2Proof.Config

/-- The draws of the on-die random source, in order (R246, R475).
DESIGN CHOICE: assumption 10. -/
opaque random : Nat → BitVec 256

/-- The keyed hash H of R246: placement key, object salt, handle, granule.
DESIGN CHOICE: assumption 10. DEDUCED: assumption 26. -/
opaque placementHash : BitVec 256 → BitVec 256 → Nat → Nat → BitVec 64

/-- KMAC256 (R458, R524): key, input X, output length L in bits, customization string S.
DESIGN CHOICE: assumption 10. -/
opaque kmac256 : BitVec 256 → List Byte → (l : Nat) → List Byte → BitVec l

/-- The ASCII string "THORIX", S of every derivation (R458, R524). -/
def thorix : List Byte := [0x54, 0x48, 0x4F, 0x52, 0x49, 0x58]

/-- The bytes of a digest term (R524), whose encoding is not given: of its numbers in the order R524 names them.
DESIGN CHOICE: assumption 10. -/
opaque termBytes : List Nat → List Byte

/-- A digest term under a shadow key (R524). -/
def digestTerm (key : BitVec 256) (term : List Nat) : BitVec 256 := kmac256 key (termBytes term) 256 thorix

/-- SHA3-512 of a byte string (R452, R459, R463).
DESIGN CHOICE: assumption 10. -/
opaque sha3 : List Byte → BitVec 512

/-- SHA3-256 of a byte string (R513).
DESIGN CHOICE: assumption 10. -/
opaque sha3Short : List Byte → BitVec 256

/-- The bytes of the tray line address of a line of an object (R513), which no rule lays out.
DESIGN CHOICE: assumption 10. -/
opaque trayLine (handle line : Nat) : List Byte

/-- SHA3-512 of the boot ROM (R463).
DESIGN CHOICE: assumption 10. -/
opaque romHash : BitVec 512

/-- The device secret, which the physical unclonable function yields (R458).
DESIGN CHOICE: assumption 10. -/
opaque deviceSecret : BitVec 256

/-- The ML-DSA-87 public key of a seed (R458).
DESIGN CHOICE: assumption 10. -/
opaque dsaPublic : BitVec 256 → List Byte

/-- The signature of an attestation report under the ML-DSA-87 key of a seed: over the requester's nonce and the blocks
(R463).
DESIGN CHOICE: assumption 10. -/
opaque attest : BitVec 256 → List Byte → List (List Byte) → List Byte

/-- Byte n of the IDLE flit of CXL 3.1 (R410).
DESIGN CHOICE: assumption 10. -/
opaque idleFlit : Nat → Byte

/-- Whether a Moannis image verifies under a key that the Skovond root certifies (step 3 of R460).
DESIGN CHOICE: assumption 10. -/
opaque firmwareSigned : List Byte → Bool

/-- The security version of a Moannis image.
DESIGN CHOICE: assumption 10. -/
opaque firmwareSvn : List Byte → Nat

/-- Whether the signature of a manifest verifies under the owner key it holds (R452, R454).
DESIGN CHOICE: assumption 10. -/
opaque manifestSigned : List Byte → Bool

/-- The ML-KEM-1024 encapsulation key of its seeds, 1,568 bytes (R458, R463).
DESIGN CHOICE: assumption 10. -/
opaque kemPublic : BitVec 512 → List Byte

/-- The 32-byte secret that a ML-KEM-1024 ciphertext decapsulates to under the key of some seeds (R467).
DESIGN CHOICE: assumption 10. -/
opaque kemDecap : BitVec 512 → List Byte → BitVec 256

/-- AES-256-GCM opened: key, nonce, additional data, ciphertext and tag; nothing where the tag fails (R467).
DESIGN CHOICE: assumption 10. -/
opaque gcmOpen : BitVec 256 → List Byte → List Byte → List Byte → List Byte → Option (List Byte)

/-- AES-256-XTS of one data unit under its key and tweak (R469, R470).
DESIGN CHOICE: assumption 10. -/
opaque xtsEncrypt : BitVec 512 → BitVec 128 → List Byte → List Byte

/-- AES-256-XTS decryption of one data unit (R470, R471).
DESIGN CHOICE: assumption 10. -/
opaque xtsDecrypt : BitVec 512 → BitVec 128 → List Byte → List Byte

/-- Whether the device is an SK4800-EV (R428, R550).
DESIGN CHOICE: assumption 10. -/
opaque isEV : Bool

/-- The queue space of a quadrant in 256-byte units that a number of waiting messages takes, which R307 does not give.
DESIGN CHOICE: assumptions 10 and 57. -/
opaque queueSpace : Nat → Nat

/-- The received power and signal-to-noise reading of an optical lane at an XBAR cycle, as bits [31:10] of LINK_LANE_MARGIN
hold them (R427): measurements.
DESIGN CHOICE: assumptions 10 and 57. -/
opaque laneReading : Nat → Nat → Nat

/-- The bytes of a scan chain or self-test result, which the spec does not lay out (R550).
DESIGN CHOICE: assumption 10. -/
opaque testBytes : Nat → List Byte

end Sys2Proof.Config
end

