-- ==== Sys2Proof/Machine/KV.lean ====
section
/-!
DEFINITION. Sparse stores: a finite map from natural numbers kept as a list of pairs with strictly rising
keys, so that equal maps are equal lists. `kvPut` removes an entry that equals the value an unlisted key
reads as, so that a store with a default is canonical too.
-/
namespace Sys2Proof.Machine

/-- A finite map from numbers, keys strictly rising. -/
abbrev KV (α : Type) := List (Nat × α)

/-- The value listed for a key. -/
def kvGet? {α : Type} : KV α → Nat → Option α
  | [], _ => none
  | (k, v) :: r, x => if k = x then some v else if x < k then none else kvGet? r x

/-- The value a key reads as, `d` where it is not listed. -/
def kvGet {α : Type} (d : α) (m : KV α) (k : Nat) : α := (kvGet? m k).getD d

/-- The map with `v` listed at `x`. -/
def kvSet {α : Type} : KV α → Nat → α → KV α
  | [], x, v => [(x, v)]
  | (k, w) :: r, x, v =>
    if k = x then (x, v) :: r
    else if x < k then (x, v) :: (k, w) :: r
    else (k, w) :: kvSet r x v

/-- The map with nothing listed at `x`. -/
def kvDel {α : Type} : KV α → Nat → KV α
  | [], _ => []
  | (k, w) :: r, x =>
    if k = x then r
    else if x < k then (k, w) :: r
    else (k, w) :: kvDel r x

/-- The map that reads `v` at `x`, where an unlisted key reads as `d`: writing `d` removes the entry. -/
def kvPut {α : Type} [DecidableEq α] (d : α) (m : KV α) (x : Nat) (v : α) : KV α :=
  if v = d then kvDel m x else kvSet m x v

/-- Every key of the map is larger than `n`. -/
def kvAbove {α : Type} (n : Nat) : KV α → Bool
  | [] => true
  | (k, _) :: r => decide (n < k) && kvAbove n r

/-- The keys rise strictly. -/
def kvSorted {α : Type} : KV α → Bool
  | [] => true
  | (k, _) :: r => kvAbove k r && kvSorted r

/-- No entry equals the value an unlisted key reads as. -/
def kvNoDefault {α : Type} [DecidableEq α] (d : α) : KV α → Bool
  | [] => true
  | (_, v) :: r => decide (v ≠ d) && kvNoDefault d r

/-- Replaces the value listed at `x` by `f` of it; nothing where `x` is not listed. -/
def kvMod {α : Type} (m : KV α) (x : Nat) (f : α → α) : KV α :=
  match kvGet? m x with
  | some v => kvSet m x (f v)
  | none => m

/-- `f` applied to every value listed. -/
def kvMapV {α : Type} (f : Nat → α → α) (m : KV α) : KV α := m.map (fun p => (p.1, f p.1 p.2))

/-- The keys listed. -/
def kvKeys {α : Type} (m : KV α) : List Nat := m.map (fun p => p.1)

/-- The values listed. -/
def kvVals {α : Type} (m : KV α) : List α := m.map (fun p => p.2)

/-- The entries whose value passes `f`. -/
def kvFilter {α : Type} (f : Nat → α → Bool) (m : KV α) : KV α := m.filter (fun p => f p.1 p.2)

end Sys2Proof.Machine
end

