-- ==== Sys2Proof/Machine/Mem.lean ====
section
/-!
DEFINITION. Byte stores: a list of (address, byte) pairs with strictly rising addresses and no zero byte listed,
an unlisted address reading as zero. Every byte store of the device reads as zero before it is written: a granule
of an object (R242), scratch, the LAU table store and walker memory under a new tag (R100, R475).
-/
namespace Sys2Proof.Machine

/-- A byte store in canonical form. -/
abbrev Memory := List Host.Cell

/-- The byte an unlisted address reads as (R242, R475). -/
def Memory.unlisted : Byte := 0#8

/-- The canonical form: addresses rise strictly and no entry is the unlisted value. -/
def Memory.wf (m : Memory) : Bool := kvSorted m && kvNoDefault Memory.unlisted m

/-- One byte.
DESIGN CHOICE: assumption 9. -/
def memGet (m : Memory) (a : Nat) : Byte := kvGet Memory.unlisted m a

/-- The store with one byte written. -/
def memPut (m : Memory) (a : Nat) (b : Byte) : Memory := kvPut Memory.unlisted m a b

/-- `n` bytes from address `a`, lowest first.
DESIGN CHOICE: assumption 9. -/
def memRead (m : Memory) (a : Nat) : Nat → List Byte
  | 0 => []
  | n + 1 => memGet m a :: memRead m (a + 1) n

/-- The store with some bytes written from address `a` upward. -/
def memWrite (m : Memory) (a : Nat) : List Byte → Memory
  | [] => m
  | b :: r => memWrite (memPut m a b) (a + 1) r

/-- The little-endian number held in `n` bytes at `a` (R11). -/
def memNat (m : Memory) (a n : Nat) : Nat :=
  match n with
  | 0 => 0
  | k + 1 => (memGet m a).toNat + 256 * memNat m (a + 1) k

/-- The low `n` bytes of a number, lowest first (R11). -/
def natBytes : Nat → Nat → List Byte
  | 0, _ => []
  | k + 1, v => BitVec.ofNat 8 v :: natBytes k (v / 256)

/-- The number of some bytes, lowest first (R11). -/
def bytesNat : List Byte → Nat
  | [] => 0
  | b :: r => b.toNat + 256 * bytesNat r

/-- The store with a little-endian number of `n` bytes written at `a`. -/
def memPutNat (m : Memory) (a n v : Nat) : Memory := memWrite m a (natBytes n v)

/-- The number in bytes [lo, lo + n) of a record held as bytes. -/
def field (bs : List Byte) (lo n : Nat) : Nat := bytesNat ((bs.drop lo).take n)

end Sys2Proof.Machine
end

