-- ==== Sys2Proof/Machine/Arith.lean ====
section
/-!
DEFINITION. The arithmetic of the Moon, bit for bit (R61 to R80): number formats, rounding to nearest even,
conversions, products, sums, the FIXED tree and the partial-sum stack, exact accumulators, exp2 and the
reciprocal. A value in a format is its bit pattern, a natural number below 2 to the width of the format.
-/
namespace Sys2Proof.Machine

/-- The element formats of R91. -/
inductive Fmt where
  | fp32 | bf16 | fp16 | e4m3 | e5m2 | int8 | int32 | u8
  deriving DecidableEq, Repr

/-- The format of a code of R91; codes 8 to 15 name none. -/
def Fmt.ofCode : Nat → Option Fmt
  | 0 => some .fp32 | 1 => some .bf16 | 2 => some .fp16 | 3 => some .e4m3
  | 4 => some .e5m2 | 5 => some .int8 | 6 => some .int32 | 7 => some .u8
  | _ => none

/-- The code of a format (R91). -/
def Fmt.code : Fmt → Nat
  | .fp32 => 0 | .bf16 => 1 | .fp16 => 2 | .e4m3 => 3 | .e5m2 => 4 | .int8 => 5 | .int32 => 6 | .u8 => 7

/-- The width of a format in bits (R91). -/
def Fmt.width : Fmt → Nat
  | .fp32 => 32 | .int32 => 32 | .bf16 => 16 | .fp16 => 16
  | .e4m3 => 8 | .e5m2 => 8 | .int8 => 8 | .u8 => 8

/-- The width of a format in bytes. -/
def Fmt.bytes (f : Fmt) : Nat := f.width / 8

/-- Elements of a format in one vector register (R91). -/
def Fmt.elems (f : Fmt) : Nat := 2048 / f.width

/-- Whether a format is a floating-point one (R61). -/
def Fmt.isFp : Fmt → Bool
  | .fp32 => true | .bf16 => true | .fp16 => true | .e4m3 => true | .e5m2 => true
  | .int8 => false | .int32 => false | .u8 => false

/-- Fraction bits of a floating-point format (R61); 0 for an integer format. -/
def Fmt.frac : Fmt → Nat
  | .fp32 => 23 | .bf16 => 7 | .fp16 => 10 | .e4m3 => 3 | .e5m2 => 2
  | .int8 => 0 | .int32 => 0 | .u8 => 0

/-- Exponent bias (R61). -/
def Fmt.bias : Fmt → Nat
  | .fp32 => 127 | .bf16 => 127 | .fp16 => 15 | .e4m3 => 7 | .e5m2 => 15
  | .int8 => 0 | .int32 => 0 | .u8 => 0

/-- The magnitude bits of the largest finite value (R61). -/
def Fmt.maxFin : Fmt → Nat
  | .fp32 => 0x7F7FFFFF | .bf16 => 0x7F7F | .fp16 => 0x7BFF | .e4m3 => 0x7E | .e5m2 => 0x7B
  | .int8 => 127 | .int32 => 2147483647 | .u8 => 255

/-- The magnitude bits of infinity, where the format has one (R61). -/
def Fmt.infBits : Fmt → Option Nat
  | .fp32 => some 0x7F800000 | .bf16 => some 0x7F80 | .fp16 => some 0x7C00 | .e5m2 => some 0x7C
  | .e4m3 => none | .int8 => none | .int32 => none | .u8 => none

/-- The canonical NaN (R61); 0 for an integer format. -/
def Fmt.nan : Fmt → Nat
  | .fp32 => 0x7FC00000 | .bf16 => 0x7FC0 | .fp16 => 0x7E00 | .e4m3 => 0x7F | .e5m2 => 0x7E
  | .int8 => 0 | .int32 => 0 | .u8 => 0

/-- The sign bit of a pattern of a format. -/
def Fmt.sign (f : Fmt) (x : Nat) : Bool := bitAt (f.width - 1) x

/-- The pattern without its sign bit. -/
def Fmt.mag (f : Fmt) (x : Nat) : Nat := x % 2 ^ (f.width - 1)

/-- The pattern with a sign and a magnitude. -/
def Fmt.withSign (f : Fmt) (neg : Bool) (m : Nat) : Nat := if neg then 2 ^ (f.width - 1) + m else m

/-- A two's-complement number of a width read from its bits. -/
def toSigned (w x : Nat) : Int :=
  if x % 2 ^ w < 2 ^ (w - 1) then ((x % 2 ^ w : Nat) : Int) else ((x % 2 ^ w : Nat) : Int) - (2 ^ w : Nat)

/-- The two's-complement bits of a number at a width; it wraps. -/
def ofSigned (w : Nat) (i : Int) : Nat := (i % ((2 ^ w : Nat) : Int)).toNat

/-- A number held in the range of a signed width by saturation. -/
def satSigned (w : Nat) (i : Int) : Int :=
  max (-((2 ^ (w - 1) : Nat) : Int)) (min i (((2 ^ (w - 1) : Nat) : Int) - 1))

/-- What a floating-point pattern stands for: a NaN, an infinity, or the number
sign times m times 2 to the e. -/
inductive FVal where
  | nan
  | inf (neg : Bool)
  | fin (neg : Bool) (m : Nat) (e : Int)
  deriving DecidableEq, Repr

/-- The value of a pattern of a format (R61). An integer format's value is its number. -/
def Fmt.val (f : Fmt) (x : Nat) : FVal :=
  match f with
  | .int8 => let i := toSigned 8 x; .fin (decide (i < 0)) i.natAbs 0
  | .int32 => let i := toSigned 32 x; .fin (decide (i < 0)) i.natAbs 0
  | .u8 => .fin false (x % 256) 0
  | _ =>
    let m := f.mag x
    let s := f.sign x
    let ex := m / 2 ^ f.frac
    let fr := m % 2 ^ f.frac
    if f.maxFin < m then
      (if f.infBits = some m then .inf s else .nan)
    else if ex = 0 then .fin s fr (1 - (f.bias : Int) - (f.frac : Int))
    else .fin s (2 ^ f.frac + fr) ((ex : Int) - (f.bias : Int) - (f.frac : Int))

/-- The quotient of m by 2 to the k, rounded to nearest, ties to even (R62). -/
def rneShift (m k : Nat) : Nat :=
  let q := m / 2 ^ k
  let r := m % 2 ^ k
  if k = 0 then m
  else if 2 ^ (k - 1) < r then q + 1
  else if r = 2 ^ (k - 1) then q + q % 2
  else q

/-- m times 2 to the e as a multiple of 2 to the q, rounded to nearest even. -/
def rneScale (m : Nat) (e q : Int) : Nat :=
  if q ≤ e then m * 2 ^ (e - q).toNat else rneShift m (q - e).toNat

/-- What an overflow becomes. -/
inductive Ovf where
  | toInf | saturate
  deriving DecidableEq, Repr

/-- The magnitude bits of m times 2 to the e rounded once to a format, with subnormal results (R62). -/
def Fmt.roundMag (f : Fmt) (o : Ovf) (m : Nat) (e : Int) : Nat :=
  let qmin : Int := 1 - (f.bias : Int) - (f.frac : Int)
  let q : Int := max (((Nat.log2 m : Nat) : Int) + e - (f.frac : Int)) qmin
  let sig := rneScale m e q
  let bits := (q - qmin).toNat * 2 ^ f.frac + sig
  if f.maxFin < bits then
    match o with
    | .saturate => f.maxFin
    | .toInf => f.infBits.getD f.maxFin
  else bits

/-- A value rounded once to a floating-point format. -/
def Fmt.round (f : Fmt) (o : Ovf) : FVal → Nat
  | .nan => f.nan
  | .inf s => f.withSign s (f.infBits.getD f.maxFin)
  | .fin s m e => if m = 0 then f.withSign s 0 else f.withSign s (f.roundMag o m e)

/-- A finite value rounded to an integer to nearest even. -/
def roundInt (s : Bool) (m : Nat) (e : Int) : Int :=
  let k : Int := (rneScale m e 0 : Nat)
  if s then -k else k

/-- A value rounded to an integer of a width and saturated; NaN gives 0 (R62). -/
def toIntSat (w : Nat) : FVal → Int
  | .nan => 0
  | .inf s => if s then -((2 ^ (w - 1) : Nat) : Int) else ((2 ^ (w - 1) : Nat) : Int) - 1
  | .fin s m e => satSigned w (roundInt s m e)

/-- How a conversion treats a result beyond the largest finite value (R62). An FP8 target saturates. -/
def Fmt.ovf : Fmt → Ovf
  | .e4m3 => .saturate | .e5m2 => .saturate
  | .fp32 => .toInf | .bf16 => .toInf | .fp16 => .toInf
  | .int8 => .saturate | .int32 => .saturate | .u8 => .saturate

/-- The conversion table of R62. -/
def convert (src dst : Fmt) (x : Nat) : Nat :=
  if src = dst then
    (match src.isFp, src.val x with
     | true, .nan => src.nan
     | _, _ => x % 2 ^ src.width)
  else match dst with
  | .int8 => ofSigned 8 (toIntSat 8 (src.val x))
  | .int32 => ofSigned 32 (toIntSat 32 (src.val x))
  | .u8 => x % 256
  | d => d.round d.ovf (src.val x)

/-- An integer as sign, significand and exponent, scaled by 2 to the e. -/
def FVal.ofInt (i : Int) (e : Int) : FVal := .fin (decide (i < 0)) i.natAbs e

/-- The exact sum of two values, as IEEE 754 gives it for zeros and infinities (R66). -/
def FVal.add : FVal → FVal → FVal
  | .nan, _ => .nan
  | _, .nan => .nan
  | .inf a, .inf b => if a = b then .inf a else .nan
  | .inf a, .fin _ _ _ => .inf a
  | .fin _ _ _, .inf b => .inf b
  | .fin sa ma ea, .fin sb mb eb =>
    let e := min ea eb
    let a : Int := ((ma * 2 ^ (ea - e).toNat : Nat) : Int)
    let b : Int := ((mb * 2 ^ (eb - e).toNat : Nat) : Int)
    let r := (if sa then -a else a) + (if sb then -b else b)
    if r = 0 then .fin (sa && sb) 0 e else FVal.ofInt r e

/-- The value with its sign changed. -/
def FVal.neg : FVal → FVal
  | .nan => .nan
  | .inf s => .inf (!s)
  | .fin s m e => .fin (!s) m e

/-- The exact product; zero times infinity is NaN (R65). -/
def FVal.mul : FVal → FVal → FVal
  | .nan, _ => .nan
  | _, .nan => .nan
  | .inf a, .inf b => .inf (a ^^ b)
  | .inf a, .fin s m _ => if m = 0 then .nan else .inf (a ^^ s)
  | .fin s m _, .inf b => if m = 0 then .nan else .inf (s ^^ b)
  | .fin sa ma ea, .fin sb mb eb => .fin (sa ^^ sb) (ma * mb) (ea + eb)

/-- Whether a value is a NaN. -/
def FVal.isNan : FVal → Bool
  | .nan => true
  | _ => false

/-- The sum of two patterns of a format, rounded once (R113). -/
def Fmt.add (f : Fmt) (x y : Nat) : Nat := f.round .toInf (FVal.add (f.val x) (f.val y))

/-- The difference of two patterns of a format, rounded once (R113). -/
def Fmt.sub (f : Fmt) (x y : Nat) : Nat := f.round .toInf (FVal.add (f.val x) (FVal.neg (f.val y)))

/-- The product of two patterns of a format, rounded once (R113). -/
def Fmt.mul (f : Fmt) (x y : Nat) : Nat := f.round .toInf (FVal.mul (f.val x) (f.val y))

/-- Product plus addend with one rounding (R113). -/
def Fmt.fma (f : Fmt) (x y z : Nat) : Nat :=
  f.round .toInf (FVal.add (FVal.mul (f.val x) (f.val y)) (f.val z))

/-- The FP32 sum of a FIXED tree node (R66). -/
def fadd32 (x y : Nat) : Nat := Fmt.add .fp32 x y

/-- A product of the MAC array: exact, then rounded once to FP32 (R65). The rounding changes nothing but for
BF16 operands, whose product alone can need more than FP32 holds. -/
def product32 (fa fb : Fmt) (x y : Nat) : Nat := Fmt.round .fp32 .toInf (FVal.mul (fa.val x) (fb.val y))

/-- The order of patterns of a floating-point format with minus zero below plus zero (R113). -/
def Fmt.ordKey (f : Fmt) (x : Nat) : Int :=
  if f.sign x then -((f.mag x : Nat) : Int) - 1 else ((f.mag x : Nat) : Int)

/-- The order of patterns with the two zeros equal (R114). -/
def Fmt.cmpKey (f : Fmt) (x : Nat) : Int :=
  match f with
  | .u8 => ((x % 256 : Nat) : Int)
  | .int8 => toSigned 8 x
  | .int32 => toSigned 32 x
  | _ => if f.sign x then -((f.mag x : Nat) : Int) else ((f.mag x : Nat) : Int)

/-- Whether a pattern is a NaN of its format. -/
def Fmt.isNan (f : Fmt) (x : Nat) : Bool := f.isFp && (f.val x).isNan

/-! ### FIXED accumulation (R66, R67) -/

/-- One level of the tree of R66: nodes 2j and 2j + 1 are summed, a last single node stays. -/
def treeLevel {α : Type} (add : α → α → α) : List α → List α
  | a :: b :: r => add a b :: treeLevel add r
  | l => l

/-- The levels of R66 until one node is left; `k` bounds the number of levels. -/
def treeFold {α : Type} (add : α → α → α) : Nat → List α → List α
  | 0, l => l
  | k + 1, l => treeFold add k (treeLevel add l)

/-- The FIXED reduction of R66 by any sum; `d` is the result of no value at all. -/
def fixedTree {α : Type} (add : α → α → α) (d : α) (l : List α) : α :=
  (treeFold add l.length l).headD d

/-- The FIXED reduction of FP32 values (R66). -/
def fixedSum (l : List Nat) : Nat := fixedTree fadd32 0 l

/-- The two top nodes of a partial-sum stack are summed while they are of equal size (R67). The top is the
head of the list; `k` bounds the number of sums. -/
def stackMerge {α : Type} (add : α → α → α) : Nat → List (Nat × α) → List (Nat × α)
  | k + 1, (n, x) :: (m, y) :: r =>
    if n = m then stackMerge add k ((n + m, add y x) :: r) else (n, x) :: (m, y) :: r
  | _, l => l

/-- A value is pushed as a node of size 1 (R67). -/
def stackPush {α : Type} (add : α → α → α) (st : List (Nat × α)) (x : α) : List (Nat × α) :=
  stackMerge add (st.length + 1) ((1, x) :: st)

/-- The remaining nodes are summed from the top downward, the deeper node on the left (R67). -/
def stackClose {α : Type} (add : α → α → α) (d : α) : List (Nat × α) → α
  | [] => d
  | (_, x) :: r => r.foldl (fun acc p => add p.2 acc) x

/-! ### Exact accumulators (R70 to R75) -/

/-- An exact accumulator: ten signed bins (64 bits hold every value they reach: R70 bounds the value, and an
accumulator is normalised before more than 2 to the 30 adds have been made on one normalisation, R72), the sticky flags, the 48-bit add count, and how many adds it
has taken since its last normalisation (R70, R72).
DEDUCED: assumption 23. -/
structure XAcc where
  bins : List Int := List.replicate 10 0
  nan  : Bool := false
  pinf : Bool := false
  ninf : Bool := false
  count : Nat := 0
  sinceNorm : Nat := 0
  deriving DecidableEq, Repr

/-- The cleared accumulator (R70). -/
def XAcc.clear : XAcc := ⟨[0, 0, 0, 0, 0, 0, 0, 0, 0, 0], false, false, false, 0, 0⟩

/-- Bin `j` of a list of bins with `d` added. -/
def addBin : List Int → Nat → Int → List Int
  | [], _, _ => []
  | b :: r, 0, d => (b + d) :: r
  | b :: r, j + 1, d => b :: addBin r j d

/-- The value of the bins, times 2 to the 160 (R70). -/
def binsValue : List Int → Int
  | [] => 0
  | b :: r => b + (2 ^ 32 : Int) * binsValue r

/-- Steps 2 to 4 of R71: sign times M times 2 to the e added to two bins. -/
def XAcc.addScaled (a : XAcc) (neg : Bool) (m : Nat) (e : Int) : XAcc :=
  let t := (e + 160).toNat
  let j := t / 32
  let p := m * 2 ^ (t % 32)
  let lo : Int := ((p % 2 ^ 32 : Nat) : Int)
  let hi : Int := ((p / 2 ^ 32 : Nat) : Int)
  { a with bins := addBin (addBin a.bins j (if neg then -lo else lo)) (j + 1) (if neg then -hi else hi) }

/-- One add of R71, of a value already widened to FP32 or of an integer.
DEDUCED: assumption 23. -/
def XAcc.add (a : XAcc) (v : FVal) : XAcc :=
  let a' : XAcc :=
    match v with
    | .nan => { a with nan := true }
    | .inf false => { a with pinf := true }
    | .inf true => { a with ninf := true }
    | .fin s m e => if m = 0 then a else a.addScaled s m e
  { a' with count := a.count + 1, sinceNorm := a.sinceNorm + 1 }

/-- The carries of R72 from a bin to the next, `c` the carry coming in; the last bin keeps the sign, and holds 64 bits (R70):
an imported image can take it past them, and it wraps.
DESIGN CHOICE: assumption 66. -/
def normBins (c : Int) : List Int → List Int
  | [] => []
  | b :: r => if r.isEmpty then [toSigned 64 (ofSigned 64 (b + c))] else (b + c) % 2 ^ 32 :: normBins ((b + c) / 2 ^ 32) r

/-- Normalisation (R72). -/
def XAcc.normalise (a : XAcc) : XAcc := { a with bins := normBins 0 a.bins, sinceNorm := 0 }

/-- The value of an accumulator, rounded once (R73). -/
def XAcc.value (a : XAcc) : FVal :=
  if a.nan || (a.pinf && a.ninf) then .nan
  else if a.pinf then .inf false
  else if a.ninf then .inf true
  else
    let v := binsValue a.bins
    if v = 0 then .fin false 0 0 else FVal.ofInt v (-160)

/-- A read-out in a format (R73). -/
def XAcc.readOut (a : XAcc) (f : Fmt) : Nat :=
  match f with
  | .int32 => ofSigned 32 (toIntSat 32 a.value)
  | .int8 => ofSigned 8 (toIntSat 8 a.value)
  | .u8 => 0
  | g => g.round .toInf a.value

/-- Bins added pairwise. -/
def addBins : List Int → List Int → List Int
  | x :: r, y :: q => (x + y) :: addBins r q
  | _, _ => []

/-- Merging two exact states (R75). -/
def XAcc.merge (a b : XAcc) : XAcc :=
  XAcc.normalise
    { bins := addBins a.bins b.bins, nan := a.nan || b.nan, pinf := a.pinf || b.pinf,
      ninf := a.ninf || b.ninf, count := a.count + b.count, sinceNorm := 0 }

/-- The exact image of a normalised accumulator (R74), 88 bytes. -/
def XAcc.image (a : XAcc) : List Byte :=
  (a.bins.flatMap fun b => natBytes 8 (ofSigned 64 b)) ++
  natBytes 2 (bit01 a.nan + 2 * bit01 a.pinf + 4 * bit01 a.ninf) ++ natBytes 6 a.count

/-- The accumulator an image stands for, or none where it is refused (R74, R75). -/
def XAcc.ofImage (bs : List Byte) : Option XAcc :=
  let bin := fun (b : Nat) => toSigned 64 (bytesNat ((bs.drop (8 * b)).take 8))
  let flags := bytesNat ((bs.drop 80).take 2)
  let bins := (List.range 10).map bin
  if (bins.take 9).all (fun b => decide (0 ≤ b) && decide (b < 2 ^ 32)) && decide (flags < 8) then
    some { bins := bins, nan := bitAt 0 flags, pinf := bitAt 1 flags, ninf := bitAt 2 flags,
           count := bytesNat ((bs.drop 82).take 6), sinceNorm := 0 }
  else none

/-! ### exp2 (R76 to R78) and the reciprocal (R79, R80) -/

/-- The table t of R78: 2 to the i/64, times 2 to the 32, rounded to the nearest integer. -/
def exp2Table : List Nat :=
  [0x100000000, 0x102C9A3E7, 0x1059B0D31, 0x108745187, 0x10B5586D0, 0x10E3EC32D, 0x111301D01, 0x11429AAEB] ++
  [0x1172B83C8, 0x11A35BEB7, 0x11D487317, 0x12063B886, 0x12387A6E7, 0x126B4565E, 0x129E9DF52, 0x12D285A6E] ++
  [0x1306FE0A3, 0x133C08B26, 0x1371A7374, 0x13A7DB34E, 0x13DEA64C1, 0x14160A21F, 0x144E08606, 0x1486A2B5C] ++
  [0x14BFDAD53, 0x14F9B276A, 0x15342B56A, 0x156F4736B, 0x15AB07DD5, 0x15E76F15B, 0x16247EB04, 0x166238825] ++
  [0x16A09E668, 0x16DFB23C6, 0x171F75E8F, 0x175FEB564, 0x17A11473F, 0x17E2F336D, 0x182589995, 0x1868D99B4] ++
  [0x18ACE5423, 0x18F1AE991, 0x193737B0D, 0x197D829FE, 0x19C49182A, 0x1A0C667B6, 0x1A5503B24, 0x1A9E6B558] ++
  [0x1AE89F996, 0x1B33A2B85, 0x1B7F76F30, 0x1BCC1E905, 0x1C199BDD8, 0x1C67F12E5, 0x1CB720DCF, 0x1D072D4A0] ++
  [0x1D5818DD0, 0x1DA9E603E, 0x1DFC97338, 0x1E502EE79, 0x1EA4AFA2A, 0x1EFA1BEE6, 0x1F50765B7, 0x1FA7C181A]

/-- The coefficients of R78. -/
def exp2C1 : Nat := 0xB17217F8
/-- The second coefficient of R78. -/
def exp2C2 : Nat := 0x3D7F7BFF
/-- The third coefficient of R78. -/
def exp2C3 : Nat := 0x0E35846C

/-- The procedure of R77 on xi, the floor of x times 2 to the 32. -/
def exp2Core (xi : Int) : Nat :=
  let n : Int := xi / 2 ^ 32
  let f : Nat := (xi % 2 ^ 32).toNat
  let i := f / 2 ^ 26
  let r := f % 2 ^ 26
  let p := r * exp2C3 / 2 ^ 32
  let p := r * (exp2C2 + p) / 2 ^ 32
  let p := r * (exp2C1 + p) / 2 ^ 32
  let q := 2 ^ 32 + p
  let m := exp2Table.getD i 0 * q / 2 ^ 32
  Fmt.round .fp32 .toInf (.fin false m (n - 32))

/-- exp2 of an FP32 pattern (R76, R77). -/
def exp2 (x : Nat) : Nat :=
  match Fmt.val .fp32 x with
  | .nan => Fmt.nan .fp32
  | .inf false => 0x7F800000
  | .inf true => 0
  | .fin s m e =>
    if m = 0 then 0x3F800000
    else
      let scaled : Int := if 0 ≤ e + 32 then ((m * 2 ^ (e + 32).toNat : Nat) : Int)
        else if s then ((ceilDiv m (2 ^ (-(e + 32)).toNat) : Nat) : Int)
        else ((m / 2 ^ (-(e + 32)).toNat : Nat) : Int)
      let xi : Int := if s then -scaled else scaled
      if (128 : Int) * 2 ^ 32 ≤ xi then 0x7F800000
      else if xi < (-160 : Int) * 2 ^ 32 then 0
      else exp2Core xi

/-- The reciprocal of an FP32 pattern, correctly rounded (R79). -/
def rcp (y : Nat) : Nat :=
  match Fmt.val .fp32 y with
  | .nan => Fmt.nan .fp32
  | .inf s => Fmt.withSign .fp32 s 0
  | .fin s m e =>
    if m = 0 then Fmt.withSign .fp32 s 0x7F800000
    else
      let q := 2 ^ 80 / m
      let sticky := if 2 ^ 80 % m = 0 then 0 else 1
      Fmt.round .fp32 .toInf (.fin s (2 * q + sticky) (-81 - e))

/-- The table entry of R80, for i from 0 to 127: 2 to the 24 over 257 + 2i, rounded. -/
def rcpTable (i : Nat) : Nat := (2 * 2 ^ 24 + (257 + 2 * i)) / (2 * (257 + 2 * i))

/-- The approximation of R80 of 2 to the 54 over Y, from which the device selects the result R79 fixes. -/
def rcpApprox (y : Nat) : Int :=
  let g : Int := ((rcpTable (y / 2 ^ 16 - 128) : Nat) : Int)
  let d : Int := 2 ^ 39 - (y : Int) * g
  let d2 : Int := d * d / 2 ^ 39
  let d3 : Int := d2 * d / 2 ^ 39
  g * (2 ^ 39 + d + d2 + d3) / 2 ^ 24

end Sys2Proof.Machine
end

