-- ==== Sys2Proof/Machine/RegTable.lean ====
section
/-!
DEFINITION. The BAR0 register table (R4 to R8, R560 to R563): every register of the register summary with its
address, its index ranges, its reset value, its fields with their access codes (R7), and the pilot privilege
that its defining chapter asks for a read and for a write (R564). The fields are those of the field tables of
the chapters; a field without a name is reserved and follows R6.
-/
namespace Sys2Proof.Machine

/-- The access codes of R7. -/
inductive Acc where
  | ro | rw | w1c | wo | st | sl
  deriving DecidableEq, Repr

/-- The pilot privilege an access needs (R564, R457). -/
inductive Priv where
  | none | telemetry | management | control | controlOrTelemetry | telemetryOrManagement | anyControl
  deriving DecidableEq, Repr

/-- How the partition of an indexed register is found: none, its first index, the queue pair's PART, or the
PART of the key slot. -/
inductive Owner where
  | none | first | byQp | bySlot
  deriving DecidableEq, Repr

/-- The registers of R563, spelt as the register summary spells them. -/
inductive RegName where
  | GLB_ID | GLB_TOPO | GLB_MOON_AVAIL | GLB_UNIT_AVAIL
  | GLB_ORB_RAISE | GLB_ORB_PEND | GLB_ORB_LIMIT | GLB_ORB_STAT
  | GLB_ORB_TIME | GLB_ORB_PAUSE | GLB_CYC | GLB_CYC_SNAP
  | GLB_CYC_LATCH | GLB_SHD_CTRL | GLB_SHD_STAT | PART_SEAL
  | PART_PRIV | PART_CFG_A | PART_CFG_B | PART_PGRP
  | PART_WIN_A | PART_WIN_B | QPDB_D | CTX_QP_A
  | CTX_QP_B | CTX_QP_C | CTX_QP_STAT | CTX_STATE
  | CTX_PART_CFG | CTX_PART_STAT | CTX_CFG | XBAR_CFG
  | XBAR_SPILL_STAT | XBAR_TAG_STAT | XBAR_SPILL_CTRL | XBAR_QUAD_OCC
  | XBAR_PORT_OCC | XBAR_PORT_EVT | XBAR_TAG_BUDGET | XBAR_FAB_CTRL
  | XBAR_FAB_REFUSE | XBAR_COMB_STAT | XBAR_BI_STAT | SCHED_PART_WT
  | SCHED_DEV_WT | SCHED_CARVE_CH | SCHED_CARVE_SP | SCHED_PORT_OVH
  | SCHED_ACCT | SCHED_BKT | SCHED_ACCT_STAT | SCHED_CTX_SDI
  | SCHED_CTX_ENG | PLACE_IMBAL_CTRL | PLACE_IMBAL_STAT | PLACE_MOVE_CTRL
  | PLACE_TIER1_T | PLACE_TIER2_T | PLACE_AGE | PLACE_HBM_USE
  | PLACE_TRAY_USE | PLACE_EVT | PLACE_CHAN_LOAD | PLACE_TRAY_LOAD
  | NME_SCRUB_CTRL | NME_ECC | PLACE_MIR_CTRL | PLACE_MIR_STAT
  | PLACE_TRAY_CTRL | PLACE_TRAY_STAT | PLACE_PAIR_STAT | PLACE_LOSS_LOG
  | MOON_STAT | MOON_CYC | MOON_EXP_CODED | MOON_EXP_RAW
  | MOON_EXP_LOADS | MOON_EXP_OCC | LINK_PORT_CFG | LINK_PORT_CTRL
  | LINK_PORT_STAT | LINK_PORT_ERR | LINK_LANE_MARGIN | LINK_OE_STAT
  | LINK_CFG | LINK_IDE_STAT | LINK_PILOT_STAT | LINK_PORT_HEALTH
  | SEC_BOOT_STAT | SEC_FLOOR | SEC_KD_CTRL | SEC_KD_STAT
  | SEC_KD_BUF | SEC_KS_A | SEC_KS_B | ERR_DQ_REC
  | ERR_PQ_REC | ERR_DQ_PTR | ERR_DQ_STAT | ERR_PQ_PTR
  | ERR_PQ_STAT | ERR_CTX_ABORT | ERR_PART_RESET | ERR_DEV_RESET
  | MGT_SVC_CTRL | MGT_SVC_STAT | MGT_SVC_BUF | MGT_DISC
  | TELEM_WALL | TELEM_VIEW | MGT_PWR_CTRL | MGT_PWR_STAT
  | MGT_PWR_FAULT | MGT_SAG_CTRL | MGT_TEMP_HUB | MGT_TEMP_HBM
  | MGT_STRETCH | MGT_STRETCH_CYC | MGT_RAIL
  deriving DecidableEq, Repr

/-- A field of a register: its bits [hi:lo] and its access code. -/
structure Fld where
  hi : Nat
  lo : Nat
  acc : Acc
  deriving DecidableEq, Repr

/-- What the register summary and the defining chapter say of a register. `dims` holds, for each index, the byte
stride and how many values the index takes. -/
structure RegDesc where
  base   : Nat
  dims   : List (Nat × Nat)
  reset  : Nat
  fields : List Fld
  owner  : Owner
  rpriv  : Priv
  wpriv  : Priv
  deriving DecidableEq, Repr

end Sys2Proof.Machine

namespace Sys2Proof.Machine.Row

def GLB_ID : RegDesc :=
  ⟨0x0, [], 0x5c0d480042000000,
    [⟨63, 48, .ro⟩, ⟨47, 32, .ro⟩, ⟨31, 24, .ro⟩, ⟨23, 16, .ro⟩], .none, .none, .none⟩
def GLB_TOPO : RegDesc :=
  ⟨0x8, [], 0x102008081004,
    [⟨47, 40, .ro⟩, ⟨39, 32, .ro⟩, ⟨31, 24, .ro⟩, ⟨23, 16, .ro⟩, ⟨15, 8, .ro⟩, ⟨7, 0, .ro⟩], .none, .none, .none⟩
def GLB_MOON_AVAIL : RegDesc :=
  ⟨0x10, [], 0xffffffffffffffff,
    [⟨63, 0, .ro⟩], .none, .none, .none⟩
def GLB_UNIT_AVAIL : RegDesc :=
  ⟨0x18, [], 0xffffffffff,
    [⟨39, 8, .ro⟩, ⟨7, 0, .ro⟩], .none, .none, .none⟩
def GLB_ORB_RAISE : RegDesc :=
  ⟨0x100, [], 0x0,
    [⟨15, 0, .wo⟩], .none, .none, .none⟩
def GLB_ORB_PEND : RegDesc :=
  ⟨0x108, [], 0x0,
    [⟨31, 16, .ro⟩, ⟨15, 0, .ro⟩], .none, .none, .none⟩
def GLB_ORB_LIMIT : RegDesc :=
  ⟨0x110, [], 0x1036640,
    [⟨31, 0, .rw⟩], .none, .none, .management⟩
def GLB_ORB_STAT : RegDesc :=
  ⟨0x200, [(0x8, 16)], 0x1,
    [⟨63, 24, .ro⟩, ⟨23, 14, .ro⟩, ⟨13, 4, .ro⟩, ⟨3, 3, .ro⟩, ⟨2, 2, .ro⟩, ⟨1, 1, .ro⟩, ⟨0, 0, .ro⟩], .first, .none, .none⟩
def GLB_ORB_TIME : RegDesc :=
  ⟨0x280, [(0x8, 16)], 0x0,
    [⟨63, 0, .ro⟩], .first, .telemetry, .none⟩
def GLB_ORB_PAUSE : RegDesc :=
  ⟨0x300, [(0x8, 16)], 0x0,
    [⟨63, 48, .ro⟩, ⟨31, 16, .ro⟩, ⟨15, 0, .rw⟩], .first, .telemetry, .telemetry⟩
def GLB_CYC : RegDesc :=
  ⟨0x400, [(0x8, 17)], 0x0,
    [⟨63, 0, .ro⟩], .none, .telemetry, .none⟩
def GLB_CYC_SNAP : RegDesc :=
  ⟨0x500, [], 0x1,
    [⟨1, 1, .wo⟩, ⟨0, 0, .ro⟩], .none, .telemetry, .management⟩
def GLB_CYC_LATCH : RegDesc :=
  ⟨0x600, [(0x8, 17)], 0x0,
    [⟨63, 0, .ro⟩], .none, .telemetry, .none⟩
def GLB_SHD_CTRL : RegDesc :=
  ⟨0x800, [(0x8, 16)], 0x10000040,
    [⟨63, 62, .st⟩, ⟨55, 52, .st⟩, ⟨43, 32, .st⟩, ⟨31, 24, .st⟩, ⟨15, 0, .st⟩], .first, .telemetry, .control⟩
def GLB_SHD_STAT : RegDesc :=
  ⟨0x880, [(0x8, 16)], 0x0,
    [⟨63, 61, .ro⟩, ⟨55, 52, .ro⟩, ⟨47, 32, .ro⟩, ⟨31, 24, .ro⟩, ⟨23, 0, .ro⟩], .first, .telemetry, .none⟩
def PART_SEAL : RegDesc :=
  ⟨0x100000, [], 0x0,
    [⟨63, 32, .ro⟩, ⟨2, 2, .ro⟩, ⟨1, 1, .ro⟩, ⟨0, 0, .ro⟩], .none, .none, .none⟩
def PART_PRIV : RegDesc :=
  ⟨0x100008, [], 0x0,
    [⟨31, 16, .sl⟩, ⟨1, 1, .sl⟩, ⟨0, 0, .sl⟩], .none, .none, .none⟩
def PART_CFG_A : RegDesc :=
  ⟨0x100100, [(0x8, 16)], 0x0,
    [⟨63, 63, .sl⟩, ⟨62, 54, .sl⟩, ⟨53, 47, .sl⟩, ⟨46, 24, .sl⟩, ⟨21, 0, .sl⟩], .first, .none, .none⟩
def PART_CFG_B : RegDesc :=
  ⟨0x100180, [(0x8, 16)], 0x0,
    [⟨43, 32, .sl⟩, ⟨26, 16, .sl⟩], .first, .none, .none⟩
def PART_PGRP : RegDesc :=
  ⟨0x100200, [(0x8, 64)], 0x0,
    [⟨63, 63, .sl⟩, ⟨62, 61, .sl⟩, ⟨55, 44, .sl⟩, ⟨43, 32, .sl⟩, ⟨31, 24, .sl⟩, ⟨23, 16, .sl⟩, ⟨15, 0, .sl⟩], .none, .none, .none⟩
def PART_WIN_A : RegDesc :=
  ⟨0x140000, [(0x10, 4096)], 0x0,
    [⟨63, 63, .sl⟩, ⟨55, 52, .sl⟩, ⟨51, 40, .sl⟩, ⟨39, 28, .sl⟩, ⟨25, 25, .sl⟩, ⟨24, 24, .sl⟩, ⟨23, 23, .sl⟩], .none, .none, .none⟩
def PART_WIN_B : RegDesc :=
  ⟨0x140008, [(0x10, 4096)], 0x0,
    [⟨51, 30, .sl⟩, ⟨22, 0, .sl⟩], .none, .none, .none⟩
def QPDB_D : RegDesc :=
  ⟨0x200000, [(0x40, 8192), (0x8, 8)], 0x0,
    [⟨63, 0, .wo⟩], .byQp, .none, .control⟩
def CTX_QP_A : RegDesc :=
  ⟨0x400000, [(0x20, 8192)], 0x6600000000000,
    [⟨63, 63, .st⟩, ⟨62, 62, .st⟩, ⟨61, 61, .st⟩, ⟨60, 56, .st⟩, ⟨55, 52, .sl⟩, ⟨51, 48, .st⟩, ⟨47, 44, .st⟩, ⟨38, 36, .st⟩, ⟨31, 0, .st⟩], .byQp, .none, .control⟩
def CTX_QP_B : RegDesc :=
  ⟨0x400008, [(0x20, 8192)], 0x0,
    [⟨63, 0, .st⟩], .byQp, .none, .control⟩
def CTX_QP_C : RegDesc :=
  ⟨0x400010, [(0x20, 8192)], 0x0,
    [⟨63, 32, .st⟩, ⟨31, 0, .ro⟩], .byQp, .none, .control⟩
def CTX_QP_STAT : RegDesc :=
  ⟨0x400018, [(0x20, 8192)], 0x0,
    [⟨63, 48, .ro⟩, ⟨36, 27, .ro⟩, ⟨26, 16, .ro⟩, ⟨1, 1, .ro⟩, ⟨0, 0, .ro⟩], .byQp, .control, .none⟩
def CTX_STATE : RegDesc :=
  ⟨0x440000, [(0x8, 4096)], 0x0,
    [⟨63, 63, .ro⟩, ⟨62, 60, .ro⟩, ⟨59, 56, .ro⟩, ⟨43, 28, .ro⟩, ⟨27, 27, .ro⟩, ⟨26, 26, .ro⟩, ⟨25, 13, .ro⟩], .none, .none, .none⟩
def CTX_PART_CFG : RegDesc :=
  ⟨0x448000, [(0x8, 16)], 0x4,
    [⟨44, 32, .sl⟩, ⟨25, 16, .sl⟩, ⟨15, 0, .st⟩], .first, .none, .control⟩
def CTX_PART_STAT : RegDesc :=
  ⟨0x448080, [(0x8, 16)], 0x0,
    [⟨63, 48, .ro⟩, ⟨47, 32, .ro⟩, ⟨28, 16, .ro⟩, ⟨9, 0, .ro⟩], .first, .control, .none⟩
def CTX_CFG : RegDesc :=
  ⟨0x448100, [], 0x200000000186a0,
    [⟨63, 48, .rw⟩, ⟨31, 0, .rw⟩], .none, .none, .management⟩
def XBAR_CFG : RegDesc :=
  ⟨0x800000, [], 0x1000020001000001,
    [⟨63, 48, .rw⟩, ⟨43, 32, .rw⟩, ⟨27, 16, .rw⟩, ⟨0, 0, .rw⟩], .none, .telemetry, .management⟩
def XBAR_SPILL_STAT : RegDesc :=
  ⟨0x800008, [], 0x0,
    [⟨63, 48, .ro⟩, ⟨42, 22, .ro⟩, ⟨21, 21, .ro⟩, ⟨20, 0, .ro⟩], .none, .telemetry, .none⟩
def XBAR_TAG_STAT : RegDesc :=
  ⟨0x800010, [], 0x0,
    [⟨63, 48, .ro⟩, ⟨33, 17, .ro⟩, ⟨16, 0, .ro⟩], .none, .telemetry, .none⟩
def XBAR_SPILL_CTRL : RegDesc :=
  ⟨0x800018, [], 0x10000,
    [⟨20, 0, .rw⟩], .none, .telemetry, .management⟩
def XBAR_QUAD_OCC : RegDesc :=
  ⟨0x800100, [(0x8, 4)], 0x0,
    [⟨49, 32, .ro⟩, ⟨17, 0, .ro⟩], .none, .telemetry, .none⟩
def XBAR_PORT_OCC : RegDesc :=
  ⟨0x820000, [(0x8, 256)], 0x0,
    [⟨52, 32, .ro⟩, ⟨31, 31, .ro⟩, ⟨30, 28, .ro⟩, ⟨21, 12, .ro⟩, ⟨11, 0, .ro⟩], .none, .telemetry, .none⟩
def XBAR_PORT_EVT : RegDesc :=
  ⟨0x820800, [(0x8, 256)], 0x0,
    [⟨63, 48, .rw⟩, ⟨47, 32, .rw⟩, ⟨31, 16, .rw⟩, ⟨15, 0, .rw⟩], .none, .telemetry, .telemetry⟩
def XBAR_TAG_BUDGET : RegDesc :=
  ⟨0x821000, [(0x8, 256)], 0x20000000000,
    [⟨62, 46, .ro⟩, ⟨45, 29, .rw⟩, ⟨16, 0, .rw⟩], .none, .telemetry, .management⟩
def XBAR_FAB_CTRL : RegDesc :=
  ⟨0x810000, [], 0x19f0a004000008,
    [⟨63, 32, .rw⟩, ⟨31, 16, .rw⟩, ⟨7, 0, .rw⟩], .none, .telemetry, .management⟩
def XBAR_FAB_REFUSE : RegDesc :=
  ⟨0x810008, [], 0x0,
    [⟨63, 48, .rw⟩, ⟨47, 32, .rw⟩, ⟨31, 16, .rw⟩, ⟨15, 0, .rw⟩], .none, .telemetry, .telemetry⟩
def XBAR_COMB_STAT : RegDesc :=
  ⟨0x810010, [], 0x0,
    [⟨63, 32, .ro⟩, ⟨31, 16, .ro⟩, ⟨10, 0, .ro⟩], .none, .telemetry, .none⟩
def XBAR_BI_STAT : RegDesc :=
  ⟨0x810018, [], 0x0,
    [⟨63, 43, .ro⟩, ⟨31, 16, .ro⟩, ⟨15, 0, .ro⟩], .none, .telemetry, .none⟩
def SCHED_PART_WT : RegDesc :=
  ⟨0xa00000, [(0x8, 16)], 0x100,
    [⟨15, 0, .sl⟩], .first, .none, .none⟩
def SCHED_DEV_WT : RegDesc :=
  ⟨0xa00080, [], 0x40,
    [⟨15, 0, .rw⟩], .none, .none, .management⟩
def SCHED_CARVE_CH : RegDesc :=
  ⟨0xa00100, [(0x8, 16)], 0x0,
    [⟨63, 0, .sl⟩], .first, .none, .none⟩
def SCHED_CARVE_SP : RegDesc :=
  ⟨0xa00180, [(0x8, 16)], 0x0,
    [⟨31, 0, .sl⟩], .first, .none, .none⟩
def SCHED_PORT_OVH : RegDesc :=
  ⟨0xa00800, [(0x8, 256)], 0x1000008,
    [⟨31, 16, .rw⟩, ⟨7, 0, .rw⟩], .none, .none, .management⟩
def SCHED_ACCT : RegDesc :=
  ⟨0xa01000, [(0x200, 16), (0x8, 64)], 0x1000000,
    [⟨63, 32, .st⟩, ⟨31, 16, .st⟩, ⟨0, 0, .st⟩], .first, .none, .control⟩
def SCHED_BKT : RegDesc :=
  ⟨0xa03000, [(0x200, 16), (0x8, 64)], 0x0,
    [⟨63, 40, .st⟩, ⟨15, 0, .st⟩], .first, .none, .control⟩
def SCHED_ACCT_STAT : RegDesc :=
  ⟨0xa05000, [(0x200, 16), (0x8, 64)], 0x0,
    [⟨63, 48, .rw⟩, ⟨47, 0, .rw⟩], .first, .telemetry, .telemetry⟩
def SCHED_CTX_SDI : RegDesc :=
  ⟨0xa08000, [(0x8, 4096)], 0x0,
    [⟨63, 48, .ro⟩, ⟨47, 32, .rw⟩, ⟨31, 0, .ro⟩], .none, .telemetry, .telemetry⟩
def SCHED_CTX_ENG : RegDesc :=
  ⟨0xa10000, [(0x8, 4096)], 0x0,
    [⟨62, 42, .ro⟩, ⟨41, 21, .ro⟩, ⟨20, 0, .ro⟩], .none, .telemetry, .none⟩
def PLACE_IMBAL_CTRL : RegDesc :=
  ⟨0xc00000, [], 0x1e164430801401,
    [⟨55, 48, .rw⟩, ⟨47, 32, .rw⟩, ⟨31, 24, .rw⟩, ⟨23, 20, .rw⟩, ⟨15, 8, .rw⟩, ⟨0, 0, .rw⟩], .none, .none, .management⟩
def PLACE_IMBAL_STAT : RegDesc :=
  ⟨0xc00008, [], 0x0,
    [⟨63, 48, .ro⟩, ⟨47, 32, .ro⟩, ⟨31, 16, .ro⟩, ⟨9, 0, .ro⟩], .none, .telemetry, .none⟩
def PLACE_MOVE_CTRL : RegDesc :=
  ⟨0xc00010, [], 0x10,
    [⟨7, 0, .rw⟩], .none, .none, .management⟩
def PLACE_TIER1_T : RegDesc :=
  ⟨0xc00018, [], 0x2981000000d48,
    [⟨63, 32, .rw⟩, ⟨31, 0, .rw⟩], .none, .none, .management⟩
def PLACE_TIER2_T : RegDesc :=
  ⟨0xc00020, [], 0x19f0a000004268,
    [⟨63, 32, .rw⟩, ⟨31, 0, .rw⟩], .none, .none, .management⟩
def PLACE_AGE : RegDesc :=
  ⟨0xc00100, [(0x8, 16)], 0x2,
    [⟨63, 32, .st⟩, ⟨31, 0, .st⟩], .first, .none, .control⟩
def PLACE_HBM_USE : RegDesc :=
  ⟨0xc00180, [(0x8, 16)], 0x0,
    [⟨63, 48, .ro⟩, ⟨47, 32, .ro⟩, ⟨31, 16, .ro⟩], .first, .none, .none⟩
def PLACE_TRAY_USE : RegDesc :=
  ⟨0xc00200, [(0x8, 16)], 0x0,
    [⟨63, 32, .ro⟩, ⟨31, 0, .ro⟩], .first, .none, .none⟩
def PLACE_EVT : RegDesc :=
  ⟨0xc00280, [(0x8, 16)], 0x0,
    [⟨63, 48, .rw⟩, ⟨47, 32, .rw⟩, ⟨31, 16, .rw⟩, ⟨15, 0, .rw⟩], .first, .telemetry, .telemetry⟩
def PLACE_CHAN_LOAD : RegDesc :=
  ⟨0xc01000, [(0x8, 512)], 0x0,
    [⟨63, 32, .ro⟩, ⟨31, 16, .ro⟩], .none, .telemetry, .none⟩
def PLACE_TRAY_LOAD : RegDesc :=
  ⟨0xc02000, [(0x8, 24)], 0x0,
    [⟨63, 32, .ro⟩, ⟨31, 16, .ro⟩], .none, .telemetry, .none⟩
def NME_SCRUB_CTRL : RegDesc :=
  ⟨0xe00000, [], 0x18,
    [⟨15, 0, .rw⟩], .none, .none, .management⟩
def NME_ECC : RegDesc :=
  ⟨0xe00008, [], 0x0,
    [⟨63, 32, .ro⟩, ⟨31, 0, .ro⟩], .none, .telemetry, .none⟩
def PLACE_MIR_CTRL : RegDesc :=
  ⟨0xc03000, [], 0x400000101e0040,
    [⟨55, 48, .rw⟩, ⟨31, 24, .rw⟩, ⟨23, 16, .rw⟩, ⟨7, 0, .rw⟩], .none, .telemetry, .management⟩
def PLACE_MIR_STAT : RegDesc :=
  ⟨0xc03008, [], 0x0,
    [⟨63, 63, .ro⟩, ⟨60, 56, .ro⟩, ⟨55, 40, .ro⟩, ⟨39, 24, .ro⟩, ⟨23, 0, .ro⟩], .none, .telemetry, .none⟩
def PLACE_TRAY_CTRL : RegDesc :=
  ⟨0xc03100, [(0x8, 24)], 0x0,
    [⟨63, 63, .wo⟩, ⟨62, 62, .wo⟩, ⟨52, 48, .rw⟩], .none, .telemetry, .management⟩
def PLACE_TRAY_STAT : RegDesc :=
  ⟨0xc03200, [(0x8, 24)], 0xf00000000000000,
    [⟨63, 61, .ro⟩, ⟨59, 56, .ro⟩, ⟨55, 48, .ro⟩, ⟨47, 40, .ro⟩, ⟨31, 0, .ro⟩], .none, .telemetry, .none⟩
def PLACE_PAIR_STAT : RegDesc :=
  ⟨0xc03300, [(0x8, 12)], 0x1f1f1f0000000000,
    [⟨63, 61, .ro⟩, ⟨60, 56, .ro⟩, ⟨52, 48, .ro⟩, ⟨44, 40, .ro⟩, ⟨31, 0, .ro⟩], .none, .telemetry, .none⟩
def PLACE_LOSS_LOG : RegDesc :=
  ⟨0xc03400, [(0x8, 16)], 0x0,
    [⟨63, 0, .st⟩], .first, .telemetry, .control⟩
def MOON_STAT : RegDesc :=
  ⟨0x1000000, [(0x10000, 64)], 0x1,
    [⟨23, 16, .ro⟩, ⟨15, 8, .ro⟩, ⟨0, 0, .ro⟩], .none, .none, .none⟩
def MOON_CYC : RegDesc :=
  ⟨0x1000100, [(0x10000, 64), (0x80, 8), (0x8, 9)], 0x0,
    [⟨63, 0, .rw⟩], .none, .telemetry, .telemetry⟩
def MOON_EXP_CODED : RegDesc :=
  ⟨0x1000800, [(0x10000, 64)], 0x0,
    [⟨63, 0, .rw⟩], .none, .telemetry, .telemetry⟩
def MOON_EXP_RAW : RegDesc :=
  ⟨0x1000808, [(0x10000, 64)], 0x0,
    [⟨63, 0, .rw⟩], .none, .telemetry, .telemetry⟩
def MOON_EXP_LOADS : RegDesc :=
  ⟨0x1000810, [(0x10000, 64)], 0x0,
    [⟨63, 32, .rw⟩, ⟨31, 0, .rw⟩], .none, .telemetry, .telemetry⟩
def MOON_EXP_OCC : RegDesc :=
  ⟨0x1000818, [(0x10000, 64)], 0x0,
    [⟨13, 8, .ro⟩, ⟨2, 0, .ro⟩], .none, .telemetry, .telemetry⟩
def LINK_PORT_CFG : RegDesc :=
  ⟨0x1800000, [(0x8, 256)], 0x1,
    [⟨7, 6, .sl⟩, ⟨3, 2, .sl⟩, ⟨1, 1, .sl⟩, ⟨0, 0, .sl⟩], .none, .telemetry, .none⟩
def LINK_PORT_CTRL : RegDesc :=
  ⟨0x1800800, [(0x8, 256)], 0x0,
    [⟨9, 8, .rw⟩, ⟨0, 0, .wo⟩], .none, .telemetry, .management⟩
def LINK_PORT_STAT : RegDesc :=
  ⟨0x1801000, [(0x8, 256)], 0x0,
    [⟨55, 48, .ro⟩, ⟨47, 32, .ro⟩, ⟨11, 10, .ro⟩, ⟨9, 8, .ro⟩, ⟨4, 4, .ro⟩, ⟨3, 0, .ro⟩], .none, .telemetry, .none⟩
def LINK_PORT_ERR : RegDesc :=
  ⟨0x1801800, [(0x8, 256)], 0x0,
    [⟨63, 48, .rw⟩, ⟨47, 32, .rw⟩, ⟨31, 16, .rw⟩, ⟨15, 0, .rw⟩], .none, .telemetry, .telemetry⟩
def LINK_LANE_MARGIN : RegDesc :=
  ⟨0x1802000, [(0x8, 512)], 0x0,
    [⟨63, 32, .ro⟩, ⟨31, 20, .ro⟩, ⟨19, 10, .ro⟩, ⟨0, 0, .ro⟩], .none, .telemetry, .none⟩
def LINK_OE_STAT : RegDesc :=
  ⟨0x1831000, [(0x8, 32)], 0x1,
    [⟨63, 48, .ro⟩, ⟨47, 32, .ro⟩, ⟨31, 24, .ro⟩, ⟨23, 16, .ro⟩, ⟨0, 0, .ro⟩], .none, .telemetry, .none⟩
def LINK_CFG : RegDesc :=
  ⟨0x1832000, [], 0x271003e800103200,
    [⟨63, 48, .rw⟩, ⟨47, 32, .rw⟩, ⟨31, 16, .rw⟩, ⟨15, 8, .rw⟩], .none, .telemetry, .management⟩
def LINK_IDE_STAT : RegDesc :=
  ⟨0x1830000, [(0x8, 256)], 0x0,
    [⟨63, 48, .ro⟩, ⟨47, 32, .ro⟩, ⟨31, 16, .ro⟩, ⟨4, 4, .ro⟩, ⟨3, 3, .ro⟩, ⟨2, 0, .ro⟩], .none, .telemetry, .none⟩
def LINK_PILOT_STAT : RegDesc :=
  ⟨0x1830800, [], 0x0,
    [⟨63, 48, .ro⟩, ⟨10, 8, .ro⟩, ⟨5, 4, .ro⟩, ⟨3, 2, .ro⟩, ⟨1, 1, .ro⟩, ⟨0, 0, .ro⟩], .none, .telemetry, .none⟩
def LINK_PORT_HEALTH : RegDesc :=
  ⟨0x1834000, [(0x8, 256)], 0xff,
    [⟨7, 0, .ro⟩], .none, .telemetry, .none⟩
def SEC_BOOT_STAT : RegDesc :=
  ⟨0x1c00000, [], 0x0,
    [⟨63, 32, .ro⟩, ⟨15, 8, .ro⟩, ⟨3, 0, .ro⟩], .none, .none, .none⟩
def SEC_FLOOR : RegDesc :=
  ⟨0x1c00008, [], 0x0,
    [⟨63, 32, .ro⟩, ⟨31, 0, .ro⟩], .none, .none, .none⟩
def SEC_KD_CTRL : RegDesc :=
  ⟨0x1c00100, [], 0x0,
    [⟨0, 0, .wo⟩], .none, .anyControl, .anyControl⟩
def SEC_KD_STAT : RegDesc :=
  ⟨0x1c00108, [], 0x0,
    [⟨63, 32, .ro⟩, ⟨15, 8, .ro⟩, ⟨1, 1, .ro⟩, ⟨0, 0, .ro⟩], .none, .anyControl, .anyControl⟩
def SEC_KD_BUF : RegDesc :=
  ⟨0x1c01000, [(0x8, 210)], 0x0,
    [⟨63, 0, .wo⟩], .none, .anyControl, .anyControl⟩
def SEC_KS_A : RegDesc :=
  ⟨0x1c08000, [(0x8, 2048)], 0x0,
    [⟨63, 32, .ro⟩, ⟨31, 0, .ro⟩], .bySlot, .controlOrTelemetry, .none⟩
def SEC_KS_B : RegDesc :=
  ⟨0x1c0c000, [(0x8, 2048)], 0x0,
    [⟨63, 60, .ro⟩, ⟨59, 59, .ro⟩, ⟨55, 24, .ro⟩, ⟨7, 5, .ro⟩, ⟨4, 4, .ro⟩, ⟨0, 0, .st⟩], .bySlot, .controlOrTelemetry, .control⟩
def ERR_DQ_REC : RegDesc :=
  ⟨0x2000000, [(0x20, 1024), (0x8, 4)], 0x0,
    [⟨63, 0, .ro⟩], .none, .telemetryOrManagement, .none⟩
def ERR_PQ_REC : RegDesc :=
  ⟨0x2010000, [(0x1000, 16), (0x20, 128), (0x8, 4)], 0x0,
    [⟨63, 0, .ro⟩], .first, .control, .control⟩
def ERR_DQ_PTR : RegDesc :=
  ⟨0x2020000, [], 0x0,
    [⟨63, 32, .rw⟩, ⟨31, 0, .ro⟩], .none, .telemetryOrManagement, .management⟩
def ERR_DQ_STAT : RegDesc :=
  ⟨0x2020008, [], 0x0,
    [⟨63, 48, .ro⟩, ⟨1, 1, .ro⟩, ⟨0, 0, .ro⟩], .none, .telemetryOrManagement, .none⟩
def ERR_PQ_PTR : RegDesc :=
  ⟨0x2020100, [(0x8, 16)], 0x0,
    [⟨63, 32, .rw⟩, ⟨31, 0, .ro⟩], .first, .control, .control⟩
def ERR_PQ_STAT : RegDesc :=
  ⟨0x2020200, [(0x8, 16)], 0x0,
    [⟨63, 48, .ro⟩, ⟨47, 32, .ro⟩, ⟨31, 16, .ro⟩, ⟨3, 2, .ro⟩, ⟨1, 1, .w1c⟩, ⟨0, 0, .ro⟩], .first, .control, .control⟩
def ERR_CTX_ABORT : RegDesc :=
  ⟨0x2020400, [], 0x0,
    [⟨31, 0, .wo⟩], .none, .none, .none⟩
def ERR_PART_RESET : RegDesc :=
  ⟨0x2020408, [], 0x0,
    [⟨15, 0, .wo⟩], .none, .none, .none⟩
def ERR_DEV_RESET : RegDesc :=
  ⟨0x2020410, [], 0x0,
    [⟨63, 32, .wo⟩], .none, .none, .management⟩
def MGT_SVC_CTRL : RegDesc :=
  ⟨0x2400000, [], 0x0,
    [⟨0, 0, .wo⟩], .none, .management, .management⟩
def MGT_SVC_STAT : RegDesc :=
  ⟨0x2400008, [], 0x0,
    [⟨15, 8, .ro⟩, ⟨1, 1, .ro⟩, ⟨0, 0, .ro⟩], .none, .management, .management⟩
def MGT_SVC_BUF : RegDesc :=
  ⟨0x2401000, [(0x8, 512)], 0x0,
    [⟨63, 0, .rw⟩], .none, .management, .management⟩
def MGT_DISC : RegDesc :=
  ⟨0x2402000, [(0x8, 256)], 0xf800000000,
    [⟨63, 63, .ro⟩, ⟨62, 62, .ro⟩, ⟨61, 60, .ro⟩, ⟨59, 59, .ro⟩, ⟨55, 44, .ro⟩, ⟨39, 35, .ro⟩, ⟨31, 16, .ro⟩], .none, .telemetry, .none⟩
def TELEM_WALL : RegDesc :=
  ⟨0x2800000, [], 0x0,
    [⟨63, 0, .ro⟩], .none, .none, .none⟩
def TELEM_VIEW : RegDesc :=
  ⟨0x2800100, [(0x80, 16), (0x8, 16)], 0x0,
    [⟨63, 16, .st⟩, ⟨1, 1, .ro⟩, ⟨0, 0, .ro⟩], .first, .controlOrTelemetry, .control⟩
def MGT_PWR_CTRL : RegDesc :=
  ⟨0x2410000, [], 0x10708,
    [⟨47, 32, .rw⟩, ⟨16, 16, .rw⟩, ⟨15, 0, .rw⟩], .none, .telemetry, .management⟩
def MGT_PWR_STAT : RegDesc :=
  ⟨0x2410008, [], 0x0,
    [⟨63, 48, .ro⟩, ⟨47, 32, .ro⟩, ⟨31, 16, .ro⟩, ⟨3, 3, .ro⟩, ⟨2, 2, .ro⟩, ⟨1, 1, .ro⟩, ⟨0, 0, .ro⟩], .none, .telemetry, .none⟩
def MGT_PWR_FAULT : RegDesc :=
  ⟨0x2410010, [], 0x0,
    [⟨31, 24, .ro⟩, ⟨23, 16, .ro⟩, ⟨15, 8, .ro⟩], .none, .telemetry, .none⟩
def MGT_SAG_CTRL : RegDesc :=
  ⟨0x2410018, [], 0x404628,
    [⟨31, 16, .rw⟩, ⟨15, 8, .rw⟩, ⟨7, 0, .rw⟩], .none, .telemetry, .management⟩
def MGT_TEMP_HUB : RegDesc :=
  ⟨0x2410020, [], 0x0,
    [⟨63, 0, .ro⟩], .none, .telemetry, .none⟩
def MGT_TEMP_HBM : RegDesc :=
  ⟨0x2410028, [], 0x0,
    [⟨63, 0, .ro⟩], .none, .telemetry, .none⟩
def MGT_STRETCH : RegDesc :=
  ⟨0x2410100, [(0x8, 5)], 0x0,
    [⟨63, 48, .rw⟩, ⟨47, 32, .rw⟩, ⟨31, 16, .rw⟩, ⟨3, 2, .ro⟩, ⟨1, 0, .ro⟩], .none, .telemetry, .telemetry⟩
def MGT_STRETCH_CYC : RegDesc :=
  ⟨0x2410140, [(0x8, 5)], 0x0,
    [⟨63, 0, .rw⟩], .none, .telemetry, .telemetry⟩
def MGT_RAIL : RegDesc :=
  ⟨0x2410200, [(0x8, 49)], 0x0,
    [⟨63, 48, .ro⟩, ⟨47, 32, .ro⟩, ⟨31, 16, .ro⟩, ⟨0, 0, .ro⟩], .none, .telemetry, .none⟩

end Sys2Proof.Machine.Row

namespace Sys2Proof.Machine

/-- The table (R563 and the field tables of the chapters). -/
def RegName.desc : RegName → RegDesc
  | .GLB_ID => Row.GLB_ID
  | .GLB_TOPO => Row.GLB_TOPO
  | .GLB_MOON_AVAIL => Row.GLB_MOON_AVAIL
  | .GLB_UNIT_AVAIL => Row.GLB_UNIT_AVAIL
  | .GLB_ORB_RAISE => Row.GLB_ORB_RAISE
  | .GLB_ORB_PEND => Row.GLB_ORB_PEND
  | .GLB_ORB_LIMIT => Row.GLB_ORB_LIMIT
  | .GLB_ORB_STAT => Row.GLB_ORB_STAT
  | .GLB_ORB_TIME => Row.GLB_ORB_TIME
  | .GLB_ORB_PAUSE => Row.GLB_ORB_PAUSE
  | .GLB_CYC => Row.GLB_CYC
  | .GLB_CYC_SNAP => Row.GLB_CYC_SNAP
  | .GLB_CYC_LATCH => Row.GLB_CYC_LATCH
  | .GLB_SHD_CTRL => Row.GLB_SHD_CTRL
  | .GLB_SHD_STAT => Row.GLB_SHD_STAT
  | .PART_SEAL => Row.PART_SEAL
  | .PART_PRIV => Row.PART_PRIV
  | .PART_CFG_A => Row.PART_CFG_A
  | .PART_CFG_B => Row.PART_CFG_B
  | .PART_PGRP => Row.PART_PGRP
  | .PART_WIN_A => Row.PART_WIN_A
  | .PART_WIN_B => Row.PART_WIN_B
  | .QPDB_D => Row.QPDB_D
  | .CTX_QP_A => Row.CTX_QP_A
  | .CTX_QP_B => Row.CTX_QP_B
  | .CTX_QP_C => Row.CTX_QP_C
  | .CTX_QP_STAT => Row.CTX_QP_STAT
  | .CTX_STATE => Row.CTX_STATE
  | .CTX_PART_CFG => Row.CTX_PART_CFG
  | .CTX_PART_STAT => Row.CTX_PART_STAT
  | .CTX_CFG => Row.CTX_CFG
  | .XBAR_CFG => Row.XBAR_CFG
  | .XBAR_SPILL_STAT => Row.XBAR_SPILL_STAT
  | .XBAR_TAG_STAT => Row.XBAR_TAG_STAT
  | .XBAR_SPILL_CTRL => Row.XBAR_SPILL_CTRL
  | .XBAR_QUAD_OCC => Row.XBAR_QUAD_OCC
  | .XBAR_PORT_OCC => Row.XBAR_PORT_OCC
  | .XBAR_PORT_EVT => Row.XBAR_PORT_EVT
  | .XBAR_TAG_BUDGET => Row.XBAR_TAG_BUDGET
  | .XBAR_FAB_CTRL => Row.XBAR_FAB_CTRL
  | .XBAR_FAB_REFUSE => Row.XBAR_FAB_REFUSE
  | .XBAR_COMB_STAT => Row.XBAR_COMB_STAT
  | .XBAR_BI_STAT => Row.XBAR_BI_STAT
  | .SCHED_PART_WT => Row.SCHED_PART_WT
  | .SCHED_DEV_WT => Row.SCHED_DEV_WT
  | .SCHED_CARVE_CH => Row.SCHED_CARVE_CH
  | .SCHED_CARVE_SP => Row.SCHED_CARVE_SP
  | .SCHED_PORT_OVH => Row.SCHED_PORT_OVH
  | .SCHED_ACCT => Row.SCHED_ACCT
  | .SCHED_BKT => Row.SCHED_BKT
  | .SCHED_ACCT_STAT => Row.SCHED_ACCT_STAT
  | .SCHED_CTX_SDI => Row.SCHED_CTX_SDI
  | .SCHED_CTX_ENG => Row.SCHED_CTX_ENG
  | .PLACE_IMBAL_CTRL => Row.PLACE_IMBAL_CTRL
  | .PLACE_IMBAL_STAT => Row.PLACE_IMBAL_STAT
  | .PLACE_MOVE_CTRL => Row.PLACE_MOVE_CTRL
  | .PLACE_TIER1_T => Row.PLACE_TIER1_T
  | .PLACE_TIER2_T => Row.PLACE_TIER2_T
  | .PLACE_AGE => Row.PLACE_AGE
  | .PLACE_HBM_USE => Row.PLACE_HBM_USE
  | .PLACE_TRAY_USE => Row.PLACE_TRAY_USE
  | .PLACE_EVT => Row.PLACE_EVT
  | .PLACE_CHAN_LOAD => Row.PLACE_CHAN_LOAD
  | .PLACE_TRAY_LOAD => Row.PLACE_TRAY_LOAD
  | .NME_SCRUB_CTRL => Row.NME_SCRUB_CTRL
  | .NME_ECC => Row.NME_ECC
  | .PLACE_MIR_CTRL => Row.PLACE_MIR_CTRL
  | .PLACE_MIR_STAT => Row.PLACE_MIR_STAT
  | .PLACE_TRAY_CTRL => Row.PLACE_TRAY_CTRL
  | .PLACE_TRAY_STAT => Row.PLACE_TRAY_STAT
  | .PLACE_PAIR_STAT => Row.PLACE_PAIR_STAT
  | .PLACE_LOSS_LOG => Row.PLACE_LOSS_LOG
  | .MOON_STAT => Row.MOON_STAT
  | .MOON_CYC => Row.MOON_CYC
  | .MOON_EXP_CODED => Row.MOON_EXP_CODED
  | .MOON_EXP_RAW => Row.MOON_EXP_RAW
  | .MOON_EXP_LOADS => Row.MOON_EXP_LOADS
  | .MOON_EXP_OCC => Row.MOON_EXP_OCC
  | .LINK_PORT_CFG => Row.LINK_PORT_CFG
  | .LINK_PORT_CTRL => Row.LINK_PORT_CTRL
  | .LINK_PORT_STAT => Row.LINK_PORT_STAT
  | .LINK_PORT_ERR => Row.LINK_PORT_ERR
  | .LINK_LANE_MARGIN => Row.LINK_LANE_MARGIN
  | .LINK_OE_STAT => Row.LINK_OE_STAT
  | .LINK_CFG => Row.LINK_CFG
  | .LINK_IDE_STAT => Row.LINK_IDE_STAT
  | .LINK_PILOT_STAT => Row.LINK_PILOT_STAT
  | .LINK_PORT_HEALTH => Row.LINK_PORT_HEALTH
  | .SEC_BOOT_STAT => Row.SEC_BOOT_STAT
  | .SEC_FLOOR => Row.SEC_FLOOR
  | .SEC_KD_CTRL => Row.SEC_KD_CTRL
  | .SEC_KD_STAT => Row.SEC_KD_STAT
  | .SEC_KD_BUF => Row.SEC_KD_BUF
  | .SEC_KS_A => Row.SEC_KS_A
  | .SEC_KS_B => Row.SEC_KS_B
  | .ERR_DQ_REC => Row.ERR_DQ_REC
  | .ERR_PQ_REC => Row.ERR_PQ_REC
  | .ERR_DQ_PTR => Row.ERR_DQ_PTR
  | .ERR_DQ_STAT => Row.ERR_DQ_STAT
  | .ERR_PQ_PTR => Row.ERR_PQ_PTR
  | .ERR_PQ_STAT => Row.ERR_PQ_STAT
  | .ERR_CTX_ABORT => Row.ERR_CTX_ABORT
  | .ERR_PART_RESET => Row.ERR_PART_RESET
  | .ERR_DEV_RESET => Row.ERR_DEV_RESET
  | .MGT_SVC_CTRL => Row.MGT_SVC_CTRL
  | .MGT_SVC_STAT => Row.MGT_SVC_STAT
  | .MGT_SVC_BUF => Row.MGT_SVC_BUF
  | .MGT_DISC => Row.MGT_DISC
  | .TELEM_WALL => Row.TELEM_WALL
  | .TELEM_VIEW => Row.TELEM_VIEW
  | .MGT_PWR_CTRL => Row.MGT_PWR_CTRL
  | .MGT_PWR_STAT => Row.MGT_PWR_STAT
  | .MGT_PWR_FAULT => Row.MGT_PWR_FAULT
  | .MGT_SAG_CTRL => Row.MGT_SAG_CTRL
  | .MGT_TEMP_HUB => Row.MGT_TEMP_HUB
  | .MGT_TEMP_HBM => Row.MGT_TEMP_HBM
  | .MGT_STRETCH => Row.MGT_STRETCH
  | .MGT_STRETCH_CYC => Row.MGT_STRETCH_CYC
  | .MGT_RAIL => Row.MGT_RAIL

/-- Every register of the table. -/
def RegName.all : List RegName :=
  List.flatten (α := RegName) [
    [.GLB_ID, .GLB_TOPO, .GLB_MOON_AVAIL, .GLB_UNIT_AVAIL, .GLB_ORB_RAISE, .GLB_ORB_PEND, .GLB_ORB_LIMIT, .GLB_ORB_STAT],
    [.GLB_ORB_TIME, .GLB_ORB_PAUSE, .GLB_CYC, .GLB_CYC_SNAP, .GLB_CYC_LATCH, .GLB_SHD_CTRL, .GLB_SHD_STAT, .PART_SEAL],
    [.PART_PRIV, .PART_CFG_A, .PART_CFG_B, .PART_PGRP, .PART_WIN_A, .PART_WIN_B, .QPDB_D, .CTX_QP_A],
    [.CTX_QP_B, .CTX_QP_C, .CTX_QP_STAT, .CTX_STATE, .CTX_PART_CFG, .CTX_PART_STAT, .CTX_CFG, .XBAR_CFG],
    [.XBAR_SPILL_STAT, .XBAR_TAG_STAT, .XBAR_SPILL_CTRL, .XBAR_QUAD_OCC, .XBAR_PORT_OCC, .XBAR_PORT_EVT, .XBAR_TAG_BUDGET, .XBAR_FAB_CTRL],
    [.XBAR_FAB_REFUSE, .XBAR_COMB_STAT, .XBAR_BI_STAT, .SCHED_PART_WT, .SCHED_DEV_WT, .SCHED_CARVE_CH, .SCHED_CARVE_SP, .SCHED_PORT_OVH],
    [.SCHED_ACCT, .SCHED_BKT, .SCHED_ACCT_STAT, .SCHED_CTX_SDI, .SCHED_CTX_ENG, .PLACE_IMBAL_CTRL, .PLACE_IMBAL_STAT, .PLACE_MOVE_CTRL],
    [.PLACE_TIER1_T, .PLACE_TIER2_T, .PLACE_AGE, .PLACE_HBM_USE, .PLACE_TRAY_USE, .PLACE_EVT, .PLACE_CHAN_LOAD, .PLACE_TRAY_LOAD],
    [.NME_SCRUB_CTRL, .NME_ECC, .PLACE_MIR_CTRL, .PLACE_MIR_STAT, .PLACE_TRAY_CTRL, .PLACE_TRAY_STAT, .PLACE_PAIR_STAT, .PLACE_LOSS_LOG],
    [.MOON_STAT, .MOON_CYC, .MOON_EXP_CODED, .MOON_EXP_RAW, .MOON_EXP_LOADS, .MOON_EXP_OCC, .LINK_PORT_CFG, .LINK_PORT_CTRL],
    [.LINK_PORT_STAT, .LINK_PORT_ERR, .LINK_LANE_MARGIN, .LINK_OE_STAT, .LINK_CFG, .LINK_IDE_STAT, .LINK_PILOT_STAT, .LINK_PORT_HEALTH],
    [.SEC_BOOT_STAT, .SEC_FLOOR, .SEC_KD_CTRL, .SEC_KD_STAT, .SEC_KD_BUF, .SEC_KS_A, .SEC_KS_B, .ERR_DQ_REC],
    [.ERR_PQ_REC, .ERR_DQ_PTR, .ERR_DQ_STAT, .ERR_PQ_PTR, .ERR_PQ_STAT, .ERR_CTX_ABORT, .ERR_PART_RESET, .ERR_DEV_RESET],
    [.MGT_SVC_CTRL, .MGT_SVC_STAT, .MGT_SVC_BUF, .MGT_DISC, .TELEM_WALL, .TELEM_VIEW, .MGT_PWR_CTRL, .MGT_PWR_STAT],
    [.MGT_PWR_FAULT, .MGT_SAG_CTRL, .MGT_TEMP_HUB, .MGT_TEMP_HBM, .MGT_STRETCH, .MGT_STRETCH_CYC, .MGT_RAIL]]

/-- A named field of a register. -/
structure RField where
  reg : RegName
  hi  : Nat
  lo  : Nat
  deriving DecidableEq, Repr

end Sys2Proof.Machine

namespace Sys2Proof.Machine.Reg

/-- VENDOR, bits [63:48] of GLB_ID. -/
def GLB_ID_VENDOR : RField := ⟨.GLB_ID, 63, 48⟩
/-- PART, bits [47:32] of GLB_ID. -/
def GLB_ID_PART : RField := ⟨.GLB_ID, 47, 32⟩
/-- STEP_LETTER, bits [31:24] of GLB_ID. -/
def GLB_ID_STEP_LETTER : RField := ⟨.GLB_ID, 31, 24⟩
/-- STEP_DIGIT, bits [23:16] of GLB_ID. -/
def GLB_ID_STEP_DIGIT : RField := ⟨.GLB_ID, 23, 16⟩
/-- LANES_PER_MOON, bits [47:40] of GLB_TOPO. -/
def GLB_TOPO_LANES_PER_MOON : RField := ⟨.GLB_TOPO, 47, 40⟩
/-- OPT_ENGINES, bits [39:32] of GLB_TOPO. -/
def GLB_TOPO_OPT_ENGINES : RField := ⟨.GLB_TOPO, 39, 32⟩
/-- HBM_STACKS, bits [31:24] of GLB_TOPO. -/
def GLB_TOPO_HBM_STACKS : RField := ⟨.GLB_TOPO, 31, 24⟩
/-- STRANDS_PER_MOON, bits [23:16] of GLB_TOPO. -/
def GLB_TOPO_STRANDS_PER_MOON : RField := ⟨.GLB_TOPO, 23, 16⟩
/-- MOONS_PER_QUAD, bits [15:8] of GLB_TOPO. -/
def GLB_TOPO_MOONS_PER_QUAD : RField := ⟨.GLB_TOPO, 15, 8⟩
/-- QUADRANTS, bits [7:0] of GLB_TOPO. -/
def GLB_TOPO_QUADRANTS : RField := ⟨.GLB_TOPO, 7, 0⟩
/-- MOON_IN_SERVICE, bits [63:0] of GLB_MOON_AVAIL. -/
def GLB_MOON_AVAIL_MOON_IN_SERVICE : RField := ⟨.GLB_MOON_AVAIL, 63, 0⟩
/-- OE_IN_SERVICE, bits [39:8] of GLB_UNIT_AVAIL. -/
def GLB_UNIT_AVAIL_OE_IN_SERVICE : RField := ⟨.GLB_UNIT_AVAIL, 39, 8⟩
/-- HBM_IN_SERVICE, bits [7:0] of GLB_UNIT_AVAIL. -/
def GLB_UNIT_AVAIL_HBM_IN_SERVICE : RField := ⟨.GLB_UNIT_AVAIL, 7, 0⟩
/-- RAISE, bits [15:0] of GLB_ORB_RAISE. -/
def GLB_ORB_RAISE_RAISE : RField := ⟨.GLB_ORB_RAISE, 15, 0⟩
/-- DEV_REQ, bits [31:16] of GLB_ORB_PEND. -/
def GLB_ORB_PEND_DEV_REQ : RField := ⟨.GLB_ORB_PEND, 31, 16⟩
/-- HOST_REQ, bits [15:0] of GLB_ORB_PEND. -/
def GLB_ORB_PEND_HOST_REQ : RField := ⟨.GLB_ORB_PEND, 15, 0⟩
/-- ORB_LIMIT, bits [31:0] of GLB_ORB_LIMIT. -/
def GLB_ORB_LIMIT_ORB_LIMIT : RField := ⟨.GLB_ORB_LIMIT, 31, 0⟩
/-- ORBIT_NUM, bits [63:24] of GLB_ORB_STAT. -/
def GLB_ORB_STAT_ORBIT_NUM : RField := ⟨.GLB_ORB_STAT, 63, 24⟩
/-- ENROLLED, bits [23:14] of GLB_ORB_STAT. -/
def GLB_ORB_STAT_ENROLLED : RField := ⟨.GLB_ORB_STAT, 23, 14⟩
/-- ARRIVED, bits [13:4] of GLB_ORB_STAT. -/
def GLB_ORB_STAT_ARRIVED : RField := ⟨.GLB_ORB_STAT, 13, 4⟩
/-- STAGED, bits [3:3] of GLB_ORB_STAT. -/
def GLB_ORB_STAT_STAGED : RField := ⟨.GLB_ORB_STAT, 3, 3⟩
/-- IN_SWAP, bits [2:2] of GLB_ORB_STAT. -/
def GLB_ORB_STAT_IN_SWAP : RField := ⟨.GLB_ORB_STAT, 2, 2⟩
/-- OVERDUE, bits [1:1] of GLB_ORB_STAT. -/
def GLB_ORB_STAT_OVERDUE : RField := ⟨.GLB_ORB_STAT, 1, 1⟩
/-- IDLE, bits [0:0] of GLB_ORB_STAT. -/
def GLB_ORB_STAT_IDLE : RField := ⟨.GLB_ORB_STAT, 0, 0⟩
/-- FREEZE_CYCLE, bits [63:0] of GLB_ORB_TIME. -/
def GLB_ORB_TIME_FREEZE_CYCLE : RField := ⟨.GLB_ORB_TIME, 63, 0⟩
/-- HELD, bits [63:48] of GLB_ORB_PAUSE. -/
def GLB_ORB_PAUSE_HELD : RField := ⟨.GLB_ORB_PAUSE, 63, 48⟩
/-- LAST_PAUSE, bits [31:16] of GLB_ORB_PAUSE. -/
def GLB_ORB_PAUSE_LAST_PAUSE : RField := ⟨.GLB_ORB_PAUSE, 31, 16⟩
/-- MAX_PAUSE, bits [15:0] of GLB_ORB_PAUSE. -/
def GLB_ORB_PAUSE_MAX_PAUSE : RField := ⟨.GLB_ORB_PAUSE, 15, 0⟩
/-- COUNT, bits [63:0] of GLB_CYC. -/
def GLB_CYC_COUNT : RField := ⟨.GLB_CYC, 63, 0⟩
/-- SNAP, bits [1:1] of GLB_CYC_SNAP. -/
def GLB_CYC_SNAP_SNAP : RField := ⟨.GLB_CYC_SNAP, 1, 1⟩
/-- DONE, bits [0:0] of GLB_CYC_SNAP. -/
def GLB_CYC_SNAP_DONE : RField := ⟨.GLB_CYC_SNAP, 0, 0⟩
/-- COUNT, bits [63:0] of GLB_CYC_LATCH. -/
def GLB_CYC_LATCH_COUNT : RField := ⟨.GLB_CYC_LATCH, 63, 0⟩
/-- MODE, bits [63:62] of GLB_SHD_CTRL. -/
def GLB_SHD_CTRL_MODE : RField := ⟨.GLB_SHD_CTRL, 63, 62⟩
/-- PEER_PART, bits [55:52] of GLB_SHD_CTRL. -/
def GLB_SHD_CTRL_PEER_PART : RField := ⟨.GLB_SHD_CTRL, 55, 52⟩
/-- PEER_PBR, bits [43:32] of GLB_SHD_CTRL. -/
def GLB_SHD_CTRL_PEER_PBR : RField := ⟨.GLB_SHD_CTRL, 43, 32⟩
/-- LAG_MAX, bits [31:24] of GLB_SHD_CTRL. -/
def GLB_SHD_CTRL_LAG_MAX : RField := ⟨.GLB_SHD_CTRL, 31, 24⟩
/-- CLEAN_N, bits [15:0] of GLB_SHD_CTRL. -/
def GLB_SHD_CTRL_CLEAN_N : RField := ⟨.GLB_SHD_CTRL, 15, 0⟩
/-- STATE, bits [63:61] of GLB_SHD_STAT. -/
def GLB_SHD_STAT_STATE : RField := ⟨.GLB_SHD_STAT, 63, 61⟩
/-- CAUSE, bits [55:52] of GLB_SHD_STAT. -/
def GLB_SHD_STAT_CAUSE : RField := ⟨.GLB_SHD_STAT, 55, 52⟩
/-- CLEAN, bits [47:32] of GLB_SHD_STAT. -/
def GLB_SHD_STAT_CLEAN : RField := ⟨.GLB_SHD_STAT, 47, 32⟩
/-- LAG, bits [31:24] of GLB_SHD_STAT. -/
def GLB_SHD_STAT_LAG : RField := ⟨.GLB_SHD_STAT, 31, 24⟩
/-- BACKLOG_KIB, bits [23:0] of GLB_SHD_STAT. -/
def GLB_SHD_STAT_BACKLOG_KIB : RField := ⟨.GLB_SHD_STAT, 23, 0⟩
/-- MAN_SVN, bits [63:32] of PART_SEAL. -/
def PART_SEAL_MAN_SVN : RField := ⟨.PART_SEAL, 63, 32⟩
/-- OWNER_TOFU, bits [2:2] of PART_SEAL. -/
def PART_SEAL_OWNER_TOFU : RField := ⟨.PART_SEAL, 2, 2⟩
/-- RECOVERY, bits [1:1] of PART_SEAL. -/
def PART_SEAL_RECOVERY : RField := ⟨.PART_SEAL, 1, 1⟩
/-- SEALED, bits [0:0] of PART_SEAL. -/
def PART_SEAL_SEALED : RField := ⟨.PART_SEAL, 0, 0⟩
/-- CONTROL, bits [31:16] of PART_PRIV. -/
def PART_PRIV_CONTROL : RField := ⟨.PART_PRIV, 31, 16⟩
/-- MANAGEMENT, bits [1:1] of PART_PRIV. -/
def PART_PRIV_MANAGEMENT : RField := ⟨.PART_PRIV, 1, 1⟩
/-- TELEMETRY, bits [0:0] of PART_PRIV. -/
def PART_PRIV_TELEMETRY : RField := ⟨.PART_PRIV, 0, 0⟩
/-- VALID, bits [63:63] of PART_CFG_A. -/
def PART_CFG_A_VALID : RField := ⟨.PART_CFG_A, 63, 63⟩
/-- HBM_GIB, bits [62:54] of PART_CFG_A. -/
def PART_CFG_A_HBM_GIB : RField := ⟨.PART_CFG_A, 62, 54⟩
/-- MERGE_MIB, bits [53:47] of PART_CFG_A. -/
def PART_CFG_A_MERGE_MIB : RField := ⟨.PART_CFG_A, 53, 47⟩
/-- OBJ_QUOTA, bits [46:24] of PART_CFG_A. -/
def PART_CFG_A_OBJ_QUOTA : RField := ⟨.PART_CFG_A, 46, 24⟩
/-- TRAY_GIB, bits [21:0] of PART_CFG_A. -/
def PART_CFG_A_TRAY_GIB : RField := ⟨.PART_CFG_A, 21, 0⟩
/-- KS_COUNT, bits [43:32] of PART_CFG_B. -/
def PART_CFG_B_KS_COUNT : RField := ⟨.PART_CFG_B, 43, 32⟩
/-- KS_BASE, bits [26:16] of PART_CFG_B. -/
def PART_CFG_B_KS_BASE : RField := ⟨.PART_CFG_B, 26, 16⟩
/-- VALID, bits [63:63] of PART_PGRP. -/
def PART_PGRP_VALID : RField := ⟨.PART_PGRP, 63, 63⟩
/-- ROLE, bits [62:61] of PART_PGRP. -/
def PART_PGRP_ROLE : RField := ⟨.PART_PGRP, 62, 61⟩
/-- PBR_HI, bits [55:44] of PART_PGRP. -/
def PART_PGRP_PBR_HI : RField := ⟨.PART_PGRP, 55, 44⟩
/-- PBR_LO, bits [43:32] of PART_PGRP. -/
def PART_PGRP_PBR_LO : RField := ⟨.PART_PGRP, 43, 32⟩
/-- PORT_HI, bits [31:24] of PART_PGRP. -/
def PART_PGRP_PORT_HI : RField := ⟨.PART_PGRP, 31, 24⟩
/-- PORT_LO, bits [23:16] of PART_PGRP. -/
def PART_PGRP_PORT_LO : RField := ⟨.PART_PGRP, 23, 16⟩
/-- PARTS, bits [15:0] of PART_PGRP. -/
def PART_PGRP_PARTS : RField := ⟨.PART_PGRP, 15, 0⟩
/-- VALID, bits [63:63] of PART_WIN_A. -/
def PART_WIN_A_VALID : RField := ⟨.PART_WIN_A, 63, 63⟩
/-- PART, bits [55:52] of PART_WIN_A. -/
def PART_WIN_A_PART : RField := ⟨.PART_WIN_A, 55, 52⟩
/-- SRC_HI, bits [51:40] of PART_WIN_A. -/
def PART_WIN_A_SRC_HI : RField := ⟨.PART_WIN_A, 51, 40⟩
/-- SRC_LO, bits [39:28] of PART_WIN_A. -/
def PART_WIN_A_SRC_LO : RField := ⟨.PART_WIN_A, 39, 28⟩
/-- COH, bits [25:25] of PART_WIN_A. -/
def PART_WIN_A_COH : RField := ⟨.PART_WIN_A, 25, 25⟩
/-- WR, bits [24:24] of PART_WIN_A. -/
def PART_WIN_A_WR : RField := ⟨.PART_WIN_A, 24, 24⟩
/-- RD, bits [23:23] of PART_WIN_A. -/
def PART_WIN_A_RD : RField := ⟨.PART_WIN_A, 23, 23⟩
/-- BASE, bits [51:30] of PART_WIN_B. -/
def PART_WIN_B_BASE : RField := ⟨.PART_WIN_B, 51, 30⟩
/-- SIZE_GIB, bits [22:0] of PART_WIN_B. -/
def PART_WIN_B_SIZE_GIB : RField := ⟨.PART_WIN_B, 22, 0⟩
/-- WORD, bits [63:0] of QPDB_D. -/
def QPDB_D_WORD : RField := ⟨.QPDB_D, 63, 0⟩
/-- VALID, bits [63:63] of CTX_QP_A. -/
def CTX_QP_A_VALID : RField := ⟨.CTX_QP_A, 63, 63⟩
/-- DB_FABRIC, bits [62:62] of CTX_QP_A. -/
def CTX_QP_A_DB_FABRIC : RField := ⟨.CTX_QP_A, 62, 62⟩
/-- CQ_HOST, bits [61:61] of CTX_QP_A. -/
def CTX_QP_A_CQ_HOST : RField := ⟨.CTX_QP_A, 61, 61⟩
/-- PRIV, bits [60:56] of CTX_QP_A. -/
def CTX_QP_A_PRIV : RField := ⟨.CTX_QP_A, 60, 56⟩
/-- PART, bits [55:52] of CTX_QP_A. -/
def CTX_QP_A_PART : RField := ⟨.CTX_QP_A, 55, 52⟩
/-- SQ_LOG2, bits [51:48] of CTX_QP_A. -/
def CTX_QP_A_SQ_LOG2 : RField := ⟨.CTX_QP_A, 51, 48⟩
/-- CQ_LOG2, bits [47:44] of CTX_QP_A. -/
def CTX_QP_A_CQ_LOG2 : RField := ⟨.CTX_QP_A, 47, 44⟩
/-- CLASS, bits [38:36] of CTX_QP_A. -/
def CTX_QP_A_CLASS : RField := ⟨.CTX_QP_A, 38, 36⟩
/-- TENANT, bits [31:0] of CTX_QP_A. -/
def CTX_QP_A_TENANT : RField := ⟨.CTX_QP_A, 31, 0⟩
/-- CQ_BASE, bits [63:0] of CTX_QP_B. -/
def CTX_QP_B_CQ_BASE : RField := ⟨.CTX_QP_B, 63, 0⟩
/-- JOB, bits [63:32] of CTX_QP_C. -/
def CTX_QP_C_JOB : RField := ⟨.CTX_QP_C, 63, 32⟩
/-- CTX, bits [31:0] of CTX_QP_C. -/
def CTX_QP_C_CTX : RField := ⟨.CTX_QP_C, 31, 0⟩
/-- DROPPED, bits [63:48] of CTX_QP_STAT. -/
def CTX_QP_STAT_DROPPED : RField := ⟨.CTX_QP_STAT, 63, 48⟩
/-- GROUP, bits [36:27] of CTX_QP_STAT. -/
def CTX_QP_STAT_GROUP : RField := ⟨.CTX_QP_STAT, 36, 27⟩
/-- SQ_USED, bits [26:16] of CTX_QP_STAT. -/
def CTX_QP_STAT_SQ_USED : RField := ⟨.CTX_QP_STAT, 26, 16⟩
/-- CQ_FULL, bits [1:1] of CTX_QP_STAT. -/
def CTX_QP_STAT_CQ_FULL : RField := ⟨.CTX_QP_STAT, 1, 1⟩
/-- IN_SERVICE, bits [0:0] of CTX_QP_STAT. -/
def CTX_QP_STAT_IN_SERVICE : RField := ⟨.CTX_QP_STAT, 0, 0⟩
/-- VALID, bits [63:63] of CTX_STATE. -/
def CTX_STATE_VALID : RField := ⟨.CTX_STATE, 63, 63⟩
/-- STATE, bits [62:60] of CTX_STATE. -/
def CTX_STATE_STATE : RField := ⟨.CTX_STATE, 62, 60⟩
/-- PART, bits [59:56] of CTX_STATE. -/
def CTX_STATE_PART : RField := ⟨.CTX_STATE, 59, 56⟩
/-- GEN, bits [43:28] of CTX_STATE. -/
def CTX_STATE_GEN : RField := ⟨.CTX_STATE, 43, 28⟩
/-- ENROLL, bits [27:27] of CTX_STATE. -/
def CTX_STATE_ENROLL : RField := ⟨.CTX_STATE, 27, 27⟩
/-- STAY, bits [26:26] of CTX_STATE. -/
def CTX_STATE_STAY : RField := ⟨.CTX_STATE, 26, 26⟩
/-- QP, bits [25:13] of CTX_STATE. -/
def CTX_STATE_QP : RField := ⟨.CTX_STATE, 25, 13⟩
/-- CTX_QUOTA, bits [44:32] of CTX_PART_CFG. -/
def CTX_PART_CFG_CTX_QUOTA : RField := ⟨.CTX_PART_CFG, 44, 32⟩
/-- RES_SLOTS, bits [25:16] of CTX_PART_CFG. -/
def CTX_PART_CFG_RES_SLOTS : RField := ⟨.CTX_PART_CFG, 25, 16⟩
/-- QUANTUM, bits [15:0] of CTX_PART_CFG. -/
def CTX_PART_CFG_QUANTUM : RField := ⟨.CTX_PART_CFG, 15, 0⟩
/-- FAULTS, bits [63:48] of CTX_PART_STAT. -/
def CTX_PART_STAT_FAULTS : RField := ⟨.CTX_PART_STAT, 63, 48⟩
/-- WAITING, bits [47:32] of CTX_PART_STAT. -/
def CTX_PART_STAT_WAITING : RField := ⟨.CTX_PART_STAT, 47, 32⟩
/-- TRACKED, bits [28:16] of CTX_PART_STAT. -/
def CTX_PART_STAT_TRACKED : RField := ⟨.CTX_PART_STAT, 28, 16⟩
/-- RESIDENT, bits [9:0] of CTX_PART_STAT. -/
def CTX_PART_STAT_RESIDENT : RField := ⟨.CTX_PART_STAT, 9, 0⟩
/-- FAULT_MAX, bits [63:48] of CTX_CFG. -/
def CTX_CFG_FAULT_MAX : RField := ⟨.CTX_CFG, 63, 48⟩
/-- OWN_T, bits [31:0] of CTX_CFG. -/
def CTX_CFG_OWN_T : RField := ⟨.CTX_CFG, 31, 0⟩
/-- MIX_T, bits [63:48] of XBAR_CFG. -/
def XBAR_CFG_MIX_T : RField := ⟨.XBAR_CFG, 63, 48⟩
/-- RET_FREE, bits [43:32] of XBAR_CFG. -/
def XBAR_CFG_RET_FREE : RField := ⟨.XBAR_CFG, 43, 32⟩
/-- PUSH_FREE, bits [27:16] of XBAR_CFG. -/
def XBAR_CFG_PUSH_FREE : RField := ⟨.XBAR_CFG, 27, 16⟩
/-- PUSH_EN, bits [0:0] of XBAR_CFG. -/
def XBAR_CFG_PUSH_EN : RField := ⟨.XBAR_CFG, 0, 0⟩
/-- FULL_EVT, bits [63:48] of XBAR_SPILL_STAT. -/
def XBAR_SPILL_STAT_FULL_EVT : RField := ⟨.XBAR_SPILL_STAT, 63, 48⟩
/-- HIGH_WATER, bits [42:22] of XBAR_SPILL_STAT. -/
def XBAR_SPILL_STAT_HIGH_WATER : RField := ⟨.XBAR_SPILL_STAT, 42, 22⟩
/-- ALARM, bits [21:21] of XBAR_SPILL_STAT. -/
def XBAR_SPILL_STAT_ALARM : RField := ⟨.XBAR_SPILL_STAT, 21, 21⟩
/-- USED, bits [20:0] of XBAR_SPILL_STAT. -/
def XBAR_SPILL_STAT_USED : RField := ⟨.XBAR_SPILL_STAT, 20, 0⟩
/-- WAITS, bits [63:48] of XBAR_TAG_STAT. -/
def XBAR_TAG_STAT_WAITS : RField := ⟨.XBAR_TAG_STAT, 63, 48⟩
/-- MIN_SUM, bits [33:17] of XBAR_TAG_STAT. -/
def XBAR_TAG_STAT_MIN_SUM : RField := ⟨.XBAR_TAG_STAT, 33, 17⟩
/-- IN_USE, bits [16:0] of XBAR_TAG_STAT. -/
def XBAR_TAG_STAT_IN_USE : RField := ⟨.XBAR_TAG_STAT, 16, 0⟩
/-- QUOTA, bits [20:0] of XBAR_SPILL_CTRL. -/
def XBAR_SPILL_CTRL_QUOTA : RField := ⟨.XBAR_SPILL_CTRL, 20, 0⟩
/-- MERGE_USED, bits [49:32] of XBAR_QUAD_OCC. -/
def XBAR_QUAD_OCC_MERGE_USED : RField := ⟨.XBAR_QUAD_OCC, 49, 32⟩
/-- QUEUE_USED, bits [17:0] of XBAR_QUAD_OCC. -/
def XBAR_QUAD_OCC_QUEUE_USED : RField := ⟨.XBAR_QUAD_OCC, 17, 0⟩
/-- SPILL_CHUNKS, bits [52:32] of XBAR_PORT_OCC. -/
def XBAR_PORT_OCC_SPILL_CHUNKS : RField := ⟨.XBAR_PORT_OCC, 52, 32⟩
/-- TOP_VALID, bits [31:31] of XBAR_PORT_OCC. -/
def XBAR_PORT_OCC_TOP_VALID : RField := ⟨.XBAR_PORT_OCC, 31, 31⟩
/-- TOP_CLASS, bits [30:28] of XBAR_PORT_OCC. -/
def XBAR_PORT_OCC_TOP_CLASS : RField := ⟨.XBAR_PORT_OCC, 30, 28⟩
/-- RSP_USED, bits [21:12] of XBAR_PORT_OCC. -/
def XBAR_PORT_OCC_RSP_USED : RField := ⟨.XBAR_PORT_OCC, 21, 12⟩
/-- REQ_USED, bits [11:0] of XBAR_PORT_OCC. -/
def XBAR_PORT_OCC_REQ_USED : RField := ⟨.XBAR_PORT_OCC, 11, 0⟩
/-- PUSHED, bits [63:48] of XBAR_PORT_EVT. -/
def XBAR_PORT_EVT_PUSHED : RField := ⟨.XBAR_PORT_EVT, 63, 48⟩
/-- RETURNED, bits [47:32] of XBAR_PORT_EVT. -/
def XBAR_PORT_EVT_RETURNED : RField := ⟨.XBAR_PORT_EVT, 47, 32⟩
/-- SKIPPED, bits [31:16] of XBAR_PORT_EVT. -/
def XBAR_PORT_EVT_SKIPPED : RField := ⟨.XBAR_PORT_EVT, 31, 16⟩
/-- STALLED, bits [15:0] of XBAR_PORT_EVT. -/
def XBAR_PORT_EVT_STALLED : RField := ⟨.XBAR_PORT_EVT, 15, 0⟩
/-- IN_USE, bits [62:46] of XBAR_TAG_BUDGET. -/
def XBAR_TAG_BUDGET_IN_USE : RField := ⟨.XBAR_TAG_BUDGET, 62, 46⟩
/-- TAG_MAX, bits [45:29] of XBAR_TAG_BUDGET. -/
def XBAR_TAG_BUDGET_TAG_MAX : RField := ⟨.XBAR_TAG_BUDGET, 45, 29⟩
/-- TAG_MIN, bits [16:0] of XBAR_TAG_BUDGET. -/
def XBAR_TAG_BUDGET_TAG_MIN : RField := ⟨.XBAR_TAG_BUDGET, 16, 0⟩
/-- BI_TIMEOUT, bits [63:32] of XBAR_FAB_CTRL. -/
def XBAR_FAB_CTRL_BI_TIMEOUT : RField := ⟨.XBAR_FAB_CTRL, 63, 32⟩
/-- COOL, bits [31:16] of XBAR_FAB_CTRL. -/
def XBAR_FAB_CTRL_COOL : RField := ⟨.XBAR_FAB_CTRL, 31, 16⟩
/-- ENTER, bits [7:0] of XBAR_FAB_CTRL. -/
def XBAR_FAB_CTRL_ENTER : RField := ⟨.XBAR_FAB_CTRL, 7, 0⟩
/-- SPID, bits [63:48] of XBAR_FAB_REFUSE. -/
def XBAR_FAB_REFUSE_SPID : RField := ⟨.XBAR_FAB_REFUSE, 63, 48⟩
/-- WINDOW, bits [47:32] of XBAR_FAB_REFUSE. -/
def XBAR_FAB_REFUSE_WINDOW : RField := ⟨.XBAR_FAB_REFUSE, 47, 32⟩
/-- APERTURE, bits [31:16] of XBAR_FAB_REFUSE. -/
def XBAR_FAB_REFUSE_APERTURE : RField := ⟨.XBAR_FAB_REFUSE, 31, 16⟩
/-- FOREIGN, bits [15:0] of XBAR_FAB_REFUSE. -/
def XBAR_FAB_REFUSE_FOREIGN : RField := ⟨.XBAR_FAB_REFUSE, 15, 0⟩
/-- APPLIED, bits [63:32] of XBAR_COMB_STAT. -/
def XBAR_COMB_STAT_APPLIED : RField := ⟨.XBAR_COMB_STAT, 63, 32⟩
/-- FULL_EVT, bits [31:16] of XBAR_COMB_STAT. -/
def XBAR_COMB_STAT_FULL_EVT : RField := ⟨.XBAR_COMB_STAT, 31, 16⟩
/-- HOT_NOW, bits [10:0] of XBAR_COMB_STAT. -/
def XBAR_COMB_STAT_HOT_NOW : RField := ⟨.XBAR_COMB_STAT, 10, 0⟩
/-- DIR_USED, bits [63:43] of XBAR_BI_STAT. -/
def XBAR_BI_STAT_DIR_USED : RField := ⟨.XBAR_BI_STAT, 63, 43⟩
/-- VICTIMS, bits [31:16] of XBAR_BI_STAT. -/
def XBAR_BI_STAT_VICTIMS : RField := ⟨.XBAR_BI_STAT, 31, 16⟩
/-- ORPHANED, bits [15:0] of XBAR_BI_STAT. -/
def XBAR_BI_STAT_ORPHANED : RField := ⟨.XBAR_BI_STAT, 15, 0⟩
/-- WEIGHT, bits [15:0] of SCHED_PART_WT. -/
def SCHED_PART_WT_WEIGHT : RField := ⟨.SCHED_PART_WT, 15, 0⟩
/-- WEIGHT, bits [15:0] of SCHED_DEV_WT. -/
def SCHED_DEV_WT_WEIGHT : RField := ⟨.SCHED_DEV_WT, 15, 0⟩
/-- GROUPS, bits [63:0] of SCHED_CARVE_CH. -/
def SCHED_CARVE_CH_GROUPS : RField := ⟨.SCHED_CARVE_CH, 63, 0⟩
/-- BANKS, bits [31:0] of SCHED_CARVE_SP. -/
def SCHED_CARVE_SP_BANKS : RField := ⟨.SCHED_CARVE_SP, 31, 0⟩
/-- OVH_MUL, bits [31:16] of SCHED_PORT_OVH. -/
def SCHED_PORT_OVH_OVH_MUL : RField := ⟨.SCHED_PORT_OVH, 31, 16⟩
/-- OVH_FIX, bits [7:0] of SCHED_PORT_OVH. -/
def SCHED_PORT_OVH_OVH_FIX : RField := ⟨.SCHED_PORT_OVH, 7, 0⟩
/-- TENANT, bits [63:32] of SCHED_ACCT. -/
def SCHED_ACCT_TENANT : RField := ⟨.SCHED_ACCT, 63, 32⟩
/-- WEIGHT, bits [31:16] of SCHED_ACCT. -/
def SCHED_ACCT_WEIGHT : RField := ⟨.SCHED_ACCT, 31, 16⟩
/-- VALID, bits [0:0] of SCHED_ACCT. -/
def SCHED_ACCT_VALID : RField := ⟨.SCHED_ACCT, 0, 0⟩
/-- RATE_MBS, bits [63:40] of SCHED_BKT. -/
def SCHED_BKT_RATE_MBS : RField := ⟨.SCHED_BKT, 63, 40⟩
/-- BURST_KIB, bits [15:0] of SCHED_BKT. -/
def SCHED_BKT_BURST_KIB : RField := ⟨.SCHED_BKT, 15, 0⟩
/-- DEFERRED, bits [63:48] of SCHED_ACCT_STAT. -/
def SCHED_ACCT_STAT_DEFERRED : RField := ⟨.SCHED_ACCT_STAT, 63, 48⟩
/-- CHARGED, bits [47:0] of SCHED_ACCT_STAT. -/
def SCHED_ACCT_STAT_CHARGED : RField := ⟨.SCHED_ACCT_STAT, 47, 0⟩
/-- SDI, bits [63:48] of SCHED_CTX_SDI. -/
def SCHED_CTX_SDI_SDI : RField := ⟨.SCHED_CTX_SDI, 63, 48⟩
/-- PEAK, bits [47:32] of SCHED_CTX_SDI. -/
def SCHED_CTX_SDI_PEAK : RField := ⟨.SCHED_CTX_SDI, 47, 32⟩
/-- ORBIT, bits [31:0] of SCHED_CTX_SDI. -/
def SCHED_CTX_SDI_ORBIT : RField := ⟨.SCHED_CTX_SDI, 31, 0⟩
/-- ISSUE_K, bits [62:42] of SCHED_CTX_ENG. -/
def SCHED_CTX_ENG_ISSUE_K : RField := ⟨.SCHED_CTX_ENG, 62, 42⟩
/-- LAU_K, bits [41:21] of SCHED_CTX_ENG. -/
def SCHED_CTX_ENG_LAU_K : RField := ⟨.SCHED_CTX_ENG, 41, 21⟩
/-- MAC_K, bits [20:0] of SCHED_CTX_ENG. -/
def SCHED_CTX_ENG_MAC_K : RField := ⟨.SCHED_CTX_ENG, 20, 0⟩
/-- WIN_LOG2, bits [55:48] of PLACE_IMBAL_CTRL. -/
def PLACE_IMBAL_CTRL_WIN_LOG2 : RField := ⟨.PLACE_IMBAL_CTRL, 55, 48⟩
/-- HOLD, bits [47:32] of PLACE_IMBAL_CTRL. -/
def PLACE_IMBAL_CTRL_HOLD : RField := ⟨.PLACE_IMBAL_CTRL, 47, 32⟩
/-- RATIO, bits [31:24] of PLACE_IMBAL_CTRL. -/
def PLACE_IMBAL_CTRL_RATIO : RField := ⟨.PLACE_IMBAL_CTRL, 31, 24⟩
/-- MAXMOVE, bits [23:20] of PLACE_IMBAL_CTRL. -/
def PLACE_IMBAL_CTRL_MAXMOVE : RField := ⟨.PLACE_IMBAL_CTRL, 23, 20⟩
/-- MINLOAD_LOG2, bits [15:8] of PLACE_IMBAL_CTRL. -/
def PLACE_IMBAL_CTRL_MINLOAD_LOG2 : RField := ⟨.PLACE_IMBAL_CTRL, 15, 8⟩
/-- ENABLE, bits [0:0] of PLACE_IMBAL_CTRL. -/
def PLACE_IMBAL_CTRL_ENABLE : RField := ⟨.PLACE_IMBAL_CTRL, 0, 0⟩
/-- NOROOM, bits [63:48] of PLACE_IMBAL_STAT. -/
def PLACE_IMBAL_STAT_NOROOM : RField := ⟨.PLACE_IMBAL_STAT, 63, 48⟩
/-- NARROW, bits [47:32] of PLACE_IMBAL_STAT. -/
def PLACE_IMBAL_STAT_NARROW : RField := ⟨.PLACE_IMBAL_STAT, 47, 32⟩
/-- TRIGGERS, bits [31:16] of PLACE_IMBAL_STAT. -/
def PLACE_IMBAL_STAT_TRIGGERS : RField := ⟨.PLACE_IMBAL_STAT, 31, 16⟩
/-- HOT_CHANS, bits [9:0] of PLACE_IMBAL_STAT. -/
def PLACE_IMBAL_STAT_HOT_CHANS : RField := ⟨.PLACE_IMBAL_STAT, 9, 0⟩
/-- MOVE_RATE, bits [7:0] of PLACE_MOVE_CTRL. -/
def PLACE_MOVE_CTRL_MOVE_RATE : RField := ⟨.PLACE_MOVE_CTRL, 7, 0⟩
/-- FAIL_T, bits [63:32] of PLACE_TIER1_T. -/
def PLACE_TIER1_T_FAIL_T : RField := ⟨.PLACE_TIER1_T, 63, 32⟩
/-- LATE_T, bits [31:0] of PLACE_TIER1_T. -/
def PLACE_TIER1_T_LATE_T : RField := ⟨.PLACE_TIER1_T, 31, 0⟩
/-- FAIL_T, bits [63:32] of PLACE_TIER2_T. -/
def PLACE_TIER2_T_FAIL_T : RField := ⟨.PLACE_TIER2_T, 63, 32⟩
/-- LATE_T, bits [31:0] of PLACE_TIER2_T. -/
def PLACE_TIER2_T_LATE_T : RField := ⟨.PLACE_TIER2_T, 31, 0⟩
/-- AGE_MAX, bits [63:32] of PLACE_AGE. -/
def PLACE_AGE_AGE_MAX : RField := ⟨.PLACE_AGE, 63, 32⟩
/-- AGE_MIN, bits [31:0] of PLACE_AGE. -/
def PLACE_AGE_AGE_MIN : RField := ⟨.PLACE_AGE, 31, 0⟩
/-- CARVE_GIB, bits [63:48] of PLACE_HBM_USE. -/
def PLACE_HBM_USE_CARVE_GIB : RField := ⟨.PLACE_HBM_USE, 63, 48⟩
/-- PINNED_GIB, bits [47:32] of PLACE_HBM_USE. -/
def PLACE_HBM_USE_PINNED_GIB : RField := ⟨.PLACE_HBM_USE, 47, 32⟩
/-- CACHED_GIB, bits [31:16] of PLACE_HBM_USE. -/
def PLACE_HBM_USE_CACHED_GIB : RField := ⟨.PLACE_HBM_USE, 31, 16⟩
/-- CARVE_GIB, bits [63:32] of PLACE_TRAY_USE. -/
def PLACE_TRAY_USE_CARVE_GIB : RField := ⟨.PLACE_TRAY_USE, 63, 32⟩
/-- USED_GIB, bits [31:0] of PLACE_TRAY_USE. -/
def PLACE_TRAY_USE_USED_GIB : RField := ⟨.PLACE_TRAY_USE, 31, 0⟩
/-- LATE, bits [63:48] of PLACE_EVT. -/
def PLACE_EVT_LATE : RField := ⟨.PLACE_EVT, 63, 48⟩
/-- FAIL, bits [47:32] of PLACE_EVT. -/
def PLACE_EVT_FAIL : RField := ⟨.PLACE_EVT, 47, 32⟩
/-- FINAL, bits [31:16] of PLACE_EVT. -/
def PLACE_EVT_FINAL : RField := ⟨.PLACE_EVT, 31, 16⟩
/-- STEEP_MISS, bits [15:0] of PLACE_EVT. -/
def PLACE_EVT_STEEP_MISS : RField := ⟨.PLACE_EVT, 15, 0⟩
/-- REQUESTS, bits [63:32] of PLACE_CHAN_LOAD. -/
def PLACE_CHAN_LOAD_REQUESTS : RField := ⟨.PLACE_CHAN_LOAD, 63, 32⟩
/-- HOT_RUN, bits [31:16] of PLACE_CHAN_LOAD. -/
def PLACE_CHAN_LOAD_HOT_RUN : RField := ⟨.PLACE_CHAN_LOAD, 31, 16⟩
/-- REQUESTS, bits [63:32] of PLACE_TRAY_LOAD. -/
def PLACE_TRAY_LOAD_REQUESTS : RField := ⟨.PLACE_TRAY_LOAD, 63, 32⟩
/-- HOT_RUN, bits [31:16] of PLACE_TRAY_LOAD. -/
def PLACE_TRAY_LOAD_HOT_RUN : RField := ⟨.PLACE_TRAY_LOAD, 31, 16⟩
/-- PERIOD_H, bits [15:0] of NME_SCRUB_CTRL. -/
def NME_SCRUB_CTRL_PERIOD_H : RField := ⟨.NME_SCRUB_CTRL, 15, 0⟩
/-- CORRECTED, bits [63:32] of NME_ECC. -/
def NME_ECC_CORRECTED : RField := ⟨.NME_ECC, 63, 32⟩
/-- UNCORRECTED, bits [31:0] of NME_ECC. -/
def NME_ECC_UNCORRECTED : RField := ⟨.NME_ECC, 31, 0⟩
/-- EXPEL_AT, bits [55:48] of PLACE_MIR_CTRL. -/
def PLACE_MIR_CTRL_EXPEL_AT : RField := ⟨.PLACE_MIR_CTRL, 55, 48⟩
/-- PROMOTE_N, bits [31:24] of PLACE_MIR_CTRL. -/
def PLACE_MIR_CTRL_PROMOTE_N : RField := ⟨.PLACE_MIR_CTRL, 31, 24⟩
/-- CHECK_LOG2, bits [23:16] of PLACE_MIR_CTRL. -/
def PLACE_MIR_CTRL_CHECK_LOG2 : RField := ⟨.PLACE_MIR_CTRL, 23, 16⟩
/-- REBUILD_RATE, bits [7:0] of PLACE_MIR_CTRL. -/
def PLACE_MIR_CTRL_REBUILD_RATE : RField := ⟨.PLACE_MIR_CTRL, 7, 0⟩
/-- HOLD, bits [63:63] of PLACE_MIR_STAT. -/
def PLACE_MIR_STAT_HOLD : RField := ⟨.PLACE_MIR_STAT, 63, 63⟩
/-- SPARES, bits [60:56] of PLACE_MIR_STAT. -/
def PLACE_MIR_STAT_SPARES : RField := ⟨.PLACE_MIR_STAT, 60, 56⟩
/-- EXPULSIONS, bits [55:40] of PLACE_MIR_STAT. -/
def PLACE_MIR_STAT_EXPULSIONS : RField := ⟨.PLACE_MIR_STAT, 55, 40⟩
/-- FAILOUTS, bits [39:24] of PLACE_MIR_STAT. -/
def PLACE_MIR_STAT_FAILOUTS : RField := ⟨.PLACE_MIR_STAT, 39, 24⟩
/-- LOST_G, bits [23:0] of PLACE_MIR_STAT. -/
def PLACE_MIR_STAT_LOST_G : RField := ⟨.PLACE_MIR_STAT, 23, 0⟩
/-- PAIR, bits [63:63] of PLACE_TRAY_CTRL. -/
def PLACE_TRAY_CTRL_PAIR : RField := ⟨.PLACE_TRAY_CTRL, 63, 63⟩
/-- EXPEL, bits [62:62] of PLACE_TRAY_CTRL. -/
def PLACE_TRAY_CTRL_EXPEL : RField := ⟨.PLACE_TRAY_CTRL, 62, 62⟩
/-- PARTNER, bits [52:48] of PLACE_TRAY_CTRL. -/
def PLACE_TRAY_CTRL_PARTNER : RField := ⟨.PLACE_TRAY_CTRL, 52, 48⟩
/-- STATE, bits [63:61] of PLACE_TRAY_STAT. -/
def PLACE_TRAY_STAT_STATE : RField := ⟨.PLACE_TRAY_STAT, 63, 61⟩
/-- PAIR, bits [59:56] of PLACE_TRAY_STAT. -/
def PLACE_TRAY_STAT_PAIR : RField := ⟨.PLACE_TRAY_STAT, 59, 56⟩
/-- HEALTH, bits [55:48] of PLACE_TRAY_STAT. -/
def PLACE_TRAY_STAT_HEALTH : RField := ⟨.PLACE_TRAY_STAT, 55, 48⟩
/-- CLEAN, bits [47:40] of PLACE_TRAY_STAT. -/
def PLACE_TRAY_STAT_CLEAN : RField := ⟨.PLACE_TRAY_STAT, 47, 40⟩
/-- CAP_GIB, bits [31:0] of PLACE_TRAY_STAT. -/
def PLACE_TRAY_STAT_CAP_GIB : RField := ⟨.PLACE_TRAY_STAT, 31, 0⟩
/-- STATE, bits [63:61] of PLACE_PAIR_STAT. -/
def PLACE_PAIR_STAT_STATE : RField := ⟨.PLACE_PAIR_STAT, 63, 61⟩
/-- MEMBER_A, bits [60:56] of PLACE_PAIR_STAT. -/
def PLACE_PAIR_STAT_MEMBER_A : RField := ⟨.PLACE_PAIR_STAT, 60, 56⟩
/-- MEMBER_B, bits [52:48] of PLACE_PAIR_STAT. -/
def PLACE_PAIR_STAT_MEMBER_B : RField := ⟨.PLACE_PAIR_STAT, 52, 48⟩
/-- NEW, bits [44:40] of PLACE_PAIR_STAT. -/
def PLACE_PAIR_STAT_NEW : RField := ⟨.PLACE_PAIR_STAT, 44, 40⟩
/-- COPIED_GIB, bits [31:0] of PLACE_PAIR_STAT. -/
def PLACE_PAIR_STAT_COPIED_GIB : RField := ⟨.PLACE_PAIR_STAT, 31, 0⟩
/-- LOG, bits [63:0] of PLACE_LOSS_LOG. -/
def PLACE_LOSS_LOG_LOG : RField := ⟨.PLACE_LOSS_LOG, 63, 0⟩
/-- STRAND_HELD, bits [23:16] of MOON_STAT. -/
def MOON_STAT_STRAND_HELD : RField := ⟨.MOON_STAT, 23, 16⟩
/-- STRAND_OCC, bits [15:8] of MOON_STAT. -/
def MOON_STAT_STRAND_OCC : RField := ⟨.MOON_STAT, 15, 8⟩
/-- IN_SERVICE, bits [0:0] of MOON_STAT. -/
def MOON_STAT_IN_SERVICE : RField := ⟨.MOON_STAT, 0, 0⟩
/-- COUNT, bits [63:0] of MOON_CYC. -/
def MOON_CYC_COUNT : RField := ⟨.MOON_CYC, 63, 0⟩
/-- BLOCKS, bits [63:0] of MOON_EXP_CODED. -/
def MOON_EXP_CODED_BLOCKS : RField := ⟨.MOON_EXP_CODED, 63, 0⟩
/-- BLOCKS, bits [63:0] of MOON_EXP_RAW. -/
def MOON_EXP_RAW_BLOCKS : RField := ⟨.MOON_EXP_RAW, 63, 0⟩
/-- CB_LOADS, bits [63:32] of MOON_EXP_LOADS. -/
def MOON_EXP_LOADS_CB_LOADS : RField := ⟨.MOON_EXP_LOADS, 63, 32⟩
/-- SIT_MISSES, bits [31:0] of MOON_EXP_LOADS. -/
def MOON_EXP_LOADS_SIT_MISSES : RField := ⟨.MOON_EXP_LOADS, 31, 0⟩
/-- SLOTS_HELD, bits [13:8] of MOON_EXP_OCC. -/
def MOON_EXP_OCC_SLOTS_HELD : RField := ⟨.MOON_EXP_OCC, 13, 8⟩
/-- STREAMS, bits [2:0] of MOON_EXP_OCC. -/
def MOON_EXP_OCC_STREAMS : RField := ⟨.MOON_EXP_OCC, 2, 0⟩
/-- ROLE, bits [7:6] of LINK_PORT_CFG. -/
def LINK_PORT_CFG_ROLE : RField := ⟨.LINK_PORT_CFG, 7, 6⟩
/-- WIDTH, bits [3:2] of LINK_PORT_CFG. -/
def LINK_PORT_CFG_WIDTH : RField := ⟨.LINK_PORT_CFG, 3, 2⟩
/-- FALLBACK, bits [1:1] of LINK_PORT_CFG. -/
def LINK_PORT_CFG_FALLBACK : RField := ⟨.LINK_PORT_CFG, 1, 1⟩
/-- HOME, bits [0:0] of LINK_PORT_CFG. -/
def LINK_PORT_CFG_HOME : RField := ⟨.LINK_PORT_CFG, 0, 0⟩
/-- PSTATE_REQ, bits [9:8] of LINK_PORT_CTRL. -/
def LINK_PORT_CTRL_PSTATE_REQ : RField := ⟨.LINK_PORT_CTRL, 9, 8⟩
/-- RETRAIN, bits [0:0] of LINK_PORT_CTRL. -/
def LINK_PORT_CTRL_RETRAIN : RField := ⟨.LINK_PORT_CTRL, 0, 0⟩
/-- LAST_CAUSE, bits [55:48] of LINK_PORT_STAT. -/
def LINK_PORT_STAT_LAST_CAUSE : RField := ⟨.LINK_PORT_STAT, 55, 48⟩
/-- LANE_LOCK, bits [47:32] of LINK_PORT_STAT. -/
def LINK_PORT_STAT_LANE_LOCK : RField := ⟨.LINK_PORT_STAT, 47, 32⟩
/-- PSTATE, bits [11:10] of LINK_PORT_STAT. -/
def LINK_PORT_STAT_PSTATE : RField := ⟨.LINK_PORT_STAT, 11, 10⟩
/-- TRAINED_W, bits [9:8] of LINK_PORT_STAT. -/
def LINK_PORT_STAT_TRAINED_W : RField := ⟨.LINK_PORT_STAT, 9, 8⟩
/-- LOST, bits [4:4] of LINK_PORT_STAT. -/
def LINK_PORT_STAT_LOST : RField := ⟨.LINK_PORT_STAT, 4, 4⟩
/-- STATE, bits [3:0] of LINK_PORT_STAT. -/
def LINK_PORT_STAT_STATE : RField := ⟨.LINK_PORT_STAT, 3, 0⟩
/-- UNCORR, bits [63:48] of LINK_PORT_ERR. -/
def LINK_PORT_ERR_UNCORR : RField := ⟨.LINK_PORT_ERR, 63, 48⟩
/-- CRC_FAIL, bits [47:32] of LINK_PORT_ERR. -/
def LINK_PORT_ERR_CRC_FAIL : RField := ⟨.LINK_PORT_ERR, 47, 32⟩
/-- RETRAINS, bits [31:16] of LINK_PORT_ERR. -/
def LINK_PORT_ERR_RETRAINS : RField := ⟨.LINK_PORT_ERR, 31, 16⟩
/-- LOSSES, bits [15:0] of LINK_PORT_ERR. -/
def LINK_PORT_ERR_LOSSES : RField := ⟨.LINK_PORT_ERR, 15, 0⟩
/-- CORR_SYM, bits [63:32] of LINK_LANE_MARGIN. -/
def LINK_LANE_MARGIN_CORR_SYM : RField := ⟨.LINK_LANE_MARGIN, 63, 32⟩
/-- RX_UW, bits [31:20] of LINK_LANE_MARGIN. -/
def LINK_LANE_MARGIN_RX_UW : RField := ⟨.LINK_LANE_MARGIN, 31, 20⟩
/-- SNR, bits [19:10] of LINK_LANE_MARGIN. -/
def LINK_LANE_MARGIN_SNR : RField := ⟨.LINK_LANE_MARGIN, 19, 10⟩
/-- LOCK, bits [0:0] of LINK_LANE_MARGIN. -/
def LINK_LANE_MARGIN_LOCK : RField := ⟨.LINK_LANE_MARGIN, 0, 0⟩
/-- LASER_A, bits [63:48] of LINK_OE_STAT. -/
def LINK_OE_STAT_LASER_A : RField := ⟨.LINK_OE_STAT, 63, 48⟩
/-- LASER_B, bits [47:32] of LINK_OE_STAT. -/
def LINK_OE_STAT_LASER_B : RField := ⟨.LINK_OE_STAT, 47, 32⟩
/-- TEMP, bits [31:24] of LINK_OE_STAT. -/
def LINK_OE_STAT_TEMP : RField := ⟨.LINK_OE_STAT, 31, 24⟩
/-- FAULT, bits [23:16] of LINK_OE_STAT. -/
def LINK_OE_STAT_FAULT : RField := ⟨.LINK_OE_STAT, 23, 16⟩
/-- IN_SERVICE, bits [0:0] of LINK_OE_STAT. -/
def LINK_OE_STAT_IN_SERVICE : RField := ⟨.LINK_OE_STAT, 0, 0⟩
/-- RETRAIN_T, bits [63:48] of LINK_CFG. -/
def LINK_CFG_RETRAIN_T : RField := ⟨.LINK_CFG, 63, 48⟩
/-- IDLE_T, bits [47:32] of LINK_CFG. -/
def LINK_CFG_IDLE_T : RField := ⟨.LINK_CFG, 47, 32⟩
/-- UNC_MAX, bits [31:16] of LINK_CFG. -/
def LINK_CFG_UNC_MAX : RField := ⟨.LINK_CFG, 31, 16⟩
/-- LASER_MIN, bits [15:8] of LINK_CFG. -/
def LINK_CFG_LASER_MIN : RField := ⟨.LINK_CFG, 15, 8⟩
/-- ROLLOVERS, bits [63:48] of LINK_IDE_STAT. -/
def LINK_IDE_STAT_ROLLOVERS : RField := ⟨.LINK_IDE_STAT, 63, 48⟩
/-- MAC_FAILS, bits [47:32] of LINK_IDE_STAT. -/
def LINK_IDE_STAT_MAC_FAILS : RField := ⟨.LINK_IDE_STAT, 47, 32⟩
/-- DISCARDS, bits [31:16] of LINK_IDE_STAT. -/
def LINK_IDE_STAT_DISCARDS : RField := ⟨.LINK_IDE_STAT, 31, 16⟩
/-- KEYSET, bits [4:4] of LINK_IDE_STAT. -/
def LINK_IDE_STAT_KEYSET : RField := ⟨.LINK_IDE_STAT, 4, 4⟩
/-- REQUESTER, bits [3:3] of LINK_IDE_STAT. -/
def LINK_IDE_STAT_REQUESTER : RField := ⟨.LINK_IDE_STAT, 3, 3⟩
/-- STATE, bits [2:0] of LINK_IDE_STAT. -/
def LINK_IDE_STAT_STATE : RField := ⟨.LINK_IDE_STAT, 2, 0⟩
/-- OMITTED, bits [63:48] of LINK_PILOT_STAT. -/
def LINK_PILOT_STAT_OMITTED : RField := ⟨.LINK_PILOT_STAT, 63, 48⟩
/-- IDE_STATE, bits [10:8] of LINK_PILOT_STAT. -/
def LINK_PILOT_STAT_IDE_STATE : RField := ⟨.LINK_PILOT_STAT, 10, 8⟩
/-- RATE, bits [5:4] of LINK_PILOT_STAT. -/
def LINK_PILOT_STAT_RATE : RField := ⟨.LINK_PILOT_STAT, 5, 4⟩
/-- WIDTH, bits [3:2] of LINK_PILOT_STAT. -/
def LINK_PILOT_STAT_WIDTH : RField := ⟨.LINK_PILOT_STAT, 3, 2⟩
/-- DEGRADED, bits [1:1] of LINK_PILOT_STAT. -/
def LINK_PILOT_STAT_DEGRADED : RField := ⟨.LINK_PILOT_STAT, 1, 1⟩
/-- CXL_UP, bits [0:0] of LINK_PILOT_STAT. -/
def LINK_PILOT_STAT_CXL_UP : RField := ⟨.LINK_PILOT_STAT, 0, 0⟩
/-- HEALTH, bits [7:0] of LINK_PORT_HEALTH. -/
def LINK_PORT_HEALTH_HEALTH : RField := ⟨.LINK_PORT_HEALTH, 7, 0⟩
/-- FW_SVN, bits [63:32] of SEC_BOOT_STAT. -/
def SEC_BOOT_STAT_FW_SVN : RField := ⟨.SEC_BOOT_STAT, 63, 32⟩
/-- CAUSE, bits [15:8] of SEC_BOOT_STAT. -/
def SEC_BOOT_STAT_CAUSE : RField := ⟨.SEC_BOOT_STAT, 15, 8⟩
/-- STAGE, bits [3:0] of SEC_BOOT_STAT. -/
def SEC_BOOT_STAT_STAGE : RField := ⟨.SEC_BOOT_STAT, 3, 0⟩
/-- FW_FLOOR, bits [63:32] of SEC_FLOOR. -/
def SEC_FLOOR_FW_FLOOR : RField := ⟨.SEC_FLOOR, 63, 32⟩
/-- MAN_FLOOR, bits [31:0] of SEC_FLOOR. -/
def SEC_FLOOR_MAN_FLOOR : RField := ⟨.SEC_FLOOR, 31, 0⟩
/-- SUBMIT, bits [0:0] of SEC_KD_CTRL. -/
def SEC_KD_CTRL_SUBMIT : RField := ⟨.SEC_KD_CTRL, 0, 0⟩
/-- GEN, bits [63:32] of SEC_KD_STAT. -/
def SEC_KD_STAT_GEN : RField := ⟨.SEC_KD_STAT, 63, 32⟩
/-- STATUS, bits [15:8] of SEC_KD_STAT. -/
def SEC_KD_STAT_STATUS : RField := ⟨.SEC_KD_STAT, 15, 8⟩
/-- DONE, bits [1:1] of SEC_KD_STAT. -/
def SEC_KD_STAT_DONE : RField := ⟨.SEC_KD_STAT, 1, 1⟩
/-- BUSY, bits [0:0] of SEC_KD_STAT. -/
def SEC_KD_STAT_BUSY : RField := ⟨.SEC_KD_STAT, 0, 0⟩
/-- WORD, bits [63:0] of SEC_KD_BUF. -/
def SEC_KD_BUF_WORD : RField := ⟨.SEC_KD_BUF, 63, 0⟩
/-- GEN, bits [63:32] of SEC_KS_A. -/
def SEC_KS_A_GEN : RField := ⟨.SEC_KS_A, 63, 32⟩
/-- TENANT, bits [31:0] of SEC_KS_A. -/
def SEC_KS_A_TENANT : RField := ⟨.SEC_KS_A, 31, 0⟩
/-- PART, bits [63:60] of SEC_KS_B. -/
def SEC_KS_B_PART : RField := ⟨.SEC_KS_B, 63, 60⟩
/-- OWNED, bits [59:59] of SEC_KS_B. -/
def SEC_KS_B_OWNED : RField := ⟨.SEC_KS_B, 59, 59⟩
/-- SCRUB_GIB, bits [55:24] of SEC_KS_B. -/
def SEC_KS_B_SCRUB_GIB : RField := ⟨.SEC_KS_B, 55, 24⟩
/-- STATE, bits [7:5] of SEC_KS_B. -/
def SEC_KS_B_STATE : RField := ⟨.SEC_KS_B, 7, 5⟩
/-- PENDING, bits [4:4] of SEC_KS_B. -/
def SEC_KS_B_PENDING : RField := ⟨.SEC_KS_B, 4, 4⟩
/-- RETIRE, bits [0:0] of SEC_KS_B. -/
def SEC_KS_B_RETIRE : RField := ⟨.SEC_KS_B, 0, 0⟩
/-- WORD, bits [63:0] of ERR_DQ_REC. -/
def ERR_DQ_REC_WORD : RField := ⟨.ERR_DQ_REC, 63, 0⟩
/-- WORD, bits [63:0] of ERR_PQ_REC. -/
def ERR_PQ_REC_WORD : RField := ⟨.ERR_PQ_REC, 63, 0⟩
/-- HEAD, bits [63:32] of ERR_DQ_PTR. -/
def ERR_DQ_PTR_HEAD : RField := ⟨.ERR_DQ_PTR, 63, 32⟩
/-- TAIL, bits [31:0] of ERR_DQ_PTR. -/
def ERR_DQ_PTR_TAIL : RField := ⟨.ERR_DQ_PTR, 31, 0⟩
/-- DROPPED, bits [63:48] of ERR_DQ_STAT. -/
def ERR_DQ_STAT_DROPPED : RField := ⟨.ERR_DQ_STAT, 63, 48⟩
/-- DEV_FAULT, bits [1:1] of ERR_DQ_STAT. -/
def ERR_DQ_STAT_DEV_FAULT : RField := ⟨.ERR_DQ_STAT, 1, 1⟩
/-- GAP_PENDING, bits [0:0] of ERR_DQ_STAT. -/
def ERR_DQ_STAT_GAP_PENDING : RField := ⟨.ERR_DQ_STAT, 0, 0⟩
/-- HEAD, bits [63:32] of ERR_PQ_PTR. -/
def ERR_PQ_PTR_HEAD : RField := ⟨.ERR_PQ_PTR, 63, 32⟩
/-- TAIL, bits [31:0] of ERR_PQ_PTR. -/
def ERR_PQ_PTR_TAIL : RField := ⟨.ERR_PQ_PTR, 31, 0⟩
/-- DROPPED, bits [63:48] of ERR_PQ_STAT. -/
def ERR_PQ_STAT_DROPPED : RField := ⟨.ERR_PQ_STAT, 63, 48⟩
/-- RESETS, bits [47:32] of ERR_PQ_STAT. -/
def ERR_PQ_STAT_RESETS : RField := ⟨.ERR_PQ_STAT, 47, 32⟩
/-- OPEN, bits [31:16] of ERR_PQ_STAT. -/
def ERR_PQ_STAT_OPEN : RField := ⟨.ERR_PQ_STAT, 31, 16⟩
/-- STATE, bits [3:2] of ERR_PQ_STAT. -/
def ERR_PQ_STAT_STATE : RField := ⟨.ERR_PQ_STAT, 3, 2⟩
/-- FENCED, bits [1:1] of ERR_PQ_STAT. -/
def ERR_PQ_STAT_FENCED : RField := ⟨.ERR_PQ_STAT, 1, 1⟩
/-- GAP_PENDING, bits [0:0] of ERR_PQ_STAT. -/
def ERR_PQ_STAT_GAP_PENDING : RField := ⟨.ERR_PQ_STAT, 0, 0⟩
/-- CTX, bits [31:0] of ERR_CTX_ABORT. -/
def ERR_CTX_ABORT_CTX : RField := ⟨.ERR_CTX_ABORT, 31, 0⟩
/-- RESET, bits [15:0] of ERR_PART_RESET. -/
def ERR_PART_RESET_RESET : RField := ⟨.ERR_PART_RESET, 15, 0⟩
/-- KEY, bits [63:32] of ERR_DEV_RESET. -/
def ERR_DEV_RESET_KEY : RField := ⟨.ERR_DEV_RESET, 63, 32⟩
/-- GO, bits [0:0] of MGT_SVC_CTRL. -/
def MGT_SVC_CTRL_GO : RField := ⟨.MGT_SVC_CTRL, 0, 0⟩
/-- STATUS, bits [15:8] of MGT_SVC_STAT. -/
def MGT_SVC_STAT_STATUS : RField := ⟨.MGT_SVC_STAT, 15, 8⟩
/-- DONE, bits [1:1] of MGT_SVC_STAT. -/
def MGT_SVC_STAT_DONE : RField := ⟨.MGT_SVC_STAT, 1, 1⟩
/-- BUSY, bits [0:0] of MGT_SVC_STAT. -/
def MGT_SVC_STAT_BUSY : RField := ⟨.MGT_SVC_STAT, 0, 0⟩
/-- WORD, bits [63:0] of MGT_SVC_BUF. -/
def MGT_SVC_BUF_WORD : RField := ⟨.MGT_SVC_BUF, 63, 0⟩
/-- PRESENT, bits [63:63] of MGT_DISC. -/
def MGT_DISC_PRESENT : RField := ⟨.MGT_DISC, 63, 63⟩
/-- ADMITTED, bits [62:62] of MGT_DISC. -/
def MGT_DISC_ADMITTED : RField := ⟨.MGT_DISC, 62, 62⟩
/-- ROLE, bits [61:60] of MGT_DISC. -/
def MGT_DISC_ROLE : RField := ⟨.MGT_DISC, 61, 60⟩
/-- PBR_VALID, bits [59:59] of MGT_DISC. -/
def MGT_DISC_PBR_VALID : RField := ⟨.MGT_DISC, 59, 59⟩
/-- PBR, bits [55:44] of MGT_DISC. -/
def MGT_DISC_PBR : RField := ⟨.MGT_DISC, 55, 44⟩
/-- TRAY, bits [39:35] of MGT_DISC. -/
def MGT_DISC_TRAY : RField := ⟨.MGT_DISC, 39, 35⟩
/-- PLUGS, bits [31:16] of MGT_DISC. -/
def MGT_DISC_PLUGS : RField := ⟨.MGT_DISC, 31, 16⟩
/-- NS, bits [63:0] of TELEM_WALL. -/
def TELEM_WALL_NS : RField := ⟨.TELEM_WALL, 63, 0⟩
/-- REF, bits [63:16] of TELEM_VIEW. -/
def TELEM_VIEW_REF : RField := ⟨.TELEM_VIEW, 63, 16⟩
/-- TRUNC, bits [1:1] of TELEM_VIEW. -/
def TELEM_VIEW_TRUNC : RField := ⟨.TELEM_VIEW, 1, 1⟩
/-- ACTIVE, bits [0:0] of TELEM_VIEW. -/
def TELEM_VIEW_ACTIVE : RField := ⟨.TELEM_VIEW, 0, 0⟩
/-- LSEN, bits [47:32] of MGT_PWR_CTRL. -/
def MGT_PWR_CTRL_LSEN : RField := ⟨.MGT_PWR_CTRL, 47, 32⟩
/-- CAP_EN, bits [16:16] of MGT_PWR_CTRL. -/
def MGT_PWR_CTRL_CAP_EN : RField := ⟨.MGT_PWR_CTRL, 16, 16⟩
/-- PWR_LIMIT, bits [15:0] of MGT_PWR_CTRL. -/
def MGT_PWR_CTRL_PWR_LIMIT : RField := ⟨.MGT_PWR_CTRL, 15, 0⟩
/-- VIN, bits [63:48] of MGT_PWR_STAT. -/
def MGT_PWR_STAT_VIN : RField := ⟨.MGT_PWR_STAT, 63, 48⟩
/-- IIN, bits [47:32] of MGT_PWR_STAT. -/
def MGT_PWR_STAT_IIN : RField := ⟨.MGT_PWR_STAT, 47, 32⟩
/-- PIN, bits [31:16] of MGT_PWR_STAT. -/
def MGT_PWR_STAT_PIN : RField := ⟨.MGT_PWR_STAT, 31, 16⟩
/-- OVER, bits [3:3] of MGT_PWR_STAT. -/
def MGT_PWR_STAT_OVER : RField := ⟨.MGT_PWR_STAT, 3, 3⟩
/-- ILIMIT, bits [2:2] of MGT_PWR_STAT. -/
def MGT_PWR_STAT_ILIMIT : RField := ⟨.MGT_PWR_STAT, 2, 2⟩
/-- CAPPING, bits [1:1] of MGT_PWR_STAT. -/
def MGT_PWR_STAT_CAPPING : RField := ⟨.MGT_PWR_STAT, 1, 1⟩
/-- DERATED, bits [0:0] of MGT_PWR_STAT. -/
def MGT_PWR_STAT_DERATED : RField := ⟨.MGT_PWR_STAT, 0, 0⟩
/-- CAUSE, bits [31:24] of MGT_PWR_FAULT. -/
def MGT_PWR_FAULT_CAUSE : RField := ⟨.MGT_PWR_FAULT, 31, 24⟩
/-- RAIL, bits [23:16] of MGT_PWR_FAULT. -/
def MGT_PWR_FAULT_RAIL : RField := ⟨.MGT_PWR_FAULT, 23, 16⟩
/-- SENSOR, bits [15:8] of MGT_PWR_FAULT. -/
def MGT_PWR_FAULT_SENSOR : RField := ⟨.MGT_PWR_FAULT, 15, 8⟩
/-- RECOVER, bits [31:16] of MGT_SAG_CTRL. -/
def MGT_SAG_CTRL_RECOVER : RField := ⟨.MGT_SAG_CTRL, 31, 16⟩
/-- L2, bits [15:8] of MGT_SAG_CTRL. -/
def MGT_SAG_CTRL_L2 : RField := ⟨.MGT_SAG_CTRL, 15, 8⟩
/-- L1, bits [7:0] of MGT_SAG_CTRL. -/
def MGT_SAG_CTRL_L1 : RField := ⟨.MGT_SAG_CTRL, 7, 0⟩
/-- TEMP, bits [63:0] of MGT_TEMP_HUB. -/
def MGT_TEMP_HUB_TEMP : RField := ⟨.MGT_TEMP_HUB, 63, 0⟩
/-- TEMP, bits [63:0] of MGT_TEMP_HBM. -/
def MGT_TEMP_HBM_TEMP : RField := ⟨.MGT_TEMP_HBM, 63, 0⟩
/-- SAG_EVT, bits [63:48] of MGT_STRETCH. -/
def MGT_STRETCH_SAG_EVT : RField := ⟨.MGT_STRETCH, 63, 48⟩
/-- THERM_EVT, bits [47:32] of MGT_STRETCH. -/
def MGT_STRETCH_THERM_EVT : RField := ⟨.MGT_STRETCH, 47, 32⟩
/-- CAP_EVT, bits [31:16] of MGT_STRETCH. -/
def MGT_STRETCH_CAP_EVT : RField := ⟨.MGT_STRETCH, 31, 16⟩
/-- CAUSE, bits [3:2] of MGT_STRETCH. -/
def MGT_STRETCH_CAUSE : RField := ⟨.MGT_STRETCH, 3, 2⟩
/-- LEVEL, bits [1:0] of MGT_STRETCH. -/
def MGT_STRETCH_LEVEL : RField := ⟨.MGT_STRETCH, 1, 0⟩
/-- CYCLES, bits [63:0] of MGT_STRETCH_CYC. -/
def MGT_STRETCH_CYC_CYCLES : RField := ⟨.MGT_STRETCH_CYC, 63, 0⟩
/-- MV, bits [63:48] of MGT_RAIL. -/
def MGT_RAIL_MV : RField := ⟨.MGT_RAIL, 63, 48⟩
/-- CUR, bits [47:32] of MGT_RAIL. -/
def MGT_RAIL_CUR : RField := ⟨.MGT_RAIL, 47, 32⟩
/-- PWR, bits [31:16] of MGT_RAIL. -/
def MGT_RAIL_PWR : RField := ⟨.MGT_RAIL, 31, 16⟩
/-- GOOD, bits [0:0] of MGT_RAIL. -/
def MGT_RAIL_GOOD : RField := ⟨.MGT_RAIL, 0, 0⟩

end Sys2Proof.Machine.Reg
end

