-- ==== Sys2Proof/Machine/State.lean ====
section
/-!
DEFINITION. The state of the device, as plain data, and the state after power-on. Register fields that software
can read are held in three sparse stores keyed by BAR0 offset (in force, staged, sealed); state that no register
field is the home of is held in the structures below, and the registers that show it are computed from it.
-/
namespace Sys2Proof.Machine

/-! ### Contexts and the Moons (chapters The Moon tile, Moon instruction set, Contexts) -/

/-- A set of numbers, strictly rising. -/
abbrev NatSet := List Nat

/-- A stream descriptor, four 64-bit words (R102). -/
structure Desc where
  w0 : Word
  w1 : Word
  w2 : Word
  w3 : Word
  deriving DecidableEq, Repr

/-- An open MMA chain (R93, R117): the shape and formats of its first MMA, the cumulative K, and for each output
element its partial-sum stack (R67; top first) or, for INT8, its exact 48-bit sum (R69). -/
structure Chain where
  m : Nat
  n : Nat
  fa : Fmt
  fb : Fmt
  k : Nat
  stackOf : List (List (Nat × Nat))
  sums : List Int
  deriving DecidableEq, Repr

/-- An entry of a candidate queue or top-k list: FP32 distance bits and a 40-bit item ID (R153). -/
structure WkEntry where
  dist : Nat
  id : Nat
  deriving DecidableEq, Repr

/-- A walker: queue capacity and k of its last WKINIT, the candidate queue and the top-k list in the order of R153,
and the marked bits of the 524,288-bit visited filter (R152 to R157). -/
structure Walker where
  cap : Nat
  k : Nat
  queue : List WkEntry
  top : List WkEntry
  marked : NatSet
  deriving DecidableEq, Repr

/-- What a memory instruction or comet does when the memory system answers it (R128 to R136, R156, R174, R175). -/
inductive MemOp where
  /-- Object ranges (offset, length) copied to consecutive places of scratch. -/
  | load (pieces : List (Nat × Nat × Nat))
  /-- Bytes written at object offsets. -/
  | store (pieces : List (Nat × List Byte))
  /-- Blocks `first` to `first + n - 1` expanded into scratch in a format. -/
  | expand (first n scratch : Nat) (fmt : Fmt)
  /-- An atomic of R134: code, operand, compare value, destination register. -/
  | amo (off code operand cmp dst : Nat)
  /-- A version compare-and-swap of R135: offset, expected, new, destination register, predicate. -/
  | pub (off expected new dst pred : Nat)
  /-- Bitmap bits of the enabled IDs: byte offsets (none outside the window), the bit in each, the predicate. -/
  | bitmap (bits : List (Option (Nat × Nat))) (pred : Nat)
  /-- The B operand of an MMA with EXP: the descriptor it advanced, its first block, and the MMA's operands. -/
  | mmaExp (sd : BitVec 4) (first m n k : Nat) (fa fb : Fmt) (a c : Nat) (opn cls : Bool)
  /-- A message to a route-map entry, with the channel of R144. -/
  | message (entry channel : Nat) (msg : Msg)
  /-- The line of the program that the PC lies in (R132). -/
  | fetch
  deriving DecidableEq, Repr

/-- A memory instruction that waits for its answer, or a comet: its request number, PC and object, the lines of the
object it touches, whether it writes, the arrival counter of a comet, the route-map generation it issued under, the
scratch range a comet writes and reads (R133), the lines a combiner has already applied for it and the word an AMO
or PUB found there, whether it is a message held for room at the receiving ring (R146), and the lines of a load that a
combiner has answered, with their bytes.
DESIGN CHOICE: assumption 62. -/
structure Outst where
  id : Nat
  pc : Nat
  handle : Nat
  lines : NatSet
  write : Bool
  op : MemOp
  ac : Nat
  gen : Nat
  dstRange : Nat × Nat
  srcRange : Nat × Nat
  applied : NatSet
  found : Option Nat
  held : Bool
  got : KV (List Byte)
  deriving DecidableEq, Repr

/-- Why a strand does not go on, as R56 charges it; at WAIT, the arrival counter it waits on (R138). -/
inductive Wait where
  | none | result | unit | memory | credit | orbit | expand
  | counter (n : Nat)
  deriving DecidableEq, Repr

/-- What a context has been charged in the orbit in progress (R336, R339, R340): ARITH cycles by the class code of R56,
LAU and MAC cycles, and interfered cycles. -/
structure OrbitUse where
  cyc : List Nat
  lau : Nat
  mac : Nat
  interfered : Nat
  deriving DecidableEq, Repr

/-- Where a tracked context stands (CTX_STATE, R376). -/
inductive Phase where
  | parked | resuming | resident | parking
  deriving DecidableEq, Repr

/-- A tracked context (R354 to R363) with the whole state R93 gives it, its grants, its arrival counters (R137), its
outstanding instruction and comets, its receive ring (R147), its cycle counts while it is parked (R60), and the comets its
last fences still wait for (R139); `tag` is the generation of its tag in internal buffers (R475), `code` the line of its program object that its strand holds,
and `arrived` how many arrivals each counter has had in the ARITH cycle in progress (R137).
DESIGN CHOICE: assumption 62. -/
structure Ctx where
  part : Nat
  gen : Nat
  tenant : Nat
  job : Nat
  qp : Nat
  cls : Nat
  enroll : Bool
  stay : Bool
  prog : Nat
  entry : Nat
  phase : Phase
  closing : Bool
  slot : Option Nat
  running : Bool
  residentOrbits : Nat
  pc : Nat
  s : Vector Word 32
  v : Vector (BitVec 2048) 32
  p : Vector (BitVec 256) 8
  st : Vector Desc 16
  chain : Option Chain
  ac : Vector (BitVec 32) 256
  winBytes : Nat
  scratch : Memory
  tunits : Nat
  tables : Memory
  xa : List XAcc
  walkers : List Walker
  ringSlots : Nat
  ring : List Msg
  seqs : KV Nat
  outst : Option Outst
  comets : List Outst
  wait : Wait
  issued : Bool
  atOrbit : Option Nat
  held : Bool
  steep : Option (Nat × Nat)
  cycles : List Nat
  abortPending : Bool
  fenceAll : List Nat
  fenceStores : List Nat
  used : OrbitUse
  tag : Nat
  code : Option Nat
  arrived : KV Nat
  deriving DecidableEq, Repr

/-- A stream engine in use: its slot, the comet or instruction it serves, the ARITH cycles it is still held, and whether a
compressed stream holds it to its end (R130, R176).
DESIGN CHOICE: assumption 59. -/
structure Engine where
  slot : Nat
  req : Nat
  left : Nat
  stream : Bool
  deriving DecidableEq, Repr

/-- A codebook held in the 128 KiB codebook store: object reference, codebook number, slots of 4 KiB (R178). -/
structure CbHeld where
  ref : Nat
  cb : Nat
  slots : Nat
  deriving DecidableEq, Repr

/-- A compressed stream that the expander of a Moon serves (R176): the context and instruction, the object, the block its
segment in progress begins at and the one after its last, whether it has entered that segment, the codebooks it holds there
(R178), and what it still has to load: the SIT entry, and codebooks.
DESIGN CHOICE: assumption 65. -/
structure Strm where
  ctx : Nat
  req : Nat
  ref : Nat
  next : Nat
  stop : Nat
  entered : Bool
  books : List CbHeld
  sitMiss : Bool
  loads : List CbHeld
  deriving DecidableEq, Repr

/-- What a Moon holds beside its contexts: the strand that last issued to each slot, and whether a strand has issued to it in
this ARITH cycle (R55), the stream engines in use (R130), the expander's SIT cache and codebook store, most recently used first
(R176, R178), and the compressed streams it serves, in issue order (R176). -/
structure Moon where
  lastCompute : Nat
  lastMemory : Nat
  tookCompute : Bool
  tookMemory : Bool
  engines : List Engine
  sit : List (Nat × Nat)
  codebooks : List CbHeld
  streams : List Strm
  deriving DecidableEq, Repr

/-- A live or finished step (R148 to R151): its shape, the Moons it was dealt over, the Moon each node is dealt to,
the context that claims each node, the committed outputs still held in merge slots, the
nodes committed with the cycle and the Moon of their commit, and whether its root has committed. -/
structure Step where
  job : Nat
  id : Nat
  t : Nat
  units : Nat
  moons : List Nat
  dealt : KV Nat
  claims : KV Nat
  done : KV (Nat × Nat)
  slots : KV (List Byte)
  finished : Bool
  deriving DecidableEq, Repr

/-! ### Objects and placement (chapter Memory tiers, objects and placement) -/

/-- A 2 MiB extent of the tier-1 copy of a cache-class object: the orbit of its last touch, the granules present, the
granules that differ from tier 2, and whether its write-back for an eviction is in progress (R247, R258, R261). -/
structure Extent where
  touch : Nat
  present : NatSet
  dirty : NatSet
  evict : Bool
  deriving DecidableEq, Repr

/-- A staged move (R248): the class, the salt draw and the pair set of the new layout, whether it has the tier-1 room
it needs (R259), and whether its copy has finished. -/
structure Move where
  cls : Nat
  salt : Nat
  pairs : List Nat
  room : Bool
  copied : Bool
  deriving DecidableEq, Repr

/-- A registered object (R237 to R248, R264, R297, R514). `data` is the object's content as plaintext, wherever its
home is; `written` the granules written since registration; `poison`, `orphan` and `lost` are 64-byte lines, an orphan with the job whose aperture
took it; `old` the tier-1 and tier-2 bytes of an old layout still held and the first request number of the new one. -/
structure Obj where
  hgen : Nat
  size : Nat
  cls : Nat
  rd : Bool
  wr : Bool
  keyslot : Nat
  keyGen : Nat
  tenant : Nat
  decl : Nat
  salt : Nat
  pairs : List Nat
  data : Memory
  written : NatSet
  poison : NatSet
  orphan : KV Nat
  lost : NatSet
  validated : Bool
  validating : Bool
  releasing : Bool
  extents : KV Extent
  move : Option Move
  old : Option (Nat × Nat × Nat)
  deriving DecidableEq, Repr

/-- Who waits for a memory request: an instruction, a comet, an accelerator's request, a near-memory operation, a fill,
the write-back of an extent, the copy of a move, the copy of a granule to the new tray of a pair, the write of a tenant
view, or the scrub of a key slot. -/
inductive ReqOwner where
  | instr (ctx id : Nat)
  | comet (ctx id : Nat)
  | accel (id : Nat)
  | nme (id : Nat)
  | fill (handle granule : Nat)
  | wb (handle extent : Nat)
  | move (handle : Nat)
  | rebuild (pair handle granule : Nat)
  | view (k : Nat)
  | scrub (slot : Nat)
  deriving DecidableEq, Repr

/-- Where a request stands: queued at its crossbar input, waiting for a fabric request tag (R319), at its home, its response
at its port and free of its tag (R318), or answered. -/
inductive ReqState where
  | queued | needsTag | sent | returning | answered
  deriving DecidableEq, Repr

/-- Who a message of classes 0 to 5 is charged to (R321): its class, the outer contender (a partition, or 16 for the
device account) and the account of the partition. -/
structure Charge where
  cls : Nat
  outer : Nat
  inner : Nat
  deriving DecidableEq, Repr

/-- A request for one 64-byte line at one tray, or at tier 1 where `tier` is 1 (R262, R263, R318), or one message of the
run of a device message, numbered by `line`, where `tier` is 3 (R301), or a read of a granule that a fill brings to tier 1
where `tier` is 4 (R255, R262). `inp` and `out` are its crossbar ports, `rdFirst` tells that a partial store to a tray still
reads its line (R385), `passedOver` that its queue's head was passed over in the last cycle (R339), and `seq` orders the
requests by their arrival at their port or home (R288, R319); 0 before that.
DESIGN CHOICE: assumption 62. -/
structure Req where
  id : Nat
  owner : ReqOwner
  part : Nat
  handle : Nat
  line : Nat
  write : Bool
  tier : Nat
  tray : Nat
  port : Nat
  inp : Nat
  out : Nat
  charge : Charge
  rdFirst : Bool
  passedOver : Bool
  seq : Nat
  state : ReqState
  repeated : Bool
  late : Bool
  failing : Bool
  poisoned : Bool
  final : Option Nat
  since : Nat
  deriving DecidableEq, Repr

/-- A near-memory operation (R265, R284): the handles and offsets of its ranges and what it does with them. -/
inductive NmeArg where
  | fill (dst off len pattern : Nat)
  | copy (src soff dst doff len : Nat)
  | compare (a aoff b boff len : Nat)
  | reduce (srcs : List (Nat × Nat)) (dst doff fmt op len : Nat)
  | publish (h off expected new : Nat)
  deriving DecidableEq, Repr

/-- A near-memory operation in progress: the queue pair whose descriptor started it, its operands, and the word a
combiner found for a PUBLISH it applied (R287). -/
structure NmeOp where
  id : Nat
  qp : Nat
  part : Nat
  arg : NmeArg
  found : Option Nat
  deriving DecidableEq, Repr

/-- A granule that a scrub writes (R474): its lines, and where they lie: a pseudo-channel, or 1,024 and a tray. -/
structure ScrubItem where
  lines : List Nat
  units : List Nat
  deriving DecidableEq, Repr

/-- A retired key-slot generation whose objects are being scrubbed (R474): the slot, its partition, the tier-1 and
tier-2 bytes still held until the scrub completes, the bytes scrubbed, and the granules left. -/
structure Scrub where
  slot : Nat
  part : Nat
  t1 : Nat
  t2 : Nat
  bytes : Nat
  todo : List ScrubItem
  deriving DecidableEq, Repr

/-- The imbalance procedure's attribution window (R250): the channels or trays it counts, and requests to them, in
total and by object in a table of 64 entries. -/
structure Imbal where
  hot : NatSet
  total : Nat
  table : List (Nat × Nat)
  deriving DecidableEq, Repr

/-- A fill of one granule into tier 1: whether a demand read waits for it, and whether it still waits for room
(R247, R255, R259).
DESIGN CHOICE: assumption 32. -/
structure Fill where
  handle : Nat
  granule : Nat
  demand : Bool
  waiting : Bool
  charge : Charge
  deriving DecidableEq, Repr

/-! ### Coherence and hot lines (chapter Fabric semantics) -/

/-- A line directory entry (R290): the line, whether it is held exclusive or modified, the ports whose accelerators
hold it, whether it is wide, the job of the aperture it was taken through, and whether it makes room for a new entry
(R292). -/
structure DirEnt where
  handle : Nat
  line : Nat
  excl : Bool
  holders : List Nat
  wide : Bool
  job : Nat
  evict : Bool
  deriving DecidableEq, Repr

/-- A BISnp that waits for its BIRsp (R291, R292); `sent` tells that it has taken its fabric request tag, and `back` that its
BIRsp has come to its port, which frees the tag (R318). -/
structure Snoop where
  handle : Nat
  line : Nat
  port : Nat
  inv : Bool
  sent : Bool
  back : Bool
  since : Nat
  deriving DecidableEq, Repr

/-- A line held by a hot-line combiner, its queue of requests, oldest first, and the cycle of its last request
(R287, R288). The combiner's copy is the line's home, so the object's content is the copy. -/
structure HotLine where
  home : Nat
  handle : Nat
  line : Nat
  queue : List ReqOwner
  last : Nat
  deriving DecidableEq, Repr

/-- A CXL.mem request of an accelerator that has passed the ingress checks and is not yet answered (R275, R282,
R291). `mask` holds the enabled bytes of a write, `bytes` the 64 bytes of its line, `excl` whether a coherent read asks
for the line exclusive, `src` and `addr` its source and address as R480 records them, and `home` whether it has crossed the crossbar to its home. -/
structure AccReq where
  id : Nat
  port : Nat
  tag : Nat
  write : Bool
  excl : Bool
  coh : Bool
  handle : Nat
  line : Nat
  bytes : List Byte
  mask : List Bool
  part : Nat
  job : Nat
  gen : Nat
  src : Nat
  addr : Nat
  charge : Charge
  home : Bool
  deriving DecidableEq, Repr

/-! ### The crossbar (chapters Switch core, Shares) -/

/-- What a cell of an input buffer carries (R301): a request of an accelerator by number; a store to a doorbell, its tag,
request address, queue pair and descriptor (R347); a message of a run that is not its last; or the last one, with the
whole message and where it goes: a receive ring, or the port it is forwarded through (R381). Responses stand in cells of the
response pool (R304). -/
inductive CellBody where
  | request (id : Nat)
  | doorbell (tag addr qp : Nat) (desc : List Byte)
  /-- A tray's response to a request by number: poison, completer abort, and whether it brings data (R386). -/
  | answer (id : Nat) (poison abort data : Bool)
  /-- A BIRsp for a line, and whether the accelerator keeps it shared (R291). -/
  | birsp (handle line : Nat) (keep : Bool)
  | part
  | ring (ctx : Nat) (msg : Msg)
  | transit (pbr part ctx : Nat) (msg : Msg)
  deriving DecidableEq, Repr

/-- The channels of a fabric link with credits for what takes a cell (R388); none for a message that holds no credit, as one
returned from the spill ring (R313). -/
inductive Channel where
  | none | m2sReq | m2sRwD | posted | birsp | drs | ndr
  deriving DecidableEq, Repr

/-- A 128-byte cell of a pool of a fabric port (R304): its order of arrival, output, charge with its class, source and
destination (R312), the length L of R324, the partition-and-generation tag of its message (R314, R475), and the channel whose
credit it holds. -/
structure Cell where
  seq : Nat
  out : Nat
  charge : Charge
  src : Nat
  dst : Nat
  len : Nat
  tag : Nat × Nat
  body : CellBody
  chan : Channel
  deriving DecidableEq, Repr

/-- A queue of an input for one output and class (R305, R311): its head, its spilled segment, the records that are being
returned with the cycle their return began, its tail, how many records of the first chunk of the segment have
returned, and its pairs in the hold table. -/
structure XQueue where
  head : List Cell
  spill : List Cell
  back : List Cell
  since : Nat
  tail : List Cell
  off : Nat
  pairs : List (Nat × Nat)
  deriving DecidableEq, Repr

/-- The input buffer of a fabric port: its queues, keyed 8 × output + class, the cycle in which a message of each class
0 to 5 last arrived (R310), the cycle after that of its last spill write, and the cycle after the last in which a return
moves a record (R314). -/
structure XIn where
  queues : KV XQueue
  arrived : KV Nat
  wrote : Nat
  retBusy : Nat
  deriving DecidableEq, Repr

/-- A share point (R325), its tags 64-bit values with 16 fractional bits: the outer virtual time, start and finish tags of the
outer contenders, the virtual time of each partition's accounts, their tags, keyed 64 × partition + account, and the input last
granted in each class.
DESIGN CHOICE: assumption 37. -/
structure Share where
  v : Nat
  s : KV Nat
  f : KV Nat
  vi : KV Nat
  si : KV Nat
  fi : KV Nat
  rr : KV Nat
  deriving DecidableEq, Repr

/-! ### Queue pairs, route maps, ownership (chapter Contexts, queue pairs and composition) -/

/-- How the descriptor in service of a queue pair ends (R349, R353, R360, R243, R244, R265).
DESIGN CHOICE: assumption 62. -/
inductive Service where
  /-- A RUN: its members with the run still open, and the members that halted with s1 and s2. -/
  | run (opn : List Nat) (halted : List (Nat × Nat × Nat)) (anyAborted : Bool)
  /-- A CTX_CLOSE that waits for the context's run to end. -/
  | close (ctx : Nat)
  /-- A VALIDATE that waits for writers. -/
  | validate (handle : Nat)
  /-- A RELEASE that waits for work on the object. -/
  | release (handle : Nat)
  /-- A REGISTER that waits for the write-back of an extent it evicts (R259). -/
  | register
  /-- A STEEP of a context number, list and start position that waits for writers of the list. -/
  | steep (ctx handle start : Nat)
  /-- An NME operation or PUBLISH in progress. -/
  | nme (op : Nat)
  /-- A finished descriptor whose completion entry is not yet written: status and results. -/
  | done (status result0 result1 : Nat)
  deriving DecidableEq, Repr

/-- The dynamic state of a queue pair (R345 to R350): the doorbell words last written, the submission ring, oldest
first, how many descriptors have been taken, how many completion entries written, the consumer count last read, the
descriptor in service, pushes dropped, and whether an unreachable ring has been reported. -/
structure Qp where
  bell : KV Word
  ring : List (List Byte)
  taken : Nat
  written : Nat
  consumed : Nat
  service : Option (List Byte × Service)
  dropped : Nat
  reported : Bool
  deriving DecidableEq, Repr

/-- A route-map generation: its number and its non-empty entries, 32 bytes each (R364, R365). -/
structure RouteMap where
  gen : Nat
  entries : KV (List Byte)
  deriving DecidableEq, Repr

/-- A record of the ownership table (R368); a pending offer holds the target job and the cycle it was committed. -/
structure OwnRec where
  ref : Nat
  owner : Nat
  epoch : Nat
  offer : Option (Nat × Nat)
  orphan : Bool
  deriving DecidableEq, Repr

/-! ### Errors (chapter Errors, abort and containment) -/

/-- An error record, 32 bytes (R479), and the XBAR cycle it carries. -/
structure Rec where
  status : Nat
  cls : Nat
  code : Nat
  flags : Nat
  part : Nat
  scope : Nat
  unit : Nat
  wordA : Nat
  wordB : Nat
  time : Nat
  deriving DecidableEq, Repr

/-- An error queue: its records by slot, the counts of records appended and consumed, the drops, and whether a GAP
is pending (R482, R484). -/
structure ErrQ where
  recs : KV Rec
  tail : Nat
  head : Nat
  dropped : Nat
  gap : Bool
  deriving DecidableEq, Repr

/-- The unit of an open handling window (R486). -/
inductive HandlingWin where
  | context (ctx : Nat)
  | job (j : Nat)
  | partition
  deriving DecidableEq, Repr

/-- The shadowing of a partition in progress (R520 to R527): its side, the key and the orbit of JOIN, the running
digest and the digests captured by orbit, the digests received from the leader, the orbits in which a UNIT record
was appended, the consecutive clean orbits, the forwarded inputs not yet sent (leader) or applied (shadow), and the
orbit at which a promotion takes effect, where the leader has named it. -/
structure Shadow where
  leader : Bool
  joined : Bool
  key : BitVec 256
  n0 : Nat
  digest : BitVec 256
  captured : KV (BitVec 256)
  received : KV (BitVec 256 × Bool)
  void : NatSet
  clean : Nat
  backlog : List ShadowInput
  promoting : Bool
  upTo : Option Nat
  deriving DecidableEq, Repr

/-- The steps of the swap after Freeze, in the order of R40. -/
inductive SwapStep where
  | snapshot | keys | maps | shares | placement | visibility | parking | release
  deriving DecidableEq, Repr

/-- A swap in progress (R40 to R45): its freeze cycle, the orbit that closes, the step that comes next, and what closed at
the freeze: staged register fields by offset, the staged route map, key slots with a pending delivery, objects with a
staged move and written bindings of views; and whether a staged setting was held back (R35). -/
structure Swap where
  start : Nat
  closing : Nat
  next : SwapStep
  regs : KV Word
  route : Option (KV (List Byte))
  keys : NatSet
  moves : NatSet
  views : NatSet
  heldBack : Bool
  deriving DecidableEq, Repr

/-- The dynamic state of a partition that no register field is the home of; `swap` is the swap in progress, and `imbC` and
`imbT` are the imbalance counters of the placement engine, over channels and trays, as the last snapshot captured them
(R50). -/
structure Part where
  orbit : Nat
  hostFlag : Bool
  devFlag : Bool
  raisedAt : Option Nat
  overdue : Bool
  reported : Bool
  executed : Bool
  idleEvent : Bool
  routeCur : RouteMap
  routeOld : Option RouteMap
  routeStaged : Option (KV (List Byte))
  swap : Option Swap
  imbC : KV Nat
  imbT : KV Nat
  visibility : Nat
  tagDraw : Nat
  steps : List Step
  errq : ErrQ
  windows : List HandlingWin
  resetDue : Option Nat
  fenced : Bool
  resets : Nat
  faults : Nat
  held : Bool
  hgens : KV Nat
  shadow : Option Shadow
  shadowState : Nat
  shadowCause : Nat
  deriving DecidableEq, Repr

/-! ### Power, clocks, links, management (chapters Package, Optical link, Management, Mirrors, Partitions) -/

/-- Where the device stands between off and service (R437 to R439, R460, R553). -/
inductive PwrPhase where
  /-- Every rail down, nothing retained. -/
  | off
  /-- Start-up phases 1 to 3: debounce, BUS6 soft-start, VDD_AON. -/
  | debounce | bus | aon
  /-- Phase 4: boot code runs. -/
  | boot
  /-- A boot halt: rails 1 to 47 stay down (R460). -/
  | halted
  /-- Phase 5: the rail groups rise. -/
  | rails
  /-- Phase 6: the stacks train. -/
  | train
  /-- Phase 7 has ended. -/
  | ready
  /-- The held-off state (R438). -/
  | heldOff
  /-- A failure before VDD_AON is good (R439). -/
  | earlyFault
  deriving DecidableEq, Repr

/-- The power side: the phase, the rail group that rises next, the outputs PWRGD and THERMTRIP_N (true while driven low),
ALERT_N held low by R439, the stretch demands keyed 3 × domain + cause (0 SAG, 1 THERM, 2 CAP), consecutive windows over
the limit at QUARTER, the cap in force for the window, engines that hold ALERT_N low (R445), the tenant-visible power in
10 W (R477), and whether PERST_N is high. -/
structure Power where
  phase : PwrPhase
  group : Nat
  pwrgd : Bool
  alert : Bool
  thermtrip : Bool
  demand : KV Nat
  overRun : Nat
  capLimit : Nat
  capEn : Bool
  hot : NatSet
  seen : Nat
  perst : Bool
  deriving DecidableEq, Repr

/-- The cycle counters (R446, R448) other than XBAR's: the domains that run, their counts and the parts of a cycle in
progress, and the counts at which a snapshot still has to latch them (R449). -/
structure Clocks where
  up : NatSet
  count : KV Nat
  frac : KV Nat
  latching : KV Nat
  deriving DecidableEq, Repr

/-- The pilot function: whether it is ready (R437), in D3hot (R405), and its MSI-X table (R404). -/
structure Pilot where
  ready : Bool
  d3hot : Bool
  msix : KV Word
  deriving DecidableEq, Repr

/-- The optical link: ports out of ACTIVE whose loss is being timed (R418), ports whose
training has failed and not begun again (R415), laser fibres below LASER_MIN, 2 × engine for
A and 1 more for B (R424), the bound width and lock mask of the partner's last training frame (R415), the FSEQ of the last
data frame of each port and the flits it brought to the CXL link layer, in slot order (R408, R410), the XBAR cycle of the
last exit from ACTIVE or failed training of each port (R419), and the ports whose new link has not been reported (R418,
R426). -/
structure Links where
  away : NatSet
  failed : NatSet
  dim : NatSet
  partner : KV (Nat × Nat)
  fseq : KV Nat
  flits : KV (List (List Byte))
  exits : KV Nat
  anew : NatSet
  deriving DecidableEq, Repr

/-- A slot of the boot flash (R534, R536): 0 empty, 1 open, 2 committed; the transport that opened it; the image, its
length and security version; the commit sequence. -/
structure FlashSlot where
  st : Nat
  owner : Nat
  len : Nat
  svn : Nat
  seq : Nat
  data : Memory
  deriving DecidableEq, Repr

/-- What outlives loss of power: the flash slots and the last commit sequence (R536), and the replay-protected region:
floors, owner key hash, TOFU flag, the highest generation reserved for each key slot, exhausted slots (R459, R464). -/
structure Nv where
  slots : KV FlashSlot
  commits : Nat
  fwFloor : Nat
  manFloor : Nat
  owner : Option (BitVec 512)
  tofu : Bool
  gens : KV Nat
  exhausted : NatSet
  deriving DecidableEq, Repr

/-- The keys the security island derives from the device secret (R458): the seeds of the device ID key, of the key that signs
attestation and of the key-delivery key, and the key of the replay-protected region. -/
structure DevKeys where
  idSeed : BitVec 256
  signSeed : BitVec 256
  kemSeed : BitVec 512
  rpr : BitVec 256
  deriving DecidableEq, Repr

/-- A background operation (R398): SK_CLEAR_ORPHANS of an object's range, or SK_PART_RESET of a partition. -/
inductive BgWork where
  | clearOrphans (handle off len : Nat)
  | partReset (p : Nat)
  deriving DecidableEq, Repr

/-- The management core: the background operation that runs and the output of the last that ended (R398), the
fabric-manager event log of presence changes (R542), the event interrupt policy, the response limit of each transport as
a power of two (R396), wall time with the MGMT count it was taken at (R545), the I3C address and MCTP endpoint ID (R532). -/
structure Mgmt where
  bg : Option BgWork
  bgDone : Option (BgWork × List Byte)
  events : List (Nat × Bool)
  policy : List Byte
  limits : KV Nat
  wall : Option (Nat × Nat)
  i3c : Option Nat
  eid : Nat
  deriving DecidableEq, Repr

/-- The test port: its instruction register, and whether a scan or self-test has acted (R550, R551). -/
structure Tap where
  ir : Nat
  acted : Bool
  deriving DecidableEq, Repr

/-- Mirrors (R505 to R519): trays whose expulsion software made due; for each pair being rebuilt the granules copied and
those left, in copy order; trays that were SHADOW when the check window began and the clean windows since; trays and
ports with a health event in the window; the cycle each partition was last charged an expulsion; runs of LOST granules
not yet logged, in marking order; MIRROR records of code 1 that wait (R516); the bytes each rebuild copy may move now; the
capacity of each pair in GiB (R506); and, for each TARGET and SHADOW, the handle, line and ciphertext last sent of every line
written to it in the window (R513). -/
structure Mirror where
  due : NatSet
  rebuild : KV (Nat × List (Nat × Nat))
  began : NatSet
  shadowClean : KV Nat
  trayEvents : NatSet
  linkEvents : NatSet
  charged : KV Nat
  runs : List (Nat × NatSet)
  recs : List (Nat × Nat)
  credit : KV Nat
  caps : KV Nat
  sent : KV (List (Nat × Nat × List Byte))
  deriving DecidableEq, Repr

/-- A tenant view (R547 to R549): the capture that waits to be written with the object reference it goes to, SEQ, the
captures replaced, and whether TELEM_VIEW was written since its binding last took effect. `writing` is the capture that a
write in progress puts into its object. -/
structure View where
  capture : Option (Nat × List Byte)
  writing : Option (Nat × List Byte)
  seq : Nat
  skipped : Nat
  rebind : Bool
  deriving DecidableEq, Repr

/-- A view of which nothing is captured. -/
def View.blank : View := ⟨none, none, 0, 0, false⟩

/-- The return codes of the fabric-manager API that the spec names (R396 to R398). -/
inductive FmRc where
  | success | invalidInput | invalidLength | unsupported | unsupportedMailbox | busy
  deriving DecidableEq, Repr

/-- What a fabric-manager command returns (R384, R395, R399). -/
inductive FmBody where
  /-- No payload. -/
  | none
  /-- The output bytes of a Skovond vendor command. -/
  | bytes (l : List Byte)
  /-- Identify: GLB_ID and GLB_TOPO. -/
  | identify (glbId topo : Nat)
  /-- Background Operation Status: whether one runs, and the output of the last that ended. -/
  | background (running : Bool) (last : List Byte)
  /-- The response message limit, as a power of two. -/
  | limit (n : Nat)
  /-- Event records: port and presence. -/
  | events (l : List (Nat × Bool))
  /-- The event interrupt policy. -/
  | policy (l : List Byte)
  /-- Physical ports: port, LINK_PORT_CFG and LINK_PORT_STAT. -/
  | ports (l : List (Nat × Nat × Nat))
  /-- GFD information from the sealed window table: entry, PART_WIN_A and PART_WIN_B. -/
  | windows (l : List (Nat × Nat × Nat))
  /-- The dynamic-capacity region: base, length and block size. -/
  | region (base len block : Nat)
  /-- Extents of a PBR ID: base and length in GiB, and the partition in the tag. -/
  | extents (l : List (Nat × Nat × Nat))
  deriving DecidableEq, Repr

/-- What an MCTP control command returns (R532). -/
inductive MctpBody where
  | setEndpoint (eid : Nat)
  | getEndpoint (eid : Nat)
  | versions
  | types (l : List Nat)
  | vendors (l : List Nat)
  deriving DecidableEq, Repr

/-- What the two devices of a shadowed partition send each other (R521 to R527). -/
inductive ShadowMsg where
  | join (n0 : Nat) (key : BitVec 256)
  | input (i : ShadowInput)
  | digest (orbit : Nat) (d : BitVec 256) (void : Bool)
  | promote
  | boundary (m : Nat)
  | failed (cause : Nat)
  deriving DecidableEq, Repr

/-- A capability of the pilot function (R402), of the plain or the extended list. -/
inductive PciCap where
  | pciExpress | powerManagement | msix
  | aer | doe | dataLinkFeature | physical16 | physical32 | physical64 | flitLogging | pcieIde
  deriving DecidableEq, Repr

/-- A designated vendor-specific capability (R402): that of a CXL device, with what it is capable of; the Flex Bus port; the
register locator, with the blocks it names (R403): BAR0 offset and size. -/
inductive Dvsec where
  | cxlDevice (io mem cache : Bool)
  | flexBusPort
  | registerLocator (component device : Nat × Nat)
  deriving DecidableEq, Repr

/-- A DOE protocol (R402). -/
inductive DoeProtocol where
  | discovery | cmaSpdm | securedCmaSpdm
  deriving DecidableEq, Repr

/-- What an item of the pilot function's configuration holds (R402). -/
inductive ConfigValue where
  | number (n : Nat)
  | header (type : Nat) (multi : Bool)
  | memory (is64 prefetchable : Bool) (size : Nat)
  | capabilities (l : List PciCap)
  | designated (l : List Dvsec)
  | protocols (l : List DoeProtocol)
  deriving DecidableEq, Repr

/-- Everything that leaves the device, newest first in the state's `out`.
DESIGN CHOICE: assumption 61. -/
inductive Out where
  /-- What a BAR0 read returns: the offset and the value (R5 to R7). -/
  | bar0 (off : Nat) (v : Word)
  /-- A BAR0 access answered with Unsupported Request (R405). -/
  | bar0Unsupported (off : Nat)
  /-- A configuration request answered with Request Retry Status (R437). -/
  | configRetry (i : ConfigItem)
  /-- The answer to a read of an item of the pilot function's configuration (R402). -/
  | config (i : ConfigItem) (v : ConfigValue)
  /-- A descriptor's completion entry written to pilot host memory: address and the entry's bytes (R346). -/
  | hostWrite (addr : Nat) (bytes : List Byte)
  /-- An MSI-X vector signalled (R404). -/
  | msix (vector : Nat)
  /-- A back-invalidate snoop to the accelerator at a port, for a line of an object: BISnpInv or BISnpData (R291). -/
  | snoop (port handle line : Nat) (inv : Bool)
  /-- A read or write for a line sent to the tray at a port (R386): the request's tag, object, line, direction,
  and what a write writes, encrypted (R470). -/
  | trayRequest (port id handle line : Nat) (write : Bool) (data : List Byte)
  /-- Flits of a frame asked for again by link-layer retry, with the slots that failed, none where the whole frame did (R411,
  R412). -/
  | retry (port : Nat) (slots : List Nat)
  /-- A data response to an accelerator: tag, 64 bytes, poison (R382, R393). -/
  | data (port tag : Nat) (bytes : List Byte) (poison : Bool)
  /-- A message sent to another device (R144): destination PBR ID, partition and context reference, the message. -/
  | message (pbr part ctx : Nat) (msg : Msg)
  /-- A Cmp completion to an accelerator (R382). -/
  | cmp (port tag : Nat)
  /-- The delivery acknowledgement of a device message (R381): the port it came in on, source and sequence number. -/
  | ack (port pbr seq : Nat)
  /-- A run forwarded unchanged through a peer port (R381). -/
  | transit (port pbr part ctx : Nat) (msg : Msg)
  /-- A CXL.io request of a tray forwarded to the management core (R386). -/
  | toMgmt (port : Nat)
  /-- A discarded non-posted TLP completed with Unsupported Request (R389). -/
  | unsupported (port tag : Nat)
  /-- Viral sent on an accelerator link (R497). -/
  | viral (port : Nat)
  /-- Sixteen control frames with LCW DARK at a port (R422, R502). -/
  | dark (port : Nat)
  /-- The answer to a fabric-manager command (R398): the transport, the return code, and what it returns. -/
  | fm (mailbox : Bool) (rc : FmRc) (body : FmBody)
  /-- The response to a service over MCTP (R533). -/
  | service (bytes : List Byte)
  /-- The answer to an MCTP control command (R532). -/
  | mctp (body : MctpBody)
  /-- What the test port shifts out (R550). -/
  | tdo (bytes : List Byte)
  /-- The SPDM measurement record (R463): the requester's nonce, the blocks in order, and the signature over them. -/
  | measurements (nonce : List Byte) (blocks : List (List Byte)) (signature : List Byte)
  /-- Shadowing traffic to the peer device (R521 to R527): PBR ID, partition and what is sent. -/
  | shadow (pbr part : Nat) (what : ShadowMsg)
  /-- IDE key management of a link begins, the device being its requester (R391, R557); 256 is the pilot link. -/
  | ideStart (port : Nat)
  /-- The fabric manager is notified of a tray that is not admitted (R29, R387). -/
  | notAdmitted (port : Nat)
  deriving DecidableEq, Repr

/-- A response or snoop of the device that waits for a fabric output (R302, R308): the output, its class, the crossbar input
it comes from, and what leaves. -/
structure Rsp where
  out : Nat
  cls : Nat
  inp : Nat
  what : Out
  deriving DecidableEq, Repr

/-- The cells granted in an XBAR cycle (R300): the cycle, and the count at each output and each input. -/
structure Grants where
  cycle : Nat
  outs : KV Nat
  ins : KV Nat
  deriving DecidableEq, Repr

/-- The state of the device. -/
structure State where
  /-- The commands that wait, first in first out. -/
  pending : List Instr
  /-- Register fields in force that are not SL, by BAR0 offset; an offset not listed holds its reset value (R561). -/
  regs : KV Word
  /-- Staged copies of ST registers that differ from what is in force (R7). -/
  staged : KV Word
  /-- The sealed tables: SL fields by BAR0 offset (R454). -/
  sl : KV Word
  /-- Cycles of the XBAR domain (R448). -/
  now : Nat
  /-- Draws of the random source so far. -/
  rng : Nat
  /-- Numbers handed out to requests, comets and operations. -/
  nextId : Nat
  /-- Tracked contexts by number (R355). -/
  ctxs : KV Ctx
  /-- The last generation of each context number (R354). -/
  ctxGens : KV Nat
  /-- What Moons hold beside their contexts. -/
  moons : KV Moon
  /-- The registry, by handle (R237). -/
  objs : KV Obj
  /-- The number of the draw that is the placement key (R246). -/
  placeKey : Nat
  /-- The next generation of the tags of internal buffers (R476). -/
  tagGen : Nat
  /-- The device's own PBR ID (R379). -/
  ownPbr : Option Nat
  /-- Partitions. -/
  parts : KV Part
  /-- Queue pairs. -/
  qps : KV Qp
  /-- The ownership table, in order of claim (R368). -/
  own : List OwnRec
  /-- Memory requests and message parts that are not yet done with. -/
  reqs : List Req
  /-- Near-memory operations in progress. -/
  nmes : List NmeOp
  /-- Fills in progress. -/
  fills : List Fill
  /-- The line directory, oldest entry first (R290). -/
  dir : List DirEnt
  /-- Snoops not yet answered. -/
  snoops : List Snoop
  /-- Lines held by combiners. -/
  hot : List HotLine
  /-- CXL.mem requests past the ingress checks. -/
  accs : List AccReq
  /-- Input buffers of the fabric ports. -/
  xin : KV XIn
  /-- Share points (R325). -/
  shares : KV Share
  /-- Token buckets: the level when last set and the cycle of that (R330). -/
  buckets : KV (Int × Nat)
  /-- Charged bytes not yet counted in CHARGED. -/
  chargeRest : KV Nat
  /-- The cycle of the last spill write, and how many records were written in it (R314). -/
  spillWrites : Nat × Nat
  /-- The number of the draw that is the spill key (R314). -/
  spillKey : Nat
  /-- Responses and snoops of the device that wait for a fabric output, oldest first (R302). -/
  rsp : List Rsp
  /-- The grants of the XBAR cycle in progress (R300). -/
  grants : Grants
  /-- Requests to each channel in the window of R250. -/
  chanLoad : KV Nat
  /-- Requests to each tray in the window. -/
  trayLoad : KV Nat
  /-- Generations being scrubbed (R474). -/
  scrubs : List Scrub
  /-- The cycle in which the imbalance window in progress began (R250). -/
  winStart : Nat
  /-- The imbalance procedure over channels. -/
  imbC : Imbal
  /-- The imbalance procedure over trays. -/
  imbT : Imbal
  /-- Ports whose accelerator is crashed (R296). -/
  crashed : NatSet
  /-- Ports viral was sent on (R497). -/
  viral : NatSet
  /-- The device error queue (R482). -/
  devq : ErrQ
  /-- Device fault (R501). -/
  devFault : Bool
  /-- Job teardowns that are due: partition, job, code, WORD_B (R294). -/
  teardowns : List (Nat × Nat × Nat × Nat)
  /-- A device reset is due (R502). -/
  devResetDue : Bool
  /-- The power side. -/
  pwr : Power
  /-- The clocks. -/
  clk : Clocks
  /-- The pilot function. -/
  pilot : Pilot
  /-- The optical link. -/
  link : Links
  /-- The partner anchors of the sealed manifest that are not zero (R452, R462). -/
  anchors : List (BitVec 512)
  /-- What outlives loss of power. -/
  nv : Nv
  /-- The flash slot whose Moannis image runs (R540). -/
  running : Option Nat
  /-- The derived keys, from step 5 of R460 on. -/
  island : Option DevKeys
  /-- The key delivery record in progress (R467). -/
  kdRec : Option (List Byte)
  /-- Staged key bindings: of each slot the generation, the tenant and its key (R468). -/
  kdStaged : KV (Nat × Nat × BitVec 256)
  /-- The tenant keys that the security island holds, by slot (R466, R469). -/
  tenantKeys : KV (BitVec 256)
  /-- SHA3-512 of the sealed manifest, 0 under recovery (R463). -/
  manHash : BitVec 512
  /-- Engine virtual time of the accounts, 64 × partition + account (R337). -/
  ev : KV Nat
  /-- The management core. -/
  mgmt : Mgmt
  /-- The test port. -/
  tap : Tap
  /-- Mirrors, spares and health. -/
  mir : Mirror
  /-- Tenant views, 16 × partition + view. -/
  views : KV View
  /-- What has left the device, newest first. -/
  out : List Out
  deriving DecidableEq, Repr

/-- The state of a device that has never been powered, or has lost its input, but for what outlives that (R433, R438):
every rail down, every register at its reset value (R561), nothing held.
DESIGN CHOICE: assumptions 5 and 6. -/
def State.reset : State :=
  { pending := [], regs := [], staged := [], sl := [], now := 0, rng := 1, nextId := 0, ctxs := [], ctxGens := [],
    moons := [], objs := [], placeKey := 0, tagGen := 1, ownPbr := none, parts := [], qps := [], own := [], reqs := [], nmes := [],
    fills := [], dir := [], snoops := [], hot := [], accs := [], xin := [], shares := [], buckets := [],
    chargeRest := [], spillWrites := (0, 0), spillKey := 0, rsp := [], grants := ⟨0, [], []⟩, chanLoad := [], trayLoad := [],
    scrubs := [], winStart := 0, imbC := ⟨[], 0, []⟩,
    imbT := ⟨[], 0, []⟩, crashed := [], viral := [], devq := ⟨[], 0, 0, 0, false⟩, devFault := false, teardowns := [],
    devResetDue := false,
    pwr := ⟨.off, 0, false, false, false, [], 0, 1800, true, [], 0, false⟩,
    clk := ⟨[], [], [], []⟩, pilot := ⟨false, false, []⟩, link := ⟨[], [], List.range 64, [], [], [], [], []⟩, anchors := [],
    nv := ⟨[], 0, 0, 0, none, false, [], []⟩, running := none, island := none, kdRec := none, kdStaged := [], tenantKeys := [], manHash := 0, ev := [],
    mgmt := ⟨none, none, [], [], [], none, none, 0⟩, tap := ⟨1, false⟩,
    mir := ⟨[], [], [], [], [], [], [], [], [], [], [], []⟩, views := [], out := [] }

/-- Why a step stops for good. The device goes on after every event its spec describes, so no command raises one;
the constructor is named by no meaning, and it is safe.
DESIGN CHOICE: assumption 7. -/
inductive Fault where
  | none
  deriving DecidableEq, Repr

/-- Why a command has no meaning here.
DESIGN CHOICE: assumption 7. -/
inductive Refusal where
  /-- The command's meaning is not written yet; raised by the dispatcher only. Safe. -/
  | notModelled (mnemonic : String)
  deriving DecidableEq, Repr

/-- What a meaning answers. -/
abbrev Outcome := Host.Outcome State Fault Refusal

end Sys2Proof.Machine
end

