-- ==== Sys2Proof/Machine/Ops.lean ====
section
/-!
DEFINITION. The named operations over the state: registers and their fields (R4 to R8, R561), contexts and slots
(R16, R354), partitions, objects, error records and queues (R479 to R488), and what leaves the device.
-/
namespace Sys2Proof.Machine

/-! ### Sets of numbers -/

/-- A number added to a strictly rising list. -/
def setIns : NatSet → Nat → NatSet
  | [], x => [x]
  | y :: r, x => if x = y then y :: r else if x < y then x :: y :: r else y :: setIns r x

/-- A number taken out. -/
def setDel (l : NatSet) (x : Nat) : NatSet := l.filter (fun y => decide (y ≠ x))

/-- Some numbers added. -/
def setInsAll (l : NatSet) (xs : List Nat) : NatSet := xs.foldl setIns l

/-- The numbers from `a` up to but not including `b`. -/
def span (a b : Nat) : List Nat := (List.range (b - a)).map (fun i => a + i)

/-- The indices of the blocks of size `unit` that `n` bytes from `off` touch; none for no byte. -/
def blocksOf (unit off n : Nat) : List Nat :=
  if n = 0 then [] else span (off / unit) ((off + n - 1) / unit + 1)

/-! ### Registers -/

/-- The BAR0 offset of a register with its indices filled in (R563). -/
def addrOfDims : List (Nat × Nat) → List Nat → Nat
  | (st, _) :: r, i :: q => st * i + addrOfDims r q
  | _, _ => 0

/-- The BAR0 offset of a register. -/
def RegName.addr (r : RegName) (ix : List Nat) : Nat := r.desc.base + addrOfDims r.desc.dims ix

/-- The mask of the bits of some fields. -/
def fieldMask : List Fld → Nat
  | [] => 0
  | f :: r => (2 ^ (f.hi + 1 - f.lo) - 1) * 2 ^ f.lo + fieldMask r

/-- The mask of a register's fields of an access code. -/
def RegName.mask (r : RegName) (a : Acc) : Word :=
  BitVec.ofNat 64 (fieldMask (r.desc.fields.filter (fun f => decide (f.acc = a))))

/-- The reset value of a register (R561). -/
def RegName.resetW (r : RegName) : Word := BitVec.ofNat 64 r.desc.reset

/-- The value in force of a register: its SL bits from the sealed store, the others from the plain one. -/
def State.regW (s : State) (r : RegName) (ix : List Nat) : Word :=
  kvGet (r.resetW &&& ~~~ r.mask .sl) s.regs (r.addr ix) ||| kvGet (r.resetW &&& r.mask .sl) s.sl (r.addr ix)

/-- The state with the bits of a register that are not SL set. -/
def State.setRegW (s : State) (r : RegName) (ix : List Nat) (v : Word) : State :=
  { s with regs := kvPut (r.resetW &&& ~~~ r.mask .sl) s.regs (r.addr ix) (v &&& ~~~ r.mask .sl) }

/-- The state with the SL bits of a register set. -/
def State.setSlW (s : State) (r : RegName) (ix : List Nat) (v : Word) : State :=
  { s with sl := kvPut (r.resetW &&& r.mask .sl) s.sl (r.addr ix) (v &&& r.mask .sl) }

/-- A field of a register in force, as a number. -/
def State.fget (s : State) (f : RField) (ix : List Nat) : Nat := bitsOf f.hi f.lo (s.regW f.reg ix).toNat

/-- The state with a field (not SL) of a register set to the low bits of a number. -/
def State.fset (s : State) (f : RField) (ix : List Nat) (n : Nat) : State :=
  s.setRegW f.reg ix (BitVec.ofNat 64 (putBits f.hi f.lo (s.regW f.reg ix).toNat n))

/-- The largest value of a field. -/
def RField.top (f : RField) : Nat := 2 ^ (f.hi + 1 - f.lo) - 1

/-- The state with a saturating count increased. -/
def State.fsat (s : State) (f : RField) (ix : List Nat) (n : Nat) : State :=
  s.fset f ix (satAdd f.top (s.fget f ix) n)

/-- The state with a wrapping count increased. -/
def State.fwrap (s : State) (f : RField) (ix : List Nat) (n : Nat) : State :=
  s.fset f ix (s.fget f ix + n)

/-- The staged copy of a register (R7, R45): its ST bits as staged, or in force where nothing is staged. -/
def State.stagedW (s : State) (r : RegName) (ix : List Nat) : Word :=
  (s.regW r ix &&& ~~~ r.mask .st) ||| kvGet (s.regW r ix &&& r.mask .st) s.staged (r.addr ix)

/-- The state with the ST bits of a register staged; a copy equal to what is in force is not listed. -/
def State.setStagedW (s : State) (r : RegName) (ix : List Nat) (v : Word) : State :=
  { s with staged := kvPut (s.regW r ix &&& r.mask .st) s.staged (r.addr ix) (v &&& r.mask .st) }

/-- A field of a staged copy. -/
def State.fstaged (s : State) (f : RField) (ix : List Nat) : Nat := bitsOf f.hi f.lo (s.stagedW f.reg ix).toNat


/-! ### Parts of the state -/

/-- An empty error queue. -/
def ErrQ.init : ErrQ := ⟨[], 0, 0, 0, false⟩

/-- A partition before its first boundary: generation 1 of its route map is empty (R364).
DESIGN CHOICE: assumption 6. -/
def Part.init : Part :=
  { orbit := 0, hostFlag := false, devFlag := false, raisedAt := none, overdue := false, reported := false,
    executed := false, idleEvent := false, routeCur := ⟨1, []⟩, routeOld := none, routeStaged := none,
    swap := none, imbC := [], imbT := [], visibility := 0, tagDraw := 0, steps := [], errq := ErrQ.init, windows := [], resetDue := none, fenced := false,
    resets := 0, faults := 0, held := false, hgens := [], shadow := none,
    shadowState := 0, shadowCause := 0 }

/-- Nothing charged yet in an orbit (R340). -/
def OrbitUse.none : OrbitUse := ⟨List.replicate 9 0, 0, 0, 0⟩

/-- LAU cycles charged to a context (R119, R336): at least one.
DESIGN CHOICE: assumption 63. -/
def Ctx.lau (x : Ctx) (n : Nat) : Ctx := { x with used := { x.used with lau := x.used.lau + max 1 n } }

/-- MAC cycles charged to a context (R118, R336): at least one.
DESIGN CHOICE: assumption 63. -/
def Ctx.mac (x : Ctx) (n : Nat) : Ctx := { x with used := { x.used with mac := x.used.mac + max 1 n } }

/-- A queue pair nothing has been pushed to.
DESIGN CHOICE: assumption 6. -/
def Qp.init : Qp := ⟨[], [], 0, 0, 0, none, 0, false⟩

/-- A Moon that has issued nothing since it left reset (R55).
DESIGN CHOICE: assumption 6. -/
def Moon.init : Moon := ⟨7, 7, false, false, [], [], [], []⟩

/-- The dynamic state of partition `p`. -/
def State.part (s : State) (p : Nat) : Part := kvGet Part.init s.parts p

/-- The state with a partition's dynamic state changed. -/
def State.modPart (s : State) (p : Nat) (f : Part → Part) : State :=
  { s with parts := kvPut Part.init s.parts p (f (s.part p)) }

/-- The dynamic state of queue pair `q`. -/
def State.qp (s : State) (q : Nat) : Qp := kvGet Qp.init s.qps q

/-- The state with a queue pair changed. -/
def State.modQp (s : State) (q : Nat) (f : Qp → Qp) : State :=
  { s with qps := kvPut Qp.init s.qps q (f (s.qp q)) }

/-- What Moon `m` holds beside its contexts. -/
def State.moon (s : State) (m : Nat) : Moon := kvGet Moon.init s.moons m

/-- The state with a Moon changed. -/
def State.modMoon (s : State) (m : Nat) (f : Moon → Moon) : State :=
  { s with moons := kvPut Moon.init s.moons m (f (s.moon m)) }

/-- The staged copy of a register of a partition as it closed at the freeze of the swap in progress (R45): in force where
nothing was staged. -/
def State.closedW (s : State) (p : Nat) (r : RegName) (ix : List Nat) : Word :=
  (s.regW r ix &&& ~~~ r.mask .st) ||| (match (s.part p).swap with
    | some w => kvGet (s.regW r ix &&& r.mask .st) w.regs (r.addr ix)
    | none => s.regW r ix &&& r.mask .st)

/-- A closed copy takes effect (R40, R41); what was written after the freeze stays staged (R45). -/
def State.applyClosed (s : State) (p : Nat) (r : RegName) (ix : List Nat) : State :=
  (s.setRegW r ix (s.closedW p r ix)).setStagedW r ix (s.stagedW r ix)

/-- The tracked context of a number. -/
def State.ctx? (s : State) (c : Nat) : Option Ctx := kvGet? s.ctxs c

/-- The state with a tracked context replaced. -/
def State.setCtx (s : State) (c : Nat) (x : Ctx) : State := { s with ctxs := kvSet s.ctxs c x }

/-- The state with a tracked context changed; nothing where the number is free. -/
def State.modCtx (s : State) (c : Nat) (f : Ctx → Ctx) : State := { s with ctxs := kvMod s.ctxs c f }

/-- The registered object of a handle. -/
def State.obj? (s : State) (h : Nat) : Option Obj := kvGet? s.objs h

/-- The state with an object changed; nothing where the handle is not registered. -/
def State.modObj (s : State) (h : Nat) (f : Obj → Obj) : State := { s with objs := kvMod s.objs h f }

/-- Something leaves the device.
DESIGN CHOICE: assumption 61. -/
def State.emit (s : State) (o : Out) : State := { s with out := o :: s.out }

/-- A response or snoop of a class that the device sends waits for its fabric output, from a crossbar input (R302, R308). -/
def State.respond (s : State) (out cls inp : Nat) (o : Out) : State := { s with rsp := s.rsp ++ [⟨out, cls, inp, o⟩] }

/-- A fresh number for a request, comet or operation. -/
def State.fresh (s : State) : Nat × State := (s.nextId, { s with nextId := s.nextId + 1 })

/-- A fresh generation for a tag of internal buffers (R475, R476). -/
def State.drawTag (s : State) : Nat × State := (s.tagGen, { s with tagGen := s.tagGen + 1 })

/-- The number of the next draw of the random source; the draw itself is `Config.random` of it.
DESIGN CHOICE: assumption 10. -/
def State.draw (s : State) : Nat × State := (s.rng, { s with rng := s.rng + 1 })

/-! ### References -/

/-- The handle of an object reference laid out as W1 of R102 (R237). -/
def refHandle (r : Nat) : Nat := bitsOf 63 32 r
/-- The handle generation of an object reference. -/
def refHgen (r : Nat) : Nat := bitsOf 31 16 r
/-- The object reference of a handle and generation. -/
def mkRef (h g : Nat) : Nat := h * 2 ^ 32 + g * 2 ^ 16
/-- The partition a handle names (R237). -/
def handlePart (h : Nat) : Nat := h / 2 ^ 28
/-- The context reference of R354. -/
def ctxRef (part gen c : Nat) : Nat := part * 2 ^ 28 + gen * 2 ^ 12 + c

/-- The reference of a tracked context. -/
def Ctx.ref (x : Ctx) (c : Nat) : Nat := ctxRef x.part x.gen c

/-- The number of the context a reference names, where its generation and partition are in force (R354). -/
def State.ctxOfRef (s : State) (r : Nat) : Option Nat :=
  let c := bitsOf 11 0 r
  match s.ctx? c with
  | some x => if r ≠ 0 && x.ref c == r then some c else none
  | none => none

/-- The object an object reference names, where it is registered with that HGEN and not being released (R104,
R244). -/
def State.objOfRef (s : State) (r : Nat) : Option Obj :=
  match s.obj? (refHandle r) with
  | some o => if o.hgen = refHgen r ∧ o.releasing = false then some o else none
  | none => none

/-- Whether the record of a partition is valid (R562): bit 63 of PART_CFG_A. -/
def State.partValid (s : State) (p : Nat) : Bool := decide (p < 16) && s.fget Reg.PART_CFG_A_VALID [p] == 1

/-- The partitions of the device. -/
def partIds : List Nat := List.range 16

/-- The numbers of the tracked contexts of a partition. -/
def State.ctxsOf (s : State) (p : Nat) : List Nat :=
  (s.ctxs.filter (fun e => decide (e.2.part = p))).map (fun e => e.1)

/-- Whether a context occupies its strand: it is resident, or it is held until its parking copy has ended (R44, R54). -/
def Ctx.occupies (x : Ctx) : Bool := decide (x.phase = .resident) || decide (x.phase = .parking)

/-- The context that occupies a slot, where one does (R16, R44, R54). -/
def State.occupant (s : State) (slot : Nat) : Option Nat :=
  (s.ctxs.find? (fun e => e.2.occupies && e.2.slot == some slot)).map (fun e => e.1)

/-- Whether a partition is held by a swap (R43). -/
def State.inSwap (s : State) (p : Nat) : Bool := (s.part p).swap.isSome

/-- Whether a Moon is in service (R25). -/
def State.moonInService (s : State) (m : Nat) : Bool :=
  decide (m < 64) && bitAt m (s.fget Reg.GLB_MOON_AVAIL_MOON_IN_SERVICE [])

/-! ### Error records (R479 to R488) -/

/-- Class codes of R480. -/
def clsException : Nat := 0x01
/-- REFUSAL. -/
def clsRefusal : Nat := 0x02
/-- TEARDOWN. -/
def clsTeardown : Nat := 0x03
/-- MEMORY. -/
def clsMemory : Nat := 0x04
/-- UNIT. -/
def clsUnit : Nat := 0x05
/-- LINK. -/
def clsLink : Nat := 0x06
/-- ORBIT. -/
def clsOrbit : Nat := 0x07
/-- QUEUE. -/
def clsQueue : Nat := 0x08
/-- OWNERSHIP. -/
def clsOwnership : Nat := 0x09
/-- CAPACITY. -/
def clsCapacity : Nat := 0x0A
/-- RESET. -/
def clsReset : Nat := 0x0B
/-- MIRROR. -/
def clsMirror : Nat := 0x0C

/-- Status codes of R9. -/
def stOk : Nat := 0x00
/-- BUSY. -/
def stBusy : Nat := 0x01
/-- CTX_LIMIT. -/
def stCtxLimit : Nat := 0x02
/-- VERSION_CONFLICT. -/
def stConflict : Nat := 0x03
/-- KEY_RETIRED. -/
def stKeyRetired : Nat := 0x04
/-- ACCESS. -/
def stAccess : Nat := 0x05
/-- POISON. -/
def stPoison : Nat := 0x06
/-- ABORTED. -/
def stAborted : Nat := 0x07
/-- LOST. -/
def stLost : Nat := 0x08
/-- MAP_STALE. -/
def stMapStale : Nat := 0x09
/-- SHORT. -/
def stShort : Nat := 0x0A
/-- NOT_OWNER. -/
def stNotOwner : Nat := 0x0B
/-- TIER_FAIL. -/
def stTierFail : Nat := 0x0C

/-- The rank of a status where several apply to one operation: the smallest is reported (R10). -/
def stRank : Nat → Nat
  | 0x07 => 1 | 0x08 => 2 | 0x06 => 3 | 0x04 => 4 | 0x05 => 5 | 0x0C => 6 | 0x09 => 7
  | 0x0B => 8 | 0x03 => 9 | 0x02 => 10 | 0x01 => 11 | 0x0A => 12 | _ => 13

/-- The status reported of two that apply (R10). -/
def stFirst (a b : Nat) : Nat := if stRank a ≤ stRank b then a else b

/-- The records a queue holds that are not yet consumed (R482). -/
def ErrQ.used (q : ErrQ) : Nat := (q.tail + 2 ^ 32 - q.head) % 2 ^ 32

/-- Whether a record stands before another that arose in the same cycle: by CLASS, then PART, then WORD_A (R481). -/
def Rec.before (a b : Rec) : Bool :=
  decide (a.time = b.time) && (decide (a.cls < b.cls) || (decide (a.cls = b.cls) &&
    (decide (a.part < b.part) || (decide (a.part = b.part) && decide (a.wordA < b.wordA)))))

/-- A record with the GAP flag of another: the flag belongs to the place in the queue (R484). -/
def Rec.withGap (a b : Rec) : Rec :=
  { a with flags := a.flags - (if bitAt 3 a.flags then 8 else 0) + (if bitAt 3 b.flags then 8 else 0) }

/-- The record at position `n` moves ahead of at most `k` records of its cycle that it stands before (R481). -/
def Rec.settle (size : Nat) : Nat → Nat → KV Rec → KV Rec
  | 0, _, m => m
  | k + 1, n, m =>
    match kvGet? m ((n + size - 1) % size), kvGet? m (n % size) with
    | some a, some b =>
      if b.before a then
        Rec.settle size k (n + size - 1) (kvSet (kvSet m ((n + size - 1) % size) (b.withGap a)) (n % size) (a.withGap b))
      else m
    | _, _ => m

/-- A record appended to a queue of `size` slots, or dropped where it is full (R482, R484); those of one cycle stand in the
order of R481.
DESIGN CHOICE: assumption 74. -/
def ErrQ.push (size : Nat) (q : ErrQ) (r : Rec) : ErrQ :=
  if size ≤ q.used then { q with dropped := satAdd 0xFFFF q.dropped 1, gap := true }
  else
    { q with
      recs := Rec.settle size q.used (q.tail % size)
        (kvSet q.recs (q.tail % size) { r with flags := r.flags + (if q.gap then 8 else 0) }),
      tail := (q.tail + 1) % 2 ^ 32, gap := false }

/-- Whether a handling window of a partition, or of the device, is open (R486, R487). -/
def State.windowOpen (s : State) (p : Nat) : Bool := s.devFault || !(s.part p).windows.isEmpty

/-- The NESTED flag of a record of a partition (R487); of a record of none, where a device window is open. -/
def State.nested (s : State) (r : Rec) : Nat :=
  if bitAt 4 r.flags then bit01 s.devFault else bit01 (s.windowOpen r.part)

/-- A record put into the device queue, with MSI-X vector 1 as R483 gives. -/
def State.pushDev (s : State) (r : Rec) : State :=
  let q := s.devq
  let q' := q.push 1024 r
  let s' := { s with devq := q' }
  if q'.tail ≠ q.tail ∧ (q.used = 0 ∨ 3 ≤ r.scope) then s'.emit (.msix 1) else s'

/-- A record appended to the device queue. -/
def State.appendDev (s : State) (r : Rec) : State := s.pushDev { r with flags := r.flags + s.nested r }

/-- Whether a nested record escalates (R488): its context or job is the unit of an open window, or it names a
context of a job whose window is open.
DEDUCED: assumption 16. -/
def State.escalates (s : State) (r : Rec) : Bool :=
  let ws := (s.part r.part).windows
  if r.scope = 1 then
    ws.any (fun w => match w with
      | .context c => decide (c = bitsOf 11 0 r.wordA)
      | .job j => decide (j = bitsOf 63 32 r.wordA)
      | .partition => false)
  else if r.scope = 2 then
    ws.any (fun w => match w with
      | .job j => decide (j = bitsOf 63 32 r.wordA)
      | .context _ => false
      | .partition => false)
  else false

/-- A reset of a partition becomes due, unless one is due already or its record is not valid (R493). -/
def State.triggerReset (s : State) (p code : Nat) : State :=
  if s.partValid p && (s.part p).resetDue.isNone then
    s.modPart p (fun x => { x with resetDue := some code })
  else s

/-- A record put into the queue of its partition; a drop fences the partition (R484). A UNIT record makes the orbit void
for a shadowing (R525). -/
def State.pushPart (s : State) (r : Rec) : State :=
  let q := (s.part r.part).errq
  s.modPart r.part (fun x => { x with
    errq := q.push 128 r
    fenced := x.fenced || decide (128 ≤ q.used)
    shadow := x.shadow.map (fun h => if r.cls = clsUnit then { h with void := setIns h.void x.orbit } else h) })

/-- A record with the flags NESTED and ESCALATE that R487 and R488 give it now. -/
def State.flagged (s : State) (r : Rec) : Rec :=
  { r with flags := r.flags + s.nested r + (if s.escalates r then 2 else 0) }

/-- The reset an escalation makes due, with trigger code 3 (R488). -/
def State.escalation (s t : State) (r : Rec) : State := if s.escalates r then t.triggerReset r.part 3 else t

/-- A record appended to the queue of its partition. -/
def State.appendPart (s : State) (r : Rec) : State := s.escalation (s.pushPart (s.flagged r)) r

/-- A record appended to the queue of its partition, and a copy to the device queue (R480). -/
def State.appendBoth (s : State) (r : Rec) : State :=
  let f := s.flagged r
  s.escalation ((s.pushPart f).pushDev { f with flags := f.flags + 4 }) r

/-- A record that concerns no partition: FLAGS bit 4 (R479).
DEDUCED: assumption 17. -/
def Rec.noPart (status cls code scope unit a b time : Nat) : Rec :=
  ⟨status, cls, code, 16, 0, scope, unit, a, b, time⟩

/-- A record of a partition. -/
def Rec.ofPart (p status cls code scope a b time : Nat) : Rec :=
  ⟨status, cls, code, 0, p, scope, 0, a, b, time⟩

/-- The REFUSAL record of code 1 of a refused BAR0 access (R480).
DEDUCED: assumption 17. -/
def State.refuseAccess (s : State) (off : Nat) : State :=
  s.appendDev (Rec.noPart stAccess clsRefusal 1 0 0 off 0 s.now)

/-- Opens a handling window of a partition (R486). -/
def State.openWindow (s : State) (p : Nat) (w : HandlingWin) : State :=
  s.modPart p (fun x => { x with windows := w :: x.windows })

/-- Closes a handling window of a partition. -/
def State.closeWindow (s : State) (p : Nat) (w : HandlingWin) : State :=
  s.modPart p (fun x => { x with windows := x.windows.filter (fun y => decide (y ≠ w)) })

end Sys2Proof.Machine
end

