-- ==== Sys2Proof/Machine/DevKeys.lean ====
section
/-!
DEFINITION. The derived keys of the device (R458).
-/
namespace Sys2Proof.Machine

/-- A SHA3-512 digest as 64 bytes. -/
def digestBytes (d : BitVec 512) : List Byte := natBytes 64 d.toNat

/-- A derived device key: KMAC256 under the device secret of a label followed by its input, to `l` bits (R458).
DESIGN CHOICE: assumption 10. -/
def deriveKey (label input : List Byte) (l : Nat) : BitVec l :=
  Config.kmac256 Config.deviceSecret (label ++ input) l Config.thorix

/-- The label "ID". -/
def labelId : List Byte := [0x49, 0x44]
/-- The label of the key that signs attestation: A, L, I, A, S. -/
def labelSign : List Byte := [0x41, 0x4C, 0x49, 0x41, 0x53]
/-- The label "KEM". -/
def labelKem : List Byte := [0x4B, 0x45, 0x4D]
/-- The label "RPR". -/
def labelRpr : List Byte := [0x52, 0x50, 0x52]

/-- The seed of the device ID key: it holds for the life of the device. -/
def idSeed : BitVec 256 := deriveKey labelId (digestBytes Config.romHash) 256

/-- SHA3-512 of the device ID public key (R452, R454). -/
def idKeyHash : BitVec 512 := Config.sha3 (Config.dsaPublic idSeed)

/-- The derived keys of a device that runs a Moannis image: the signing and key-delivery keys change with it. -/
def devKeys (image : List Byte) : DevKeys :=
  { idSeed := idSeed
    signSeed := deriveKey labelSign (digestBytes (Config.sha3 image)) 256
    kemSeed := deriveKey labelKem (digestBytes (Config.sha3 image)) 512
    rpr := deriveKey labelRpr [] 256 }

/-- The seeds of the key-delivery key in force. -/
def State.kemSeed (s : State) : BitVec 512 :=
  match s.island with
  | some k => k.kemSeed
  | none => 0

/-- The seed of the key that signs attestation. -/
def State.signSeed (s : State) : BitVec 256 :=
  match s.island with
  | some k => k.signSeed
  | none => 0

end Sys2Proof.Machine
end

