-- ==== Sys2Proof/Machine/Flags.lean ====
section
/-!
DEFINITION. Conditions and the element operations of the vector unit: the conditions of SCMP and VCMP (R110, R114),
and the results of the vector arithmetic (R113).
-/
namespace Sys2Proof.Machine

/-- The condition of SCMP a MOD code selects, on two 64-bit words (R110); none for a code that is ILLEGAL. -/
def scalarCond (code : Nat) (a b : Word) : Option Bool :=
  match code with
  | 0 => some (decide (a = b))
  | 1 => some (decide (a ≠ b))
  | 2 => some (BitVec.slt a b)
  | 3 => some (BitVec.sle a b)
  | 4 => some (BitVec.slt b a)
  | 5 => some (BitVec.sle b a)
  | 10 => some (BitVec.ult a b)
  | 11 => some (BitVec.ule a b)
  | 12 => some (BitVec.ult b a)
  | 13 => some (BitVec.ule b a)
  | _ => none

/-- The condition of VCMP on two elements (R114): with a NaN, EQ, LT, LE, GT and GE are 0, NE and UN are 1. -/
def vectorCond (f : Fmt) (code a b : Nat) : Bool :=
  let un := f.isNan a || f.isNan b
  let x := f.cmpKey a
  let y := f.cmpKey b
  match code with
  | 0 => !un && decide (x = y)
  | 1 => un || decide (x ≠ y)
  | 2 => !un && decide (x < y)
  | 3 => !un && decide (x ≤ y)
  | 4 => !un && decide (y < x)
  | 5 => !un && decide (y ≤ x)
  | 6 => un
  | _ => false

/-- An exact integer result at a width: saturated or wrapped (R113). -/
def intResult (sat : Bool) (w : Nat) (i : Int) : Nat := ofSigned w (if sat then satSigned w i else i)

/-- The element operations of R112 that take up to three elements. -/
inductive VOp where
  | add | sub | mul | fma | min | max | abs | neg
  deriving DecidableEq, Repr

/-- An integer element operation (R113). -/
def vopInt (o : VOp) (sat : Bool) (w a b c : Nat) : Nat :=
  let x := toSigned w a
  let y := toSigned w b
  let z := toSigned w c
  match o with
  | .add => intResult sat w (x + y)
  | .sub => intResult sat w (x - y)
  | .mul => intResult sat w (x * y)
  | .fma => intResult sat w (x * y + z)
  | .min => ofSigned w (min x y)
  | .max => ofSigned w (max x y)
  | .abs => intResult sat w ((x.natAbs : Nat) : Int)
  | .neg => intResult sat w (-x)

/-- A floating-point element operation (R113). -/
def vopFp (o : VOp) (f : Fmt) (a b c : Nat) : Nat :=
  match o with
  | .add => f.add a b
  | .sub => f.sub a b
  | .mul => f.mul a b
  | .fma => f.fma a b c
  | .min => if f.isNan a || f.isNan b then f.nan else if f.ordKey a ≤ f.ordKey b then a else b
  | .max => if f.isNan a || f.isNan b then f.nan else if f.ordKey b ≤ f.ordKey a then a else b
  | .abs => if f.isNan a then f.nan else f.mag a
  | .neg => if f.isNan a then f.nan else f.withSign (!f.sign a) (f.mag a)

/-- An element operation in a format (R113). -/
def vop (o : VOp) (f : Fmt) (sat : Bool) (a b c : Nat) : Nat :=
  if f.isFp then vopFp o f a b c else vopInt o sat f.width a b c

/-- The largest of some elements in a format (R126): the canonical NaN if one is NaN, minus zero below plus zero;
with none, minus infinity or the most negative value. -/
def largest (f : Fmt) (l : List Nat) : Nat :=
  match l with
  | [] =>
    if f.isFp then f.withSign true (f.infBits.getD f.maxFin) else 2 ^ (f.width - 1)
  | a :: r => r.foldl (fun m x => vop .max f false m x 0) (if f.isNan a then f.nan else a)

/-- Whether FP32 distance bits order before others by R153: a NaN lies above plus infinity, the zeros are equal. -/
def distKey (d : Nat) : Int := if Fmt.isNan .fp32 d then 2 ^ 31 else Fmt.cmpKey .fp32 d

end Sys2Proof.Machine
end

