-- ==== Sys2Proof/Machine/Homes.lean ====
section
/-!
DEFINITION. Where the bytes of an object are and what a request for a line of it meets: the home of a granule
(R242, R245, R246), the pair and tray that serve it (R236, R507), retired keys (R465, R473), and the final status
of a line (R263, R264, R293, R297, R515).
-/
namespace Sys2Proof.Machine

/-- Bytes of a 64-byte line, lines of a granule. -/
def lineOf (off : Nat) : Nat := off / 64
/-- The granule of a line (R242: 4 KiB granules). -/
def granuleOfLine (l : Nat) : Nat := l / 64
/-- The granule of a byte offset. -/
def granuleOf (off : Nat) : Nat := off / 4096
/-- The extent of a granule (R258: 2 MiB extents). -/
def extentOf (g : Nat) : Nat := g / 512

/-- Whether a class lives wholly in tier 1 (R238). -/
def pinnedClass (c : Nat) : Bool := c == 0 || c == 3 || c == 5
/-- Whether a class is a cache class (R238). -/
def cacheClass (c : Nat) : Bool := c == 1 || c == 4
/-- Whether a class is a compressed tensor (R238). -/
def tensorClass (c : Nat) : Bool := c == 3 || c == 4

/-- Whether a granule has a tier-1 copy (R245). -/
def Obj.inTier1 (o : Obj) (g : Nat) : Bool :=
  pinnedClass o.cls ||
  (match kvGet? o.extents (extentOf g) with
   | some e => e.present.contains g
   | none => false)

/-- Whether a granule has been written since registration (R242). -/
def Obj.isWritten (o : Obj) (g : Nat) : Bool := o.written.contains g

/-- The tier a request for a granule is served from: 0 where no memory is accessed (R242), else 1 or 2 (R245). -/
def Obj.tier (o : Obj) (g : Nat) : Nat := if !o.isWritten g then 0 else if o.inTier1 g then 1 else 2

/-- The undisclosed hash of a granule under a salt (R246). -/
def State.hash (s : State) (salt h g : Nat) : Nat :=
  (Config.placementHash (Config.random s.placeKey) (Config.random salt) h g).toNat

/-- The pseudo-channels of some channel groups, eight each, in ascending order (R341). -/
def channelsOf (groups : Nat) : List Nat :=
  ((List.range 64).filter (fun k => bitAt k groups)).flatMap (fun k => span (8 * k) (8 * k + 8))

/-- The channel groups carved to a partition (R341). -/
def State.carvedGroups (s : State) (p : Nat) : Nat := s.fget Reg.SCHED_CARVE_CH_GROUPS [p]

/-- The pseudo-channel of a granule (R246), among the carved channels of a partition in carve mode (R342). -/
def State.channelOf (s : State) (o : Obj) (h g : Nat) : Nat :=
  let gs := s.carvedGroups (handlePart h)
  let n := s.hash o.salt h g
  if gs = 0 then n % 512 else (channelsOf gs).getD (n % (channelsOf gs).length) 0

/-- The stack of a pseudo-channel: 64 pseudo-channels each (R233). -/
def stackOfChannel (c : Nat) : Nat := c / 64

/-- The pair of a granule in tier 2 (R246); none where the object has no pair set.
DEDUCED: assumption 26. -/
def State.pairOf (s : State) (o : Obj) (h g : Nat) : Option Nat :=
  if o.pairs.isEmpty then none else o.pairs[s.hash o.salt h g % o.pairs.length]?

/-- The state of a pair (R507). -/
def State.pairState (s : State) (k : Nat) : Nat := s.fget Reg.PLACE_PAIR_STAT_STATE [k]

/-- The pairs that are not DEAD (R246, R507): mirrored, degraded, being rebuilt or shadowed. -/
def State.livePairs (s : State) : List Nat := (List.range 12).filter (fun k => decide (1 ≤ s.pairState k ∧ s.pairState k ≤ 4))

/-- The tray that serves a read of a granule, and the partner a repeat goes to where the pair has one (R236,
R507). -/
def State.readTrays (s : State) (o : Obj) (h g k : Nat) : List Nat :=
  let a := s.fget Reg.PLACE_PAIR_STAT_MEMBER_A [k]
  let b := s.fget Reg.PLACE_PAIR_STAT_MEMBER_B [k]
  match s.pairState k with
  | 1 => if s.hash o.salt h g % 2 = 0 then [a, b] else [b, a]
  | 2 => [if a = 31 then b else a]
  | 3 => [if a = 31 then b else a]
  | 4 => [if a = 31 then b else a]
  | _ => []

/-- The trays every write to a pair goes to (R507, R508). -/
def State.writeTrays (s : State) (k : Nat) : List Nat :=
  let a := s.fget Reg.PLACE_PAIR_STAT_MEMBER_A [k]
  let b := s.fget Reg.PLACE_PAIR_STAT_MEMBER_B [k]
  let n := s.fget Reg.PLACE_PAIR_STAT_NEW [k]
  match s.pairState k with
  | 1 => [a, b]
  | 2 => [if a = 31 then b else a]
  | 3 => [if a = 31 then b else a, n]
  | 4 => [if a = 31 then b else a, n]
  | _ => []

/-- The key-slot state code of R464. -/
def State.slotState (s : State) (k : Nat) : Nat := s.fget Reg.SEC_KS_B_STATE [k]

/-- Whether the generation of the object's key slot is retired (R464, R473): the slot is not LIVE under it.
DESIGN CHOICE: assumption 11. -/
def State.keyRetired (s : State) (o : Obj) : Bool :=
  !(s.slotState o.keyslot == 1 && s.fget Reg.SEC_KS_A_GEN [o.keyslot] == o.keyGen)

/-- Whether an HBM stack is in service (R26). -/
def State.stackInService (s : State) (i : Nat) : Bool := bitAt i (s.fget Reg.GLB_UNIT_AVAIL_HBM_IN_SERVICE [])

/-- Whether a granule's home is a dead target for a read, or for a write (R293): a stack out of service, or a pair with no
partner. A read of a granule never written needs no home (R242). -/
def State.homeDead (s : State) (o : Obj) (h g : Nat) (wr : Bool) : Bool :=
  match (if wr then (if o.inTier1 g then 1 else 2) else o.tier g) with
  | 0 => false
  | 1 => !s.stackInService (stackOfChannel (s.channelOf o h g))
  | _ => match s.pairOf o h g with
    | some k => (s.readTrays o h g k).isEmpty
    | none => true

/-- The final status a read of a line ends with, where it ends with one (R263, R264, R293, R297, R515), in the order
of R10. A dead home answers a request that was not sent to it; `sent` tells that one was, which its answer decides. -/
def State.readStatus (s : State) (o : Obj) (h l : Nat) (sent : Bool) : Option Nat :=
  if o.lost.contains l then some stLost
  else if o.poison.contains l || (kvGet? o.orphan l).isSome || (!sent && s.homeDead o h (granuleOfLine l) false) then
    some stPoison
  else if s.keyRetired o then some stKeyRetired
  else none

/-- Whether a write covers a line whole (R264, R297, R515). -/
def coversLine (pieces : List (Nat × Nat)) (l : Nat) : Bool :=
  (List.range 64).all (fun i => pieces.any (fun q => decide (q.1 ≤ 64 * l + i) && decide (64 * l + i < q.1 + q.2)))

/-- The final status a write of a line ends with, where it ends with one: LOST unless it covers the line (R515), a
dead home (R293), a retired key (R473). -/
def State.writeStatus (s : State) (o : Obj) (h l : Nat) (whole sent : Bool) : Option Nat :=
  if o.lost.contains l && !whole then some stLost
  else if !sent && s.homeDead o h (granuleOfLine l) true then some stPoison
  else if s.keyRetired o then some stKeyRetired
  else none

/-- The first of some final statuses in the order of R10. -/
def worst (l : List (Option Nat)) : Option Nat :=
  l.foldl (fun a b => match a, b with
    | some x, some y => some (stFirst x y)
    | some x, none => some x
    | none, y => y) none

/-- The object's bytes after a store, with what the store clears (R242, R264, R297, R515): a line written whole
loses its poison, orphan and LOST marks; the granules it touches count as written; a cached granule becomes dirty, and an eviction
of its extent that has not dropped it is cancelled (R261). -/
def Obj.store (o : Obj) (off : Nat) (bs : List Byte) : Obj :=
  let gs := blocksOf 4096 off bs.length
  let whole := (blocksOf 64 off bs.length).filter (coversLine [(off, bs.length)])
  { o with
    data := memWrite o.data off bs
    written := setInsAll o.written gs
    poison := o.poison.filter (fun l => !whole.contains l)
    orphan := o.orphan.filter (fun e => !whole.contains e.1)
    lost := o.lost.filter (fun l => !whole.contains l)
    extents := kvMapV (fun e x => { x with
      dirty := setInsAll x.dirty (gs.filter (fun g => decide (extentOf g = e) && x.present.contains g))
      evict := x.evict && !gs.any (fun g => decide (extentOf g = e)) }) o.extents }

/-- A touch of the extents that hold some granules, at an orbit (R258). -/
def Obj.touch (o : Obj) (gs : List Nat) (orbit : Nat) : Obj :=
  { o with extents := kvMapV (fun e x =>
      if gs.any (fun g => decide (extentOf g = e)) then { x with touch := orbit } else x) o.extents }

/-- The ranges of an operation: handle, offset, length, and whether it writes them. -/
def NmeArg.ranges : NmeArg → List (Nat × Nat × Nat × Bool)
  | .fill d off len _ => [(d, off, len, true)]
  | .copy a ao d off len => [(a, ao, len, false), (d, off, len, true)]
  | .compare a ao b bo len => [(a, ao, len, false), (b, bo, len, false)]
  | .reduce srcs d off _ _ len => srcs.map (fun q => (q.1, q.2, len, false)) ++ [(d, off, len, true)]
  | .publish h off _ _ => [(h, off, 8, true)]

/-- The length of an operation. -/
def NmeArg.len : NmeArg → Nat
  | .fill _ _ len _ => len
  | .copy _ _ _ _ len => len
  | .compare _ _ _ _ len => len
  | .reduce _ _ _ _ _ len => len
  | .publish _ _ _ _ => 8

end Sys2Proof.Machine
end

