-- ==== Sys2Proof/Machine/Operands.lean ====
section
/-!
DEFINITION. The operand forms of the Moon's instructions: the rule that unused fields are zero (R90, R91), the
effective predicate (R97), elements of vector registers and of scratch (R92), scratch windows (R99), table units
(R100), granted accumulators and walkers (R101, R152), and stream descriptors (R102, R128, R173).
-/
namespace Sys2Proof

/-- The format of a word; FP32 where the code names none, which a word that keeps to a shape never has. -/
def MWord.format (w : MWord) : Machine.Fmt := (Machine.Fmt.ofCode w.fmt.toNat).getD Machine.Fmt.fp32

/-- Bits [hi:lo] of IMM. -/
def MWord.immBits (w : MWord) (hi lo : Nat) : Nat := bitsOf hi lo w.imm.toNat
/-- Bits [hi:lo] of AUX. -/
def MWord.auxBits (w : MWord) (hi lo : Nat) : Nat := bitsOf hi lo w.aux.toNat
/-- Bit `i` of MOD. -/
def MWord.modBit (w : MWord) (i : Nat) : Bool := bitAt i w.md.toNat

/-- The descriptor an AUX field names in its low four bits (R127). -/
def MWord.desc (w : MWord) : BitVec 4 := BitVec.ofNat 4 (w.auxBits 3 0)

end Sys2Proof

namespace Sys2Proof.Machine

/-- The exception codes of R105 and R158. -/
inductive Exc where
  | fetch | illegal | scratch | table | xacc | handle | arithLimit
  | range | walker | route | ring | tile | data
  deriving DecidableEq, Repr

/-- The code of an exception in its record. -/
def Exc.code : Exc → Nat
  | .fetch => 0x01 | .illegal => 0x02 | .scratch => 0x03 | .table => 0x04 | .xacc => 0x05 | .handle => 0x06
  | .arithLimit => 0x07 | .range => 0x10 | .walker => 0x11 | .route => 0x12 | .ring => 0x13 | .tile => 0x14
  | .data => 0x15

/-- The status in the record of an exception raised at issue (R105, R158). -/
def Exc.status : Exc → Nat
  | .arithLimit => stAborted
  | .fetch => stAccess | .illegal => stAccess | .scratch => stAccess | .table => stAccess | .xacc => stAccess
  | .handle => stAccess | .range => stAccess | .walker => stAccess | .route => stAccess | .ring => stAccess
  | .tile => stAccess | .data => stPoison

/-! ### The instruction word -/

/-- The word of an instruction as the program object holds it, a number of 128 bits: its opcode and its other fields (R89). -/
def splitWord (n : Nat) : Nat × MWord :=
  (bitsOf 127 120 n,
   { fmt := BitVec.ofNat 4 (bitsOf 119 116 n), md := BitVec.ofNat 4 (bitsOf 115 112 n), pn := bitAt 111 n,
     pr := BitVec.ofNat 3 (bitsOf 110 108 n), dst := BitVec.ofNat 5 (bitsOf 107 103 n), sa := BitVec.ofNat 5 (bitsOf 102 98 n),
     sb := BitVec.ofNat 5 (bitsOf 97 93 n), sc := BitVec.ofNat 5 (bitsOf 92 88 n), aux := BitVec.ofNat 8 (bitsOf 87 80 n),
     rsv := BitVec.ofNat 16 (bitsOf 79 64 n), imm := BitVec.ofNat 64 (bitsOf 63 0 n) })

/-- The opcodes that the two instruction chapters list; every other raises ILLEGAL (R90, R127). -/
def opcodes : List Nat :=
  span 0x00 0x0F ++ span 0x10 0x20 ++ span 0x20 0x25 ++ [0x30, 0x40] ++ span 0x50 0x55 ++ span 0x60 0x68 ++ span 0x70 0x74 ++
  span 0x80 0x88 ++ span 0x90 0x96 ++ span 0x98 0x9A ++ span 0x9C 0xA0 ++ span 0xA0 0xA7

/-- Which of the two issue slots of R55 an instruction takes.
DEDUCED: assumption 20. -/
inductive IssueSlot where
  | compute | memory
  deriving DecidableEq, Repr

/-- The issue slot of an opcode (R55): the vector unit, MAC array, LAU, accumulators and expander (EXPD, 0x84), and KVENC
(0x87), which runs on the MAC array, share one, and every memory or control instruction takes the other.
DEDUCED: assumption 20. -/
def IssueSlot.of (opc : Nat) : IssueSlot :=
  if (0x10 ≤ opc ∧ opc < 0x80) ∨ opc = 0x84 ∨ opc = 0x87 then .compute else .memory

/-- The opcode of an instruction, which fields of its word it uses, and which values it lists (R90): register fields used,
masks of the bits of MOD, AUX and IMM it uses, and the FMT codes it lists. -/
structure Shape where
  opc : Nat
  dst : Bool := false
  sa  : Bool := false
  sb  : Bool := false
  sc  : Bool := false
  mods : Nat := 0
  aux : Nat := 0
  imm : Nat := 0
  fmts : List Nat := [0]
  predicated : Bool := true
  deriving DecidableEq, Repr

/-- Whether a word keeps to a shape: reserved bits and unused fields are zero and FMT is listed (R90, R91). -/
def Shape.ok (h : Shape) (w : MWord) : Bool :=
  decide (w.rsv = 0) && (h.dst || decide (w.dst = 0)) && (h.sa || decide (w.sa = 0)) &&
  (h.sb || decide (w.sb = 0)) && (h.sc || decide (w.sc = 0)) &&
  decide (w.md.toNat &&& (15 ^^^ h.mods) = 0) && decide (w.aux.toNat &&& (255 ^^^ h.aux) = 0) &&
  decide (w.imm.toNat &&& ((2 ^ 64 - 1) ^^^ h.imm) = 0) && h.fmts.contains w.fmt.toNat &&
  (h.predicated || (decide (w.pr = 0) && !w.pn))

/-- The format codes of VADD and its like (R112).
DEDUCED: assumption 24. -/
def fmtArith : List Nat := [0, 1, 2, 5, 6]
/-- Every format code (R91). -/
def fmtAny : List Nat := [0, 1, 2, 3, 4, 5, 6, 7]

/-! ### Registers -/

/-- Scalar register `i` (R93). -/
def Ctx.getS (x : Ctx) (i : BitVec 5) : Word := x.s[i.toNat]'i.isLt
/-- Scalar register `i` set. -/
def Ctx.setS (x : Ctx) (i : BitVec 5) (v : Word) : Ctx := { x with s := x.s.set i.toNat v i.isLt }
/-- Scalar register `i`, by number. -/
def Ctx.getSN (x : Ctx) (i : Nat) : Word := x.s.getD i 0
/-- Scalar register `i` set, by number; nothing past s31. -/
def Ctx.setSN (x : Ctx) (i : Nat) (v : Word) : Ctx := { x with s := x.s.setIfInBounds i v }
/-- Vector register `i`. -/
def Ctx.getV (x : Ctx) (i : BitVec 5) : BitVec 2048 := x.v[i.toNat]'i.isLt
/-- Vector register `i` set. -/
def Ctx.setV (x : Ctx) (i : BitVec 5) (v : BitVec 2048) : Ctx := { x with v := x.v.set i.toNat v i.isLt }
/-- Predicate `i`; p0 reads as all ones (R94). -/
def Ctx.getP (x : Ctx) (i : BitVec 3) : BitVec 256 := if i = 0 then BitVec.allOnes 256 else x.p[i.toNat]'i.isLt
/-- Predicate `i` set; a write to p0 is discarded (R94). -/
def Ctx.setP (x : Ctx) (i : BitVec 3) (v : BitVec 256) : Ctx :=
  if i = 0 then x else { x with p := x.p.set i.toNat v i.isLt }
/-- Predicate number named in low bits of a field. -/
def preg (n : Nat) : BitVec 3 := BitVec.ofNat 3 n
/-- Stream descriptor `i` (R93). -/
def Ctx.getD (x : Ctx) (i : BitVec 4) : Desc := x.st[i.toNat]'i.isLt
/-- Stream descriptor `i` set. -/
def Ctx.setD (x : Ctx) (i : BitVec 4) (d : Desc) : Ctx := { x with st := x.st.set i.toNat d i.isLt }
/-- Arrival counter `i` (R137). -/
def Ctx.getAc (x : Ctx) (i : BitVec 8) : BitVec 32 := x.ac[i.toNat]'i.isLt
/-- Arrival counter `i` set. -/
def Ctx.setAc (x : Ctx) (i : BitVec 8) (v : BitVec 32) : Ctx := { x with ac := x.ac.set i.toNat v i.isLt }

/-- An arrival counter gains 1 (R137). -/
def Ctx.gain (x : Ctx) (i : BitVec 8) : Ctx :=
  { x.setAc i (x.getAc i + 1) with arrived := kvSet x.arrived i.toNat (kvGet 0 x.arrived i.toNat + 1) }

/-- All ones in 256 bits, or none. -/
def pAll (b : Bool) : BitVec 256 := if b then BitVec.allOnes 256 else 0

/-- The effective predicate (R97). -/
def Ctx.epred (x : Ctx) (w : MWord) : BitVec 256 := if w.pn then ~~~ (x.getP w.pr) else x.getP w.pr

/-- Whether element `k` is enabled (R97). -/
def Ctx.enabled (x : Ctx) (w : MWord) (k : Nat) : Bool := (x.epred w).getLsbD k

/-! ### Elements (R92) -/

/-- Element `k` of a vector register. -/
def elemOf (f : Fmt) (v : BitVec 2048) (k : Nat) : Nat := (v.toNat / 2 ^ (f.width * k)) % 2 ^ f.width

/-- The vector register of elements `g 0` to `g (n - 1)`, each cut to the width. -/
def vecBuild (f : Fmt) : Nat → (Nat → Nat) → Nat
  | 0, _ => 0
  | n + 1, g => vecBuild f n g + (g n % 2 ^ f.width) * 2 ^ (f.width * n)

/-- A whole vector register of elements. -/
def vecOf (f : Fmt) (g : Nat → Nat) : BitVec 2048 := BitVec.ofNat 2048 (vecBuild f f.elems g)

/-- A predicate of the bits `g 0` to `g (n - 1)`, the rest clear. -/
def predBuild : Nat → (Nat → Bool) → Nat
  | 0, _ => 0
  | n + 1, g => predBuild n g + (if g n then 2 ^ n else 0)

/-- A predicate register of bits. -/
def predOf (n : Nat) (g : Nat → Bool) : BitVec 256 := BitVec.ofNat 256 (predBuild n g)

/-- An element moved into a scalar register (R92): signed formats are sign-extended. -/
def Fmt.extend (f : Fmt) (x : Nat) : Word :=
  match f with
  | .int8 => BitVec.ofInt 64 (toSigned 8 x)
  | .int32 => BitVec.ofInt 64 (toSigned 32 x)
  | g => BitVec.ofNat 64 (x % 2 ^ g.width)

/-- Elements 0 to n − 1 of a scratch operand of a format at a byte offset. -/
def Ctx.elems (x : Ctx) (f : Fmt) (a n : Nat) : List Nat :=
  (List.range n).map (fun k => memNat x.scratch (a + k * f.bytes) f.bytes)

/-- The bytes of some elements. -/
def elemBytes (f : Fmt) (l : List Nat) : List Byte := l.flatMap (natBytes f.bytes)

/-- The context with bytes written to its scratch. -/
def Ctx.putScratch (x : Ctx) (a : Nat) (bs : List Byte) : Ctx := { x with scratch := memWrite x.scratch a bs }

/-! ### Operand windows -/

/-- Whether a scratch range keeps to R99: inside the window and aligned.
DEDUCED: assumption 22. -/
def Ctx.scratchOk (x : Ctx) (a n align : Nat) : Bool := decide (a + n ≤ x.winBytes) && decide (a % align = 0)

/-- The ranges of the enabled elements among `n` of `len` bytes at a scratch offset; a disabled element is never read (R98). -/
def Ctx.laneRanges (x : Ctx) (w : MWord) (a len n : Nat) : List (Nat × Nat) :=
  ((List.range n).filter (fun k => x.enabled w k)).map (fun k => (a + len * k, len))

/-- Whether the enabled elements keep to R99; a disabled one raises nothing (R98).
DEDUCED: assumption 22. -/
def Ctx.lanesOk (x : Ctx) (w : MWord) (a len n align : Nat) : Bool :=
  (x.laneRanges w a len n).all (fun r => x.scratchOk r.1 r.2 align)

/-- Whether two byte ranges overlap. -/
def overlap (a n b m : Nat) : Bool := decide (0 < n) && decide (0 < m) && decide (a < b + m) && decide (b < a + n)

/-- Whether some table units are granted and aligned to their size (R100). -/
def Ctx.tableOk (x : Ctx) (u n align : Nat) : Bool := decide (u + n ≤ x.tunits) && decide (u % align = 0)

/-- Units of 256 B that a table of 256 entries of a format takes (R100). -/
def tableUnits (f : Fmt) : Nat := f.bytes

/-- Whether accumulators `a` to `a + n - 1` are granted (R101). -/
def Ctx.xaccOk (x : Ctx) (a n : Nat) : Bool := decide (a + n ≤ x.xa.length)

/-- Accumulator `a` (R101). -/
def Ctx.getX (x : Ctx) (a : Nat) : XAcc := x.xa.getD a XAcc.clear
/-- Accumulator `a` set. -/
def Ctx.setX (x : Ctx) (a : Nat) (v : XAcc) : Ctx := { x with xa := x.xa.set a v }

/-! ### Descriptors (R102) -/

/-- OFFSET. -/
def Desc.offset (d : Desc) : Nat := bitsOf 51 0 d.w0.toNat
/-- HANDLE. -/
def Desc.handle (d : Desc) : Nat := bitsOf 63 32 d.w1.toNat
/-- HGEN. -/
def Desc.hgen (d : Desc) : Nat := bitsOf 31 16 d.w1.toNat
/-- LENGTH. -/
def Desc.length (d : Desc) : Nat := bitsOf 63 32 d.w2.toNat
/-- STRIDE, signed. -/
def Desc.stride (d : Desc) : Int := toSigned 32 (bitsOf 31 0 d.w2.toNat)
/-- RECLEN. -/
def Desc.reclen (d : Desc) : Nat := bitsOf 63 48 d.w3.toNat
/-- KIND: 0 linear, 1 strided, 2 gather, 3 compressed. -/
def Desc.kind (d : Desc) : Nat := bitsOf 39 36 d.w3.toNat
/-- FMT. -/
def Desc.fmt (d : Desc) : Nat := bitsOf 35 32 d.w3.toNat
/-- WR. -/
def Desc.wr (d : Desc) : Bool := bitAt 1 d.w3.toNat
/-- RD. -/
def Desc.rd (d : Desc) : Bool := bitAt 0 d.w3.toNat
/-- Invalid: RD and WR both 0 (R104). -/
def Desc.invalid (d : Desc) : Bool := !d.rd && !d.wr

/-- The form SDSET demands of W3, which is its IMM (R103). -/
def w3FormOk (w3 : Word) : Bool :=
  let d : Desc := ⟨0, 0, 0, w3⟩
  decide (bitsOf 47 40 w3.toNat = 0) && decide (bitsOf 31 2 w3.toNat = 0) &&
  decide (d.kind < 4) && decide (d.fmt < 8) && !d.invalid &&
  !((decide (d.kind = 1) || decide (d.kind = 2)) && decide (d.reclen = 0))

/-- The form SDSET demands of a whole descriptor (R103).
DEDUCED: assumption 21. -/
def Desc.formOk (d : Desc) : Bool :=
  decide (bitsOf 63 52 d.w0.toNat = 0) && decide (bitsOf 15 0 d.w1.toNat = 0) &&
  decide (d.length ≠ 0) && w3FormOk d.w3

/-! ### Outcomes of an instruction at issue -/

/-- What an instruction does at issue. -/
inductive IRes where
  /-- It has its effect on the context; the PC advances by 16. -/
  | ok (x : Ctx)
  /-- It has its effect on the context, which names the next PC itself. -/
  | jump (x : Ctx)
  /-- It does not issue now and the strand is charged for the reason given. -/
  | stall (w : Wait)
  /-- It raises an exception and has no effect (R106). -/
  | exc (e : Exc)
  deriving DecidableEq, Repr

/-- The first check that fails, in the order of the list (R108). -/
def firstFail : List (Bool × Exc) → Option Exc
  | [] => none
  | (ok, e) :: r => if ok then firstFail r else some e

/-- The instruction's body behind its checks in order (R106, R108). -/
def checked (cs : List (Bool × Exc)) (body : IRes) : IRes :=
  match firstFail cs with
  | some e => .exc e
  | none => body

end Sys2Proof.Machine
end

