-- ==== Sys2Proof/Machine/Issue.lean ====
section
/-!
DEFINITION. How an instruction of a strand issues: who may issue (R55, R43, R485), the fetch (R89, R105), the field
rules (R90, R91), predication of whole instructions (R97), the order of checks (R108), and the raising of an
exception (R107, R374).
-/
namespace Sys2Proof.Machine

/-- Whether the strand of a context may issue now: it is resident with a run in progress, waits on nothing, and
neither an orbit swap, a partition reset, a fence nor an abort holds it (R43, R45, R485, R491). -/
def State.mayIssue (s : State) (x : Ctx) : Bool :=
  decide (x.phase = .resident) && !x.issued && x.running && !x.held && !x.abortPending && x.outst.isNone && x.atOrbit.isNone &&
  !(s.part x.part).held && !(s.part x.part).fenced && (s.part x.part).resetDue.isNone

/-- The context that may issue from a slot (R16). -/
def State.issuer (s : State) (slot : Nat) : Option (Nat × Ctx) :=
  match s.occupant slot with
  | some c =>
    match s.ctx? c with
    | some x => if s.mayIssue x && s.moonInService (slot / 8) then some (c, x) else none
    | none => none
  | none => none

/-- Whether an issue slot of the Moon of a strand is taken in this ARITH cycle (R55). -/
def State.slotTaken (s : State) (slot : Nat) (u : IssueSlot) : Bool :=
  match u with
  | .compute => (s.moon (slot / 8)).tookCompute
  | .memory => (s.moon (slot / 8)).tookMemory

/-- A strand issues to a slot of its Moon: the slot is taken for this ARITH cycle (R55).
DESIGN CHOICE: assumption 1. DEDUCED: assumption 20. -/
def State.noteIssue (s : State) (slot : Nat) (u : IssueSlot) : State :=
  s.modMoon (slot / 8) (fun m => match u with
    | .compute => { m with lastCompute := slot % 8, tookCompute := true }
    | .memory => { m with lastMemory := slot % 8, tookMemory := true })

/-- The compressed streams of a context end with it (R178). -/
def State.dropStreams (s : State) (c : Nat) (x : Ctx) : State :=
  match x.slot with
  | some sl =>
    if (s.moon (sl / 8)).streams.any (fun t => decide (t.ctx = c)) then
      s.modMoon (sl / 8) (fun m => { m with streams := m.streams.filter (fun t => decide (t.ctx ≠ c)) })
    else s
  | none => s

/-- An exception of a context (R107): an EXCEPTION record to the partition's queue, which opens a handling window on
the context (R486), the count of R374, and the context's abort becomes due. A context whose abort has begun raises
none (R489).
DEDUCED: assumption 14. -/
def State.raise (s : State) (c : Nat) (x : Ctx) (code status pc : Nat) : State :=
  if x.abortPending then s
  else
    let s1 := s.appendPart (Rec.ofPart x.part status clsException code 1 (x.job * 2 ^ 32 + x.ref c) pc s.now)
    let s2 := s1.openWindow x.part (.context c)
    let s3 := s2.modPart x.part (fun p => { p with faults := p.faults + 1 })
    let fm := s3.fget Reg.CTX_CFG_FAULT_MAX []
    let s4 := if fm ≠ 0 ∧ fm ≤ (s3.part x.part).faults then s3.triggerReset x.part 1 else s3
    (s4.modCtx c (fun y => { y with abortPending := true, outst := none })).dropStreams c x

/-- An exception that an instruction raises at issue: the cycle is charged ISSUE (R57). -/
def State.raiseAt (s : State) (slot c : Nat) (x : Ctx) (e : Exc) (u : IssueSlot) : State :=
  ((s.raise c x e.code e.status x.pc).modCtx c (fun y => { y with issued := true })).noteIssue slot u

/-- Whether the PC is aligned and inside the program object (R105).
DESIGN CHOICE: assumption 19. -/
def State.fetchOk (s : State) (x : Ctx) : Bool :=
  match s.objOfRef x.prog with
  | some o => decide (x.pc % 16 = 0) && decide (x.pc + 16 ≤ o.size)
  | none => false

/-- The opcode and the other fields of the word at the PC (R89). -/
def State.wordAtPc (s : State) (x : Ctx) : Nat × MWord :=
  match s.objOfRef x.prog with
  | some o => splitWord (memNat o.data x.pc 16)
  | none => splitWord 0

/-- Whether a strand holds the line of its program that the PC lies in, as its last fetch brought it.
DESIGN CHOICE: assumption 19. -/
def Ctx.holdsCode (x : Ctx) : Bool := x.code == some (lineOf x.pc)

/-- A PC as the 64-bit register holds it (R93). -/
def wrapPc (n : Nat) : Nat := n % 2 ^ 64

/-- The context after an instruction that does not branch and that did not wait: the PC advances by 16 (R89), the cycle is
charged ISSUE (R56). -/
def Ctx.advance (x : Ctx) : Ctx := { x with pc := wrapPc (x.pc + 16), issued := true, wait := .none }

/-- The context whose waiting instruction has been answered: the PC advances by 16. Its issue was charged before. -/
def Ctx.resume (x : Ctx) : Ctx := { x with pc := wrapPc (x.pc + 16), outst := none, wait := .none }

/-- The state after an instruction's outcome at issue. -/
def State.settle (s : State) (slot c : Nat) (x : Ctx) (u : IssueSlot) (r : IRes) : State :=
  match r with
  | .ok y => (s.setCtx c y.advance).noteIssue slot u
  | .jump y => (s.setCtx c { y with issued := true, wait := .none }).noteIssue slot u
  | .stall w => s.setCtx c { x with wait := w }
  | .exc e => s.raiseAt slot c x e u

end Sys2Proof.Machine
end

