-- ==== Sys2Proof/Machine/MemOps.lean ====
section
/-!
DEFINITION. Reading and writing objects: the effect of stores, atomics and publications at the home (R134, R135,
R242, R281, R284), the digest terms and forwarded inputs a write makes (R522, R524), and the address forms of the
stream descriptors (R128, R173).
-/
namespace Sys2Proof.Machine

/-- A term added to the running digest of a partition that is shadowed or a shadow (R524). -/
def State.digestAdd (s : State) (p : Nat) (term : List Nat) : State :=
  s.modPart p (fun x => { x with shadow := x.shadow.map (fun h =>
    if h.joined then { h with digest := h.digest + Config.digestTerm h.key term } else h) })

/-- A shadowing fails (R527): MIRROR records of code 9, the peer is told, forwarding ends, and on the shadow the abort of
every context of the partition becomes due. The causes are those of GLB_SHD_STAT (R530). -/
def State.shadowFail (s : State) (p cause : Nat) : State :=
  match (s.part p).shadow with
  | none => s
  | some h =>
    let pbr := s.fget Reg.GLB_SHD_CTRL_PEER_PBR [p]
    let s1 := s.modPart p (fun x => { x with
      shadow := none
      held := if h.leader then x.held else false
      shadowState := 5
      shadowCause := cause })
    let s2 := (s1.appendBoth (Rec.ofPart p stAborted clsMirror 9 0 cause pbr s.now)).emit
      (.shadow pbr (s.fget Reg.GLB_SHD_CTRL_PEER_PART [p]) (.failed cause))
    if h.leader then s2
    else { s2 with ctxs := kvMapV (fun _ x => if x.part = p then { x with abortPending := true } else x) s2.ctxs }

/-- The bytes a forwarded input takes in the forward buffer (R522). -/
def ShadowInput.bytes : ShadowInput → Nat
  | .descriptor _ d => d.length
  | .store _ _ b => b.length
  | .publish _ _ _ _ => 24
  | .message _ m => m.header.length + m.payload.length

/-- The bytes of forwarded input that stand unsent. -/
def Shadow.unsent (h : Shadow) : Nat := (h.backlog.map ShadowInput.bytes).sum

/-- An input a leader forwards to its shadow (R522), while it is joined and not yet promoted; a buffer of 64 MiB that is
full fails the shadowing with cause LAG.
DEDUCED: assumption 28. -/
def State.forward (s : State) (p : Nat) (i : ShadowInput) : State :=
  match (s.part p).shadow with
  | none => s
  | some h =>
    if h.leader && h.joined then
      if 64 * 2 ^ 20 ≤ h.unsent + i.bytes then s.shadowFail p 3
      else s.modPart p (fun x => { x with shadow := some { h with backlog := h.backlog ++ [i] } })
    else s

/-- Bytes written to an object at its home: content, marks, touch (R242, R258, R264), and the digest term (R524). -/
def State.storeObj (s : State) (h off : Nat) (bs : List Byte) : State :=
  match s.obj? h with
  | none => s
  | some o =>
    let p := handlePart h
    let s1 := s.modObj h (fun o => (o.store off bs).touch (blocksOf 4096 off bs.length) (s.part p).orbit)
    if o.decl = 0 ∨ bs.isEmpty then s1 else s1.digestAdd p (1 :: o.decl :: off :: bs.map (fun b => b.toNat))

/-- The marks of the lines that some pieces cover together (R264, R297, R515). -/
def Obj.clearCovered (o : Obj) (skip : NatSet) (ps : List (Nat × List Byte)) : Obj :=
  let done := fun (l : Nat) => coversLine (ps.map (fun q => (q.1, q.2.length))) l && !skip.contains l
  { o with
    poison := o.poison.filter (fun l => !done l)
    orphan := o.orphan.filter (fun e => !done e.1)
    lost := o.lost.filter (fun l => !done l) }

/-- Some bytes written, but for the lines a combiner has already applied (R287); lines that the pieces together write whole
lose their marks (R264). -/
def State.storePieces (s : State) (h : Nat) (skip : NatSet) (ps : List (Nat × List Byte)) : State :=
  (ps.foldl (fun t q =>
    (blocksOf 64 q.1 q.2.length).foldl (fun u l =>
      if skip.contains l then u
      else
        let lo := max q.1 (64 * l)
        let hi := min (q.1 + q.2.length) (64 * l + 64)
        u.storeObj h lo ((q.2.drop (lo - q.1)).take (hi - lo))) t) s).modObj h (fun o => o.clearCovered skip ps)

/-- The new word of an AMO (R134). -/
def amoNew (code old operand cmp : Nat) : Nat :=
  match code with
  | 0 => (old + operand) % 2 ^ 64
  | 1 => old &&& operand
  | 2 => old ||| operand
  | 3 => old ^^^ operand
  | 4 => if toSigned 64 old ≤ toSigned 64 operand then old else operand
  | 5 => if toSigned 64 operand ≤ toSigned 64 old then old else operand
  | 6 => operand
  | _ => if old = cmp then operand else old

/-- The 8-byte word of an object at an offset. -/
def State.wordAt (s : State) (h off : Nat) : Nat :=
  match s.obj? h with
  | some o => memNat o.data off 8
  | none => 0

/-- An AMO performed at the word's home (R134): the state after it and the word as found. Its digest term holds the
operation and operand (R524). -/
def State.doAmo (s : State) (h off code operand cmp : Nat) : State × Nat :=
  let old := s.wordAt h off
  let p := handlePart h
  let s1 := s.modObj h (fun o =>
    (o.store off (natBytes 8 (amoNew code old operand cmp))).touch (blocksOf 4096 off 8) (s.part p).orbit)
  match s.obj? h with
  | some o => (if o.decl = 0 then s1 else s1.digestAdd p [2, o.decl, off, code, operand, cmp], old)
  | none => (s1, old)

/-- A version compare-and-swap at the word's home (R135, R284, R285): the state after it and the word as found. -/
def State.doPublish (s : State) (h off expected new : Nat) : State × Nat :=
  let old := s.wordAt h off
  if old = expected then (s.storeObj h off (natBytes 8 new), old) else (s, old)

/-- The effect on its object of a store, AMO or PUB that completes; the state and the word found. -/
def State.applyWrite (s : State) (q : Outst) : State × Nat :=
  match q.op with
  | .store ps => (s.storePieces q.handle q.applied ps, 0)
  | .amo off code operand cmp _ =>
    (match q.found with
     | some f => (s, f)
     | none => s.doAmo q.handle off code operand cmp)
  | .pub off expected new _ _ =>
    (match q.found with
     | some f => (s, f)
     | none => s.doPublish q.handle off expected new)
  | _ => (s, 0)

/-! ### Address forms (R128) -/

/-- The records of a stream instruction: object offset and length of each, in order, as R128 computes them; offsets
are exact integers. `start` is s[SB] and `index` gives x(r) of the gather kind. -/
def streamRecords (d : Desc) (start : Word) (n : Nat) (index : Nat → Nat) : List (Int × Nat) :=
  match d.kind with
  | 0 => [((d.offset : Int) + (start.toNat : Int), n)]
  | 1 => (List.range n).map (fun (r : Nat) => ((d.offset : Int) + (start.toInt + (r : Int)) * d.stride, d.reclen))
  | _ => (List.range n).map (fun (r : Nat) => ((d.offset : Int) + ((index r : Nat) : Int) * (d.reclen : Int), d.reclen))

/-- Whether every touched byte lies in the window of the descriptor (R128). -/
def inWindow (d : Desc) (rs : List (Int × Nat)) : Bool :=
  rs.all (fun r => decide ((d.offset : Int) ≤ r.1) && decide (r.1 + (r.2 : Int) ≤ (d.offset : Int) + (d.length : Int)))

/-- The records that lie in the window of the descriptor: those alone an instruction will touch (R104, R195, R197).
DEDUCED: assumption 69. -/
def windowed (d : Desc) (rs : List (Int × Nat)) : List (Int × Nat) := rs.filter (fun r => inWindow d [r])

/-- Whether every touched byte lies in the object (R104). -/
def inObject (size : Nat) (rs : List (Int × Nat)) : Bool :=
  rs.all (fun r => decide (0 ≤ r.1) && decide (r.1 + (r.2 : Int) ≤ (size : Int)))

/-- The records with their scratch offsets: record r lies at s[SA] + r × RECLEN (R128). -/
def streamPieces (a : Nat) (rs : List (Int × Nat)) : List (Nat × Nat × Nat) :=
  (rs.foldl (fun (acc : List (Nat × Nat × Nat) × Nat) r => ((r.1.toNat, r.2, acc.2) :: acc.1, acc.2 + r.2))
    ([], a)).1.reverse

/-- Bytes moved on the object side. -/
def streamBytes (rs : List (Int × Nat)) : Nat := rs.foldl (fun a r => a + r.2) 0

/-- The lines some object ranges touch. -/
def linesOf (rs : List (Nat × Nat)) : NatSet := rs.foldl (fun a r => setInsAll a (blocksOf 64 r.1 r.2)) []

/-- The check of R104 on behalf of a partition and tenant, but for the byte range: registered with that HGEN, owned,
and holding the rights. -/
def State.refOk (s : State) (ref part tenant : Nat) (rd wr : Bool) : Bool :=
  match s.objOfRef ref with
  | some o => decide (handlePart (refHandle ref) = part) && decide (o.tenant = tenant) &&
      (!rd || o.rd) && (!wr || o.wr)
  | none => false

end Sys2Proof.Machine
end

