-- ==== Sys2Proof/Machine/Steep.lean ====
section
/-!
DEFINITION. Steep lists and the windows of the contexts they are bound to (R252 to R256): what a list names, the extents
it protects, and what the end of a protection does (R258).
-/
namespace Sys2Proof.Machine

/-- The handles of a partition's objects with the objects. -/
def State.objsOf (s : State) (p : Nat) : KV Obj := s.objs.filter (fun e => decide (handlePart e.1 = p))

/-- A steep list's LEAD, E and LOOP (R252). -/
def steepHeader (o : Obj) : Nat × Nat × Bool :=
  (memNat o.data 6 2, memNat o.data 8 4, bitAt 0 (memNat o.data 12 1))

/-- Entry `i` of a steep list: DECL, OFFSET, LENGTH, ONCE (R252). -/
def steepEntry (o : Obj) (i : Nat) : Nat × Nat × Nat × Bool :=
  (memNat o.data (64 + 32 * i) 4, memNat o.data (72 + 32 * i) 8, memNat o.data (80 + 32 * i) 8,
   bitAt 0 (memNat o.data (88 + 32 * i) 1))

/-- The entry at distance `d` ahead of position `p` in a list, modulo E under LOOP (R254). -/
def steepAhead (lead : Nat × Nat × Bool) (p d : Nat) : Option Nat :=
  let e := lead.2.1
  if lead.2.2 then (if e = 0 then none else some ((p + d) % e))
  else if p + d < e then some (p + d) else none

/-- The object of a partition with a declaration number (R253). -/
def State.objOfDecl (s : State) (p decl : Nat) : Option (Nat × Obj) :=
  if decl = 0 then none else (s.objsOf p).find? (fun e => decide (e.2.decl = decl))

/-- The granules of an entry's range; LENGTH 0 means to the end of the object (R252). -/
def entryGranules (o : Obj) (off len : Nat) : List Nat :=
  blocksOf 4096 off (min (if len = 0 then o.size - off else len) (o.size - off))

/-- The extents protected for a context's window (R256). -/
def State.protectedBy (s : State) (x : Ctx) : List (Nat × Nat) :=
  match x.steep with
  | none => []
  | some (lh, pos) =>
    match s.obj? lh with
    | none => []
    | some l =>
      let hd := steepHeader l
      (span 1 (hd.1 + 1)).flatMap (fun d =>
        match steepAhead hd pos d with
        | none => []
        | some i =>
          let e := steepEntry l i
          match s.objOfDecl x.part e.1 with
          | some (h, o) => if cacheClass o.cls then
              ((entryGranules o e.2.1 e.2.2.1).map (fun g => (h, extentOf g))).eraseDups else []
          | none => [])

/-- Whether an extent is protected by the window of a bound context (R256). -/
def State.isProtected (s : State) (h e : Nat) : Bool :=
  s.ctxs.any (fun c => decide (c.2.part = handlePart h) && (s.protectedBy c.2).contains (h, e))

/-- A touch of one extent, at an orbit (R258). -/
def Obj.touchExtent (o : Obj) (e orbit : Nat) : Obj :=
  { o with extents := kvMod o.extents e (fun x => { x with touch := orbit }) }

/-- The protection of some extents has ended where no window covers them any more, which is a touch (R256, R258). -/
def State.endProtection (s : State) (l : List (Nat × Nat)) : State :=
  l.foldl (fun (t : State) x => if t.isProtected x.1 x.2 then t
    else t.modObj x.1 (fun o => o.touchExtent x.2 (t.part (handlePart x.1)).orbit)) s

/-- The binding of a context to its steep list, or to none, changes; the protections its old window gave end where no other
window gives them (R253, R256, R258). -/
def State.bindSteep (s : State) (c : Nat) (b : Option (Nat × Nat)) : State :=
  match s.ctx? c with
  | none => s
  | some x => (s.setCtx c { x with steep := b }).endProtection (s.protectedBy x)

end Sys2Proof.Machine
end

