-- ==== Sys2Proof/Machine/Contexts.lean ====
section
/-!
DEFINITION. Shared operations on tracked contexts: the end of a run (R353, R359), the release of a context's grants,
claims and number (R360, R491), and what an abort does to its outstanding work (R491).
-/
namespace Sys2Proof.Machine

/-- The members of a queue pair's group, in ascending context number (R353). -/
def State.group (s : State) (q : Nat) : List Nat :=
  (s.ctxs.filter (fun e => decide (e.2.qp = q))).map (fun e => e.1)

/-- The outcome of a RUN whose members have all ended (R353): OK when every run ended at HALT, else ABORTED, with s1
and s2 of the lowest-numbered member that halted. A request that a reference program refuses ends by its members' runs.
DESIGN CHOICE: assumption 64. -/
def runOutcome (halted : List (Nat × Nat × Nat)) (anyAborted : Bool) : Service :=
  let low := halted.foldl (fun (a : Option (Nat × Nat × Nat)) h => match a with
    | some b => if h.1 < b.1 then some h else some b
    | none => some h) none
  match low with
  | some (_, a, b) => .done (if anyAborted then stAborted else stOk) a b
  | none => .done (if anyAborted then stAborted else stOk) 0 0

/-- A member's run in the RUN in service on its queue pair has ended: at HALT with s1 and s2, or otherwise. -/
def State.endRun (s : State) (c qp : Nat) (halt : Option (Nat × Nat)) : State :=
  s.modQp qp (fun q => match q.service with
    | some (d, .run opn halted ab) =>
      if opn.contains c then
        let opn' := opn.filter (fun x => decide (x ≠ c))
        let halted' := match halt with
          | some (a, b) => (c, a, b) :: halted
          | none => halted
        let ab' := ab || halt.isNone
        { q with service := some (d, if opn'.isEmpty then runOutcome halted' ab' else .run opn' halted' ab') }
      else q
    | _ => q)

/-- The tile claims of a context are released: each node is claimable again on the same Moon (R150). -/
def State.releaseClaims (s : State) (p c : Nat) : State :=
  s.modPart p (fun x => { x with steps := x.steps.map (fun t =>
    { t with claims := kvFilter (fun _ o => decide (o ≠ c)) t.claims }) })

/-- Whether a comet or instruction has been admitted: none of its requests to trays still waits in the crossbar or for a
tag (R318, R491).
DESIGN CHOICE: assumption 41. -/
def State.admitted (s : State) (o : ReqOwner) : Bool :=
  !(s.reqs.any (fun r => decide (r.owner = o) && decide (r.tier = 2) &&
    (decide (r.state = .queued) || decide (r.state = .needsTag))))

/-- The stores of a context already admitted complete at their homes (R491); its other outstanding work is discarded,
and requests that never took a tag are dropped; answers of the others free their tags on arrival.
DEDUCED: assumption 18. -/
def State.dropWork (s : State) (c : Nat) (x : Ctx) : State :=
  let qs := (match x.outst with
    | some q => [(ReqOwner.instr c q.id, q)]
    | none => []) ++ x.comets.map (fun q => (ReqOwner.comet c q.id, q))
  let s1 := qs.foldl (fun t q => if q.2.write && t.admitted q.1 then (t.applyWrite q.2).1 else t) s
  { s1 with reqs := s1.reqs.filter (fun r =>
      !((match r.owner with
         | .instr d _ => decide (d = c)
         | .comet d _ => decide (d = c)
         | .accel _ => false
         | _ => false) && (decide (r.state = .queued) || decide (r.state = .needsTag) || decide (r.tier = 1)))) }

/-- A closed or aborted context leaves the device (R360): its claims, grants, receive ring, slot, steep list and
group membership end with it, and its number is free; the protections of its window end (R258). Its cycle counts leave with it. -/
def State.removeCtx (s : State) (c : Nat) : State :=
  match s.ctx? c with
  | none => s
  | some x =>
    let s1 := s.releaseClaims x.part c
    let s2 := match x.slot with
      | some sl => s1.modMoon (sl / 8) (fun m => { m with
          engines := m.engines.filter (fun e => decide (e.slot ≠ sl))
          streams := m.streams.filter (fun t => decide (t.ctx ≠ c)) })
      | none => s1
    { s2.bindSteep c none with ctxs := kvDel s2.ctxs c }

/-- A close that waits for the run of `c` to end now ends: the context is released and the descriptor is done with
OK (R360). -/
def State.finishCloses (s : State) (c : Nat) : State :=
  match s.qps.find? (fun e => match e.2.service with
    | some (_, .close d) => decide (d = c)
    | _ => false) with
  | none => s
  | some (q, _) =>
    (s.removeCtx c).modQp q (fun y => { y with service := y.service.map (fun v => (v.1, .done stOk 0 0)) })

end Sys2Proof.Machine
end

