-- ==== Sys2Proof/Machine/Routes.lean ====
section
/-!
DEFINITION. The window table (R274), the entries of route maps (R365), which accelerators an entry is for (R295), and
the assignment of PBR IDs to ports and of ports to groups.
-/
namespace Sys2Proof.Machine

/-! ### Route-map entries (R365) -/

/-- KIND of an entry: 0 empty, 1 aperture, 2 doorbell, 3 message destination, 4 message source. -/
def reKind (e : List Byte) : Nat := field e 0 1
/-- CLASS of an aperture or doorbell. -/
def reClass (e : List Byte) : Nat := field e 1 1
/-- COH of an aperture. -/
def reCoh (e : List Byte) : Bool := bitAt 0 (field e 2 1)
/-- READONLY of an aperture. -/
def reReadOnly (e : List Byte) : Bool := bitAt 1 (field e 2 1)
/-- LOCAL of a message destination. -/
def reLocal (e : List Byte) : Bool := bitAt 0 (field e 2 1)
/-- JOB. -/
def reJob (e : List Byte) : Nat := field e 4 4
/-- ADDR of an aperture or doorbell. -/
def reAddr (e : List Byte) : Nat := field e 8 8
/-- The object reference of an aperture. -/
def reRef (e : List Byte) : Nat := field e 16 8
/-- PAGES of an aperture. -/
def rePages (e : List Byte) : Nat := field e 24 4
/-- OFFP, in 4 KiB: bits [39:32] in byte 3, bits [31:0] in bytes 28 to 31. -/
def reOffp (e : List Byte) : Nat := field e 3 1 * 2 ^ 32 + field e 28 4
/-- The queue pair of a doorbell. -/
def reQp (e : List Byte) : Nat := field e 16 2
/-- PBR ID of a message destination. -/
def rePbr (e : List Byte) : Nat := field e 8 2 % 4096
/-- Partition of a message destination. -/
def rePart (e : List Byte) : Nat := field e 10 1
/-- Context reference of a message destination. -/
def reCtx (e : List Byte) : Nat := field e 12 4
/-- PBR_LO of a message source. -/
def rePbrLo (e : List Byte) : Nat := field e 8 2
/-- PBR_HI of a message source. -/
def rePbrHi (e : List Byte) : Nat := field e 10 2
/-- SRC_PART of a message source. -/
def reSrcPart (e : List Byte) : Nat := field e 12 1
/-- The receiving context reference of a message source. -/
def reRecv (e : List Byte) : Nat := field e 16 4

/-- The bytes of address space an aperture (PAGES × 4 KiB) or doorbell (64 B) covers. -/
def reSpan (e : List Byte) : Nat := if reKind e = 1 then rePages e * 4096 else if reKind e = 2 then 64 else 0

/-- Whether an aperture or doorbell entry covers an address. -/
def reCovers (e : List Byte) (a : Nat) : Bool := decide (reAddr e ≤ a) && decide (a < reAddr e + reSpan e)

/-! ### Windows (R274) -/

/-- Whether window `w` is in use and admits a source. -/
def State.winAdmits (s : State) (w pbr : Nat) : Bool :=
  s.fget Reg.PART_WIN_A_VALID [w] == 1 && decide (s.fget Reg.PART_WIN_A_SRC_LO [w] ≤ pbr) &&
  decide (pbr ≤ s.fget Reg.PART_WIN_A_SRC_HI [w])

/-- The first byte of a window. -/
def State.winBase (s : State) (w : Nat) : Nat := s.fget Reg.PART_WIN_B_BASE [w] * 2 ^ 30
/-- The size of a window in bytes. -/
def State.winSize (s : State) (w : Nat) : Nat := s.fget Reg.PART_WIN_B_SIZE_GIB [w] * 2 ^ 30

/-- Whether window `w` holds an address. -/
def State.winHolds (s : State) (w a : Nat) : Bool := decide (s.winBase w ≤ a) && decide (a < s.winBase w + s.winSize w)

/-- The lowest-numbered window that admits a source and holds an address (R275, step 2). -/
def State.findWindow (s : State) (pbr a : Nat) : Option Nat :=
  (List.range 4096).find? (fun w => s.winAdmits w pbr && s.winHolds w a)

/-- Whether a valid window of a partition holds a whole range (R366). -/
def State.windowHoldsRange (s : State) (p a n : Nat) : Bool :=
  (List.range 4096).any (fun w => s.fget Reg.PART_WIN_A_VALID [w] == 1 && s.fget Reg.PART_WIN_A_PART [w] == p &&
    s.winHolds w a && decide (a + n ≤ s.winBase w + s.winSize w))

/-- Whether a valid window of partition `p` that holds the entry's range admits a PBR ID: the entry is for that
accelerator (R295). -/
def State.entryFor (s : State) (p : Nat) (e : List Byte) (pbr : Nat) : Bool :=
  (List.range 4096).any (fun w => s.winAdmits w pbr && s.fget Reg.PART_WIN_A_PART [w] == p &&
    s.winHolds w (reAddr e) && decide (reAddr e + reSpan e ≤ s.winBase w + s.winSize w))

/-! ### Ports -/

/-- The PBR ID assigned to a port, where one is (R543). -/
def State.pbrOfPort (s : State) (n : Nat) : Option Nat :=
  if s.fget Reg.MGT_DISC_PBR_VALID [n] = 1 then some (s.fget Reg.MGT_DISC_PBR [n]) else none

/-- The port group of a port (R453), where one is assigned. -/
def State.groupOf (s : State) (n : Nat) : Option Nat :=
  (List.range 64).find? (fun g => s.fget Reg.PART_PGRP_VALID [g] == 1 && decide (s.fget Reg.PART_PGRP_PORT_LO [g] ≤ n) &&
    decide (n ≤ s.fget Reg.PART_PGRP_PORT_HI [g]))

/-- Whether a PBR ID lies in the range of a port's group. -/
def State.groupHolds (s : State) (n pbr : Nat) : Bool :=
  match s.groupOf n with
  | some g => decide (s.fget Reg.PART_PGRP_PBR_LO [g] ≤ pbr) && decide (pbr ≤ s.fget Reg.PART_PGRP_PBR_HI [g])
  | none => false

/-- The sealed role of a port: 0 none, 1 accelerator, 2 tray, 3 peer (R377). -/
def State.role (s : State) (n : Nat) : Nat := s.fget Reg.LINK_PORT_CFG_ROLE [n]

/-- Whether a port is in ACTIVE (R415). -/
def State.active (s : State) (n : Nat) : Bool := decide (n < 256) && s.fget Reg.LINK_PORT_STAT_STATE [n] == 6

/-- Whether both IDE streams of a port's link are established (R391). -/
def State.secure (s : State) (n : Nat) : Bool := s.fget Reg.LINK_IDE_STAT_STATE [n] == 2

/-- Whether the PBR IDs a link needs are assigned: on accelerator and peer links the device's own and the port's (R379,
R542). -/
def State.addressed (s : State) (n : Nat) : Bool :=
  decide (s.role n = 2) || (s.ownPbr.isSome && (s.pbrOfPort n).isSome)

/-- The peer port a run for another device leaves through (R381): the lowest-numbered one in ACTIVE whose group holds the
PBR ID; and whether any group does. -/
def State.transitPort (s : State) (pbr : Nat) : Option Nat × Bool :=
  let ps := (List.range 256).filter (fun n => decide (s.role n = 3) && s.groupHolds n pbr)
  (ps.find? s.active, !ps.isEmpty)

/-- The role of the partner at a port as MGT_DISC shows it (R542). -/
def State.discRole (s : State) (n : Nat) : Nat := s.fget Reg.MGT_DISC_ROLE [n]

/-- The port a message to a device leaves through: the lowest-numbered peer port in service that holds its PBR ID, else
none, numbered 271 (R379, R381). -/
def State.peerPort (s : State) (pbr : Nat) : Nat :=
  ((List.range 256).find? (fun n => s.fget Reg.LINK_PORT_CFG_ROLE [n] == 3 && s.pbrOfPort n == some pbr &&
    s.fget Reg.LINK_PORT_STAT_STATE [n] == 6)).getD 271

/-- The quadrant slice of the Moon where the context of a reference is resident, the first where it is not. -/
def State.sliceOfRef (s : State) (r : Nat) : Nat :=
  match s.ctxOfRef r with
  | some c => (match s.ctx? c with
    | some x => 256 + (x.slot.getD 0) / 128
    | none => 256)
  | none => 256

/-- The ports whose accelerators the coherent apertures on an object admit: the sharers of a wide line (R290). -/
def State.coherentPorts (s : State) (p h : Nat) : List Nat :=
  let es := (kvVals (s.part p).routeCur.entries).filter (fun e =>
    decide (reKind e = 1) && reCoh e && decide (refHandle (reRef e) = h))
  (List.range 256).filter (fun n => match s.pbrOfPort n with
    | some b => es.any (fun e => s.entryFor p e b)
    | none => false)

/-- The jobs an accelerator is attached to, with their partitions (R295). -/
def State.attachedJobs (s : State) (pbr : Nat) : List (Nat × Nat) :=
  (partIds.flatMap (fun p =>
    ((kvVals (s.part p).routeCur.entries).filter (fun e =>
      (decide (reKind e = 1) || decide (reKind e = 2)) && s.entryFor p e pbr)).map (fun e => (p, reJob e)))).eraseDups

end Sys2Proof.Machine
end

