-- ==== Sys2Proof/Machine/Sched.lean ====
section
/-!
DEFINITION. Accounts, share points and token buckets (R321 to R334): who a message is charged to, the virtual time of a
share point, and the level of a bucket.
-/
namespace Sys2Proof.Machine

/-! ### Accounts (R321 to R323) -/

/-- The account of a partition that serves a tenant: the lowest-numbered valid one that carries it, else account 0. -/
def State.acctOf (s : State) (p tenant : Nat) : Nat :=
  ((span 1 64).find? (fun a => s.fget Reg.SCHED_ACCT_VALID [p, a] == 1 &&
    s.fget Reg.SCHED_ACCT_TENANT [p, a] == tenant)).getD 0

/-- The outer contender of the device account (R325). -/
def deviceOuter : Nat := 16

/-- The charge of a message of a class for a tenant of a partition.
DEDUCED: assumption 36. -/
def State.chargeFor (s : State) (p tenant cls : Nat) : Charge := ⟨cls, p, s.acctOf p tenant⟩

/-- The charge of the device's own traffic of a class (R303, R322).
DEDUCED: assumption 36. -/
def deviceCharge (cls : Nat) : Charge := ⟨cls, deviceOuter, 0⟩

/-- The class of the NME operations of a queue pair: CLASS, where 6 and 7 are taken as 5 (R303, R376). -/
def State.qpClass (s : State) (q : Nat) : Nat := min 5 (s.fget Reg.CTX_QP_A_CLASS [q])

/-- The quadrant slice a slot's Moon sends through: XP256 to XP259 (R300). -/
def sliceOf (slot : Nat) : Nat := 256 + slot / 128

/-- Whether the requests of an owner come to their home through the crossbar before they are made: those of accelerators
do. -/
def ReqOwner.crossed : ReqOwner → Bool
  | .accel _ => true
  | _ => false

/-- The crossbar input and the charge of the requests of an owner (R300, R303, R322). -/
def State.traffic (s : State) (ow : ReqOwner) : Nat × Charge :=
  let ofCtx := fun (c : Nat) => match s.ctx? c with
    | some x => (sliceOf (x.slot.getD 0), s.chargeFor x.part x.tenant x.cls)
    | none => (256, deviceCharge 0)
  match ow with
  | .instr c _ => ofCtx c
  | .comet c _ => ofCtx c
  | .accel id => (match s.accs.find? (fun a => decide (a.id = id)) with
    | some a => (a.port, a.charge)
    | none => (256, deviceCharge 0))
  | .nme id => (match s.nmes.find? (fun n => decide (n.id = id)) with
    | some n => (261, s.chargeFor n.part (s.fget Reg.CTX_QP_A_TENANT [n.qp]) (s.qpClass n.qp))
    | none => (261, deviceCharge 0))
  | .fill h g => (match s.fills.find? (fun f => decide (f.handle = h) && decide (f.granule = g)) with
    | some f => (270, f.charge)
    | none => (270, deviceCharge 0))
  | .wb h _ => (match s.obj? h with
    | some o => (261, s.chargeFor (handlePart h) o.tenant 1)
    | none => (261, deviceCharge 1))
  | .move _ => (261, deviceCharge 0)
  | .rebuild _ _ _ => (261, deviceCharge 0)
  | .view _ => (261, deviceCharge 0)
  | .scrub _ => (261, deviceCharge 0)

/-! ### Virtual time (R324 to R327) -/

/-- A share point at its initial value (R334). -/
def Share.init : Share := ⟨0, [], [], [], [], [], []⟩

/-- A share point: a crossbar output, or 1,024 above a pseudo-channel. -/
def State.share (s : State) (pt : Nat) : Share := kvGet Share.init s.shares pt

/-- The state with a share point changed. -/
def State.modShare (s : State) (pt : Nat) (f : Share → Share) : State :=
  { s with shares := kvPut Share.init s.shares pt (f (s.share pt)) }

/-- The weight of an outer contender; 0 is taken as 1. -/
def State.outerWeight (s : State) (o : Nat) : Nat :=
  max 1 (if o = deviceOuter then s.fget Reg.SCHED_DEV_WT_WEIGHT [] else s.fget Reg.SCHED_PART_WT_WEIGHT [o])

/-- The weight of an account; 0 is taken as 1. -/
def State.innerWeight (s : State) (p a : Nat) : Nat := max 1 (s.fget Reg.SCHED_ACCT_WEIGHT [p, a])

/-- The length a share point charges a message of length `n` (R324). -/
def State.chargedLen (s : State) (out n : Nat) : Nat :=
  if out < 256 then n + n * s.fget Reg.SCHED_PORT_OVH_OVH_MUL [out] / 4096 + s.fget Reg.SCHED_PORT_OVH_OVH_FIX [out]
  else n

/-- The cells of a queue that stand in the pool: those of a spilled segment do not count (R326). -/
def XQueue.pooled (q : XQueue) : List Cell := q.head ++ q.tail

/-- The charges of the messages queued for a crossbar output in a pool or an internal queue. -/
def State.queuedFor (s : State) (out : Nat) : List Charge :=
  ((s.reqs.filter (fun r => decide (r.state = .queued) && decide (r.out = out))).map (fun r => r.charge)) ++
  s.xin.flatMap (fun e => (e.2.queues.filter (fun q => decide (q.1 / 8 = out) && decide (q.1 % 8 < 6))).flatMap
    (fun q => q.2.pooled.map (fun c => c.charge)))

/-- A contender that becomes backlogged at a point starts at the larger of V of its level and its own finish tag
(R327). -/
def State.wake (s : State) (out : Nat) (c : Charge) : State :=
  let q := s.queuedFor out
  let outerIn := q.any (fun d => decide (d.outer = c.outer))
  let innerIn := q.any (fun d => decide (d.outer = c.outer) && decide (d.inner = c.inner))
  let k := 64 * c.outer + c.inner
  s.modShare out (fun h => { h with
    s := if outerIn then h.s else kvPut 0 h.s c.outer (max h.v (kvGet 0 h.f c.outer))
    si := if innerIn then h.si else kvPut 0 h.si k (max (kvGet 0 h.vi c.outer) (kvGet 0 h.fi k)) })

/-- A tag of R325: 64 bits, 16 of them fractional.
DESIGN CHOICE: assumption 37. -/
def tag64 (n : Nat) : Nat := n % 2 ^ 64

/-- The charge of a granted message of charged length `x` (R326). -/
def State.chargeTags (s : State) (pt : Nat) (c : Charge) (x : Nat) : State :=
  let k := 64 * c.outer + c.inner
  let wo := s.outerWeight c.outer
  let wi := s.innerWeight c.outer c.inner
  s.modShare pt (fun h =>
    let so := kvGet 0 h.s c.outer
    let fo := tag64 (so + x * 2 ^ 16 / wo)
    let h1 : Share := { h with v := so, f := kvPut 0 h.f c.outer fo, s := kvPut 0 h.s c.outer fo }
    if c.outer = deviceOuter then h1
    else
      let si := kvGet 0 h.si k
      let fi := tag64 (si + x * 2 ^ 16 / wi)
      { h1 with vi := kvPut 0 h.vi c.outer si, fi := kvPut 0 h.fi k fi, si := kvPut 0 h.si k fi })

/-! ### Token buckets (R330) -/

/-- The gain of a bucket in a cycle, in units of 2^−20 B. -/
def State.bucketGain (s : State) (p a : Nat) : Nat := s.fget Reg.SCHED_BKT_RATE_MBS [p, a] * 2 ^ 20 / 1700

/-- Whether an account has a limit. -/
def State.limited (s : State) (c : Charge) : Bool :=
  decide (c.outer ≠ deviceOuter) && decide (s.fget Reg.SCHED_BKT_RATE_MBS [c.outer, c.inner] ≠ 0)

/-- The depth of a bucket. -/
def State.bucketDepth (s : State) (p a : Nat) : Int := (s.fget Reg.SCHED_BKT_BURST_KIB [p, a] : Int) * 1024 * 2 ^ 20

/-- The level of a bucket now, from its level when it was last set. -/
def State.bucketLevel (s : State) (p a : Nat) : Int :=
  match kvGet? s.buckets (64 * p + a) with
  | none => s.bucketDepth p a
  | some (b, t) => min (s.bucketDepth p a) (b + ((s.now - t) * s.bucketGain p a : Nat))

/-- The state with a bucket set to a level. -/
def State.setBucket (s : State) (p a : Nat) (b : Int) : State :=
  { s with buckets := kvSet s.buckets (64 * p + a) (b, s.now) }

/-- Whether a message may be granted at a crossbar output as far as its bucket goes. -/
def State.bucketOk (s : State) (c : Charge) : Bool :=
  !s.limited c || decide (0 ≤ s.bucketLevel c.outer c.inner)

/-- The charge of an accepted grant at a crossbar output: tags, bucket, and CHARGED in 64-byte units (R326, R330,
R344). -/
def State.chargeOutput (s : State) (out : Nat) (c : Charge) (n : Nat) : State :=
  let x := s.chargedLen out n
  let s1 := s.chargeTags out c x
  let s2 := if s1.limited c then s1.setBucket c.outer c.inner (s1.bucketLevel c.outer c.inner - (x : Int) * 2 ^ 20) else s1
  if c.outer = deviceOuter then s2
  else
    let k := 64 * c.outer + c.inner
    let r := kvGet 0 s2.chargeRest k + x
    ({ s2 with chargeRest := kvPut 0 s2.chargeRest k (r % 64) } : State).fwrap Reg.SCHED_ACCT_STAT_CHARGED
      [c.outer, c.inner] (r / 64)

end Sys2Proof.Machine
end

