-- ==== Sys2Proof/Machine/Place.lean ====
section
/-!
DEFINITION. Shared operations of the placement engine: what the carve of a partition holds (R241, R249, R257), the
making of room (R258, R259), fills and drops (R247, R255), and steep lists (R252 to R256).
-/
namespace Sys2Proof.Machine

/-- Bytes of a GiB. -/
def gib : Nat := 2 ^ 30

/-- The granules of an object. -/
def Obj.granules (o : Obj) : Nat := ceilDiv o.size 4096

/-- The HBM carve of a partition in bytes (R257). -/
def State.carveBytes (s : State) (p : Nat) : Nat := s.fget Reg.PART_CFG_A_HBM_GIB [p] * gib

/-- The headroom of a carve, 1/64 of it (R249). -/
def State.headroom (s : State) (p : Nat) : Nat := s.carveBytes p / 64

/-- Receive rings of a partition, counted as pinned (R357), and the forward buffer of a leader (R521). -/
def State.extraPinned (s : State) (p : Nat) : Nat :=
  ((s.ctxs.filter (fun e => decide (e.2.part = p))).map (fun e => e.2.ringSlots * 4096)).sum +
  (match (s.part p).shadow with
   | some h => if h.leader && h.joined then 64 * 2 ^ 20 else 0
   | none => 0)

/-- Pinned bytes of a partition (R241). -/
def State.pinnedBytes (s : State) (p : Nat) : Nat :=
  ((s.objsOf p).map (fun e => if pinnedClass e.2.cls then e.2.size else 0)).sum + s.extraPinned p

/-- Bytes of the cache extents of a partition: 2 MiB each (R258). -/
def State.cachedBytes (s : State) (p : Nat) : Nat :=
  ((s.objsOf p).map (fun e => e.2.extents.length * 2 ^ 21)).sum

/-- Tier-2 bytes of a partition's objects (R241). -/
def State.tier2Bytes (s : State) (p : Nat) : Nat :=
  ((s.objsOf p).map (fun e => (if pinnedClass e.2.cls then 0 else e.2.size) + (match e.2.old with
    | some v => v.2.1
    | none => 0))).sum +
  ((s.scrubs.filter (fun c => decide (c.part = p))).map (fun c => c.t2)).sum

/-- The tier-1 bytes a staged move needs beside the old layout (R248, R249): the whole object where the new class is
pinned, the extents of a re-salted cached object. -/
def moveBytes (o : Obj) (cls : Nat) : Nat :=
  if pinnedClass cls then o.size
  else if cacheClass cls && cacheClass o.cls then o.extents.length * 2 ^ 21 else 0

/-- Tier-1 bytes of a partition that staged moves, old layouts and scrubs hold (R248, R474). -/
def State.transientBytes (s : State) (p : Nat) : Nat :=
  ((s.objsOf p).map (fun e =>
    (match e.2.move with
     | some m => if m.room then moveBytes e.2 m.cls else 0
     | none => 0) +
    (match e.2.old with
     | some v => v.1
     | none => 0))).sum +
  ((s.scrubs.filter (fun c => decide (c.part = p))).map (fun c => c.t1)).sum

/-- Tier-1 room of a partition that nothing holds. -/
def State.freeBytes (s : State) (p : Nat) : Nat :=
  s.carveBytes p - (s.pinnedBytes p + s.cachedBytes p + s.transientBytes p)

/-! ### Requests -/

/-- A request for an object at a channel or tray in the attribution window (R250): an object missing from a full table
replaces the entry of smallest count and continues from that count. -/
def Imbal.count (i : Imbal) (c h : Nat) : Imbal :=
  if !i.hot.contains c then i
  else if i.table.any (fun e => decide (e.1 = h)) then
    { i with total := i.total + 1, table := i.table.map (fun e => if e.1 = h then (h, e.2 + 1) else e) }
  else if i.table.length < 64 then { i with total := i.total + 1, table := i.table ++ [(h, 1)] }
  else
    let low := i.table.foldl (fun (a : Nat) e => min a e.2) (i.table.headD (0, 0)).2
    match i.table.findIdx? (fun e => decide (e.2 = low)) with
    | some k => { i with total := i.total + 1, table := i.table.set k (h, low + 1) }
    | none => { i with total := i.total + 1 }

/-- The port of a tray (R542): the admitted port whose MGT_DISC names it. -/
def State.portOfTray (s : State) (t : Nat) : Option Nat :=
  (List.range 256).find? (fun n =>
    s.fget Reg.MGT_DISC_ADMITTED [n] == 1 && s.fget Reg.MGT_DISC_TRAY [n] == t)

/-- A request as it is queued at its crossbar input; one of an accelerator has crossed already (R300, R318). -/
def State.newReq (s : State) (ow : ReqOwner) (p h l : Nat) (wr : Bool) (tier tray port out : Nat) : State :=
  let (id, s1) := s.fresh
  let (inp, ch) := s1.traffic ow
  let s2 := if ow.crossed then s1 else s1.wake out ch
  let st := if !ow.crossed then ReqState.queued else if tier = 2 then ReqState.needsTag else ReqState.sent
  { s2 with
    reqs := s2.reqs ++ [⟨id, ow, p, h, l, wr, tier, tray, port, inp, out, ch, false, false, if ow.crossed then id else 0, st,
      false, false, false, false, none, s.now⟩] }

/-- The request of one line at one tray (R318). -/
def State.addReq (s : State) (o : ReqOwner) (p h l : Nat) (wr : Bool) (tray : Nat) : State :=
  let port := (s.portOfTray tray).getD 271
  let s1 := s.newReq o p h l wr 2 tray port port
  { s1 with
    trayLoad := kvSet s1.trayLoad tray (kvGet 0 s1.trayLoad tray + 1)
    imbT := s1.imbT.count tray h }

/-- The request of one line at the stack of its pseudo-channel, counted there (R250); it takes no tag (R131). One of an
accelerator is charged at the channel as it comes to it (R324). -/
def State.addStackReq (s : State) (o : ReqOwner) (p h l : Nat) (wr : Bool) (c : Nat) : State :=
  let s1 := s.newReq o p h l wr 1 (stackOfChannel c) 256 (262 + stackOfChannel c)
  let s2 := if o.crossed then s1.chargeTags (1024 + c) (s1.traffic o).2 64 else s1
  { s2 with
    chanLoad := kvSet s2.chanLoad c (kvGet 0 s2.chanLoad c + 1)
    imbC := s2.imbC.count c h }

/-! ### Making room (R259) -/

/-- An extent is dropped (R247): its dirty granules have been written back. -/
def State.dropExtent (s : State) (h e : Nat) : State :=
  s.modObj h (fun o => { o with extents := kvDel o.extents e })

/-- The age of an extent (R258). -/
def State.extentAge (s : State) (h : Nat) (x : Extent) : Nat := ((s.part (handlePart h)).orbit + 2 ^ 40 - x.touch) % 2 ^ 40

/-- The extent R259 evicts next: the greatest age among those not protected and of age at least AGE_MIN, ties going
to the lower handle, then the lower offset. An extent that holds a combined line keeps its home (R289). -/
def State.victim (s : State) (p : Nat) : Option (Nat × Nat) :=
  let amin := s.fget Reg.PLACE_AGE_AGE_MIN [p]
  let all := (s.objsOf p).flatMap (fun e => e.2.extents.map (fun x => (e.1, x.1, s.extentAge e.1 x.2)))
  let ok := all.filter (fun x => decide (amin ≤ x.2.2) && !s.isProtected x.1 x.2.1 && !s.hot.any (fun d =>
    decide (d.handle = x.1) && decide (extentOf (granuleOfLine d.line) = x.2.1)))
  (ok.foldl (fun (a : Option (Nat × Nat × Nat)) x => match a with
    | some b => if b.2.2 < x.2.2 then some x else some b
    | none => some x) none).map (fun x => (x.1, x.2.1))

/-- What the making of room has come to (R259): there is room, or an eviction writes its extent back first, or it must
wait. -/
inductive Room where
  | made | writing | wait
  deriving DecidableEq, Repr

/-- The lines of a granule. -/
def granuleLines (g : Nat) : List Nat := span (64 * g) (64 * g + 64)

/-- An eviction in progress of a partition's extents. -/
def State.evicting (s : State) (p : Nat) : Bool := (s.objsOf p).any (fun e => e.2.extents.any (fun x => x.2.evict))

/-- The pair of a granule, where a tray takes writes of it. -/
def State.writePair (s : State) (o : Obj) (h g : Nat) : Option Nat :=
  (s.pairOf o h g).filter (fun k => !(s.writeTrays k).isEmpty)

/-- The write-back of a granule's lines to every tray of its pair (R259, R508), class 1 and the object's tenant (R303,
R322). -/
def State.writeBackGranule (s : State) (o : Obj) (h e g : Nat) : State :=
  match s.writePair o h g with
  | some k => (granuleLines g).foldl (fun (t : State) l =>
      (t.writeTrays k).foldl (fun (u : State) y => u.addReq (.wb h e) (handlePart h) h l true y) t) s
  | none => s

/-- An extent is evicted: dropped at once where it is clean; else the write-back of its dirty granules begins, or is
abandoned where no tray takes one of them (R259, R261).
DESIGN CHOICE: assumption 72. -/
def State.evictExtent (s : State) (h e : Nat) : State × Room :=
  match s.obj? h with
  | none => (s, .wait)
  | some o =>
    match kvGet? o.extents e with
    | none => (s, .wait)
    | some x =>
      if x.dirty.isEmpty then (s.dropExtent h e, .made)
      else if x.dirty.any (fun g => (s.writePair o h g).isNone) then (s.fsat Reg.PLACE_EVT_FAIL [handlePart h] 1, .wait)
      else (x.dirty.foldl (fun (t : State) g => t.writeBackGranule o h e g)
        (s.modObj h (fun q => { q with extents := kvMod q.extents e (fun y => { y with evict := true }) })), .writing)

/-- Evicts until `n` bytes are free, one extent after another, and says what that has come to (R259). `k` bounds the number
of evictions.
DESIGN CHOICE: assumption 72. -/
def State.makeRoom (s : State) (p n : Nat) : Nat → State × Room
  | 0 => (s, if n ≤ s.freeBytes p then .made else .wait)
  | k + 1 =>
    if n ≤ s.freeBytes p then (s, .made)
    else if s.evicting p then (s, .writing)
    else match s.victim p with
      | none => (s, .wait)
      | some (h, e) => match s.evictExtent h e with
        | (t, .made) => t.makeRoom p n k
        | r => r

/-- The number of extents in tier 1, which bounds the evictions of R259. -/
def State.extentCount (s : State) (p : Nat) : Nat := ((s.objsOf p).map (fun e => e.2.extents.length)).sum

/-! ### Fills (R247, R255) -/

/-- Whether a fill of a granule is in progress. -/
def State.filling (s : State) (h g : Nat) : Bool := s.fills.any (fun f => decide (f.handle = h) && decide (f.granule = g))

/-- A granule's place in tier 1 is made: its extent exists (R258). -/
def State.placeExtent (s : State) (h e : Nat) : State :=
  s.modObj h (fun o => match kvGet? o.extents e with
    | some _ => o
    | none => { o with extents := kvSet o.extents e ⟨(s.part (handlePart h)).orbit, [], [], false⟩ })

/-- Room for a granule's extent, evicting where needed (R259). -/
def State.roomForExtent (s : State) (h e : Nat) : State × Room :=
  match s.obj? h with
  | none => (s, .wait)
  | some o =>
    match kvGet? o.extents e with
    | some _ => (s, .made)
    | none =>
      match s.makeRoom (handlePart h) (2 ^ 21) (s.extentCount (handlePart h)) with
      | (t, .made) => (t.placeExtent h e, .made)
      | r => r

/-- The 64 reads of a granule's lines from its tier-2 home that a fill makes (R247, R318); none where no tray serves it. -/
def State.fillRead (s : State) (h g : Nat) : Option State :=
  match s.obj? h with
  | none => none
  | some o =>
    match s.pairOf o h g with
    | none => none
    | some k =>
      match s.readTrays o h g k with
      | y :: _ => some ((granuleLines g).foldl (fun (t : State) l => t.addReq (.fill h g) (handlePart h) h l false y) s)
      | [] => none

/-- A fill ends or is given up, and the reads that wait for it are answered, with a final status where it has one (R262,
R263). -/
def State.endFill (s : State) (h g : Nat) (final : Option Nat) : State :=
  { s with
    fills := s.fills.filter (fun f => decide (f.handle ≠ h) || decide (f.granule ≠ g))
    reqs := (s.reqs.filter (fun r => decide (r.owner ≠ .fill h g))).map (fun (r : Req) =>
      if r.tier = 4 ∧ r.handle = h ∧ granuleOfLine r.line = g ∧ r.state = .sent then
        { r with state := .answered, final := final, late := false, failing := false } else r) }

/-- A fill that waits for room is tried again: with room for its extent it waits no longer, and its tier-2 reads go out
(R247, R259). One that no tray serves any more is given up; its reads find a dead home (R293). -/
def State.retryFill (s : State) (f : Fill) : State :=
  match s.roomForExtent f.handle (extentOf f.granule) with
  | (u, .made) =>
    let v : State := { u with fills := u.fills.map (fun q =>
      if q.handle = f.handle ∧ q.granule = f.granule then { q with waiting := false } else q) }
    (v.fillRead f.handle f.granule).getD (v.endFill f.handle f.granule (some stPoison))
  | (u, _) => u

/-- Issues a fill of a granule of a cache-class object that is written and not in tier 1; a fill already in progress
is not issued twice, but a read that demands one still waiting has it tried at once, ahead of queued prefetches (R255). A
fill that finds no room waits (R256, R259); a granule no tray serves is not filled. `reader` is the read that demands it; a
prefetch takes class 1 and the tenant of its object (R303, R322).
DESIGN CHOICE: assumption 32. -/
def State.issueFill (s : State) (h g : Nat) (reader : Option ReqOwner) : State :=
  match s.obj? h with
  | none => s
  | some o =>
    if !cacheClass o.cls || o.tier g != 2 then s
    else
      let ch := match reader with
        | some ow => (s.traffic ow).2
        | none => s.chargeFor (handlePart h) o.tenant 1
      match s.fills.find? (fun f => decide (f.handle = h) && decide (f.granule = g)) with
      | some f =>
        if !reader.isSome then s
        else
          let d := if f.demand then f else { f with demand := true, charge := if f.waiting then ch else f.charge }
          let t : State := { s with fills := s.fills.map (fun q => if q.handle = h ∧ q.granule = g then d else q) }
          if f.waiting then t.retryFill d else t
      | none =>
        if (s.fillRead h g).isNone then s
        else
          let f : Fill := ⟨h, g, reader.isSome, true, ch⟩
          ({ s with fills := s.fills ++ [f] } : State).retryFill f

/-! ### Steep lists -/

/-- Fills for the entries P + 1 to P + LEAD that are not in tier 1, in entry order (R255); an entry whose DECL is not
registered is skipped and counted in STEEP_MISS (R253). -/
def State.prefetch (s : State) (x : Ctx) : State :=
  match x.steep with
  | none => s
  | some (lh, pos) =>
    match s.obj? lh with
    | none => s
    | some l =>
      let hd := steepHeader l
      (span 1 (hd.1 + 1)).foldl (fun t d =>
        match steepAhead hd pos d with
        | none => t
        | some i =>
          let e := steepEntry l i
          match t.objOfDecl x.part e.1 with
          | none => t.fsat Reg.PLACE_EVT_STEEP_MISS [x.part] 1
          | some (h, o) =>
            if cacheClass o.cls then
              (entryGranules o e.2.1 e.2.2.1).foldl (fun u g => u.issueFill h g none) t
            else t) s

/-- Whether some byte ranges of an object touch the range of an entry; LENGTH 0 means to the end of the object (R252,
R254). -/
def entryTouched (o : Obj) (off len : Nat) (rs : List (Nat × Nat)) : Bool :=
  rs.any (fun r => overlap off (if len = 0 then o.size - off else len) r.1 r.2)

/-- The nearest entry among P + 1 to P + LEAD whose range is touched (R254), with its content. -/
def State.steepTouched (s : State) (x : Ctx) (h : Nat) (rs : List (Nat × Nat)) : Option (Nat × Nat × Nat × Nat × Bool) :=
  match x.steep with
  | none => none
  | some (lh, pos) =>
    match s.obj? lh with
    | none => none
    | some l =>
      let hd := steepHeader l
      ((span 1 (hd.1 + 1)).filterMap (fun d =>
        match steepAhead hd pos d with
        | none => none
        | some i =>
          let e := steepEntry l i
          match s.objOfDecl x.part e.1 with
          | some (h', o) => if decide (h' = h) && entryTouched o e.2.1 e.2.2.1 rs then some (i, e) else none
          | none => none)).head?

/-- The extents of an ONCE entry of a list become old (R258). -/
def State.passOnce (s : State) (p : Nat) (l : Obj) (j : Nat) : State :=
  let en := steepEntry l j
  if en.2.2.2 then
    match s.objOfDecl p en.1 with
    | some (h, o) => s.modObj h (fun q => q.touch (entryGranules o en.2.1 en.2.2.1)
        (((s.part p).orbit + 2 ^ 40 - s.fget Reg.PLACE_AGE_AGE_MIN [p]) % 2 ^ 40))
    | none => s
  else s

/-- The entries from position `pos` to the one before entry `i` (R258). -/
def passedEntries (hd : Nat × Nat × Bool) (pos i : Nat) : List Nat :=
  ((span 0 hd.2.1).filterMap (fun d => steepAhead hd pos d)).takeWhile (fun j => decide (j ≠ i))

/-- A stream instruction of context `c` touches byte ranges of an object: the position advances, a range touched before
it was wholly resident is counted, the protections of the old window end, ONCE ranges behind the position become old, and
prefetch is issued (R254, R255, R258). -/
def State.steepAdvance (s : State) (c h : Nat) (rs : List (Nat × Nat)) : State :=
  match s.ctx? c with
  | none => s
  | some x =>
    match s.steepTouched x h rs, x.steep with
    | some (i, e), some (lh, pos) =>
      let miss := match s.obj? h with
        | some o => (entryGranules o e.2.1 e.2.2.1).any (fun g => o.tier g == 2)
        | none => false
      let s1 := if miss then s.fsat Reg.PLACE_EVT_STEEP_MISS [x.part] 1 else s
      let s2 := s1.bindSteep c (some (lh, i))
      let s3 := match s.obj? lh with
        | some l => (passedEntries (steepHeader l) pos i).foldl (fun (t : State) j => t.passOnce x.part l j) s2
        | none => s2
      s3.prefetch { x with steep := some (lh, i) }
    | _, _ => s

end Sys2Proof.Machine
end

