-- ==== Sys2Proof/Machine/MemReq.lean ====
section
/-!
DEFINITION. Memory requests: how an instruction, comet, accelerator or near-memory operation that has passed its
checks becomes requests at the homes of the lines it touches (R245, R262, R318), the snoops that a line held by an
accelerator needs first (R291), the queues of lines held by a combiner (R287), and the stream engines (R130).
-/
namespace Sys2Proof.Machine

/-- The requests a store makes at the new layout of an object that is being moved (R248). -/
def State.requestMove (s : State) (ow : ReqOwner) (o : Obj) (h l : Nat) : State :=
  match o.move with
  | none => s
  | some m =>
    let g := granuleOfLine l
    let p := handlePart h
    let n := { o with salt := m.salt, pairs := m.pairs, cls := m.cls }
    if pinnedClass m.cls then
      if s.stackInService (stackOfChannel (s.channelOf n h g)) then s.addStackReq ow p h l true (s.channelOf n h g) else s
    else match s.pairOf n h g with
      | some k => (s.writeTrays k).foldl (fun (t : State) y => t.addReq ow p h l true y) s
      | none => s

/-- The instruction or comet an owner names, with its partition. -/
def State.workOf (s : State) (ow : ReqOwner) : Option (Nat × Outst) :=
  match ow with
  | .instr c id => (match s.ctx? c with
    | some x => (x.outst.filter (fun q => decide (q.id = id))).map (fun q => (x.part, q))
    | none => none)
  | .comet c id => (match s.ctx? c with
    | some x => (x.comets.find? (fun q => decide (q.id = id))).map (fun q => (x.part, q))
    | none => none)
  | _ => none

/-- Whether the write of an owner covers a line whole (R264, R385, R515). -/
def State.wholeLine (s : State) (ow : ReqOwner) (l : Nat) : Bool :=
  match ow with
  | .accel id => (match s.accs.find? (fun a => decide (a.id = id)) with
    | some a => a.mask.all (fun b => b)
    | none => true)
  | .nme id => (match s.nmes.find? (fun n => decide (n.id = id)) with
    | some n => coversLine (n.arg.ranges.filterMap (fun r => if r.2.2.2 then some (r.2.1, r.2.2.1) else none)) l
    | none => true)
  | ow => match s.workOf ow with
    | some (_, q) => (match q.op with
      | .store ps => coversLine (ps.map (fun e => (e.1, e.2.length))) l
      | _ => false)
    | none => true

/-- Whether a read of an owner brings a cached granule into tier 1 (R255): those of near-memory operations and of the
device's own copies go to the tray (R267).
DEDUCED: assumption 32. -/
def ReqOwner.demands : ReqOwner → Bool
  | .instr _ _ => true
  | .comet _ _ => true
  | .accel _ => true
  | _ => false

/-- The requests one line needs at its home. A cached granule that is read from tier 2 is read through its fill
(R255, R262); other tier-2 lines take a request per tray that serves them (R236, R508); a granule never written needs none
(R242), nor does a LOST line that the request does not write whole (R263, R515), nor a line of a stack out of service
(R293). -/
def State.requestLine (s : State) (ow : ReqOwner) (h l : Nat) (wr : Bool) : State :=
  match s.obj? h with
  | none => s
  | some o =>
    let g := granuleOfLine l
    let p := handlePart h
    if o.lost.contains l && !(wr && s.wholeLine ow l) then s
    else match (if wr then (if o.inTier1 g then 1 else 2) else o.tier g) with
    | 0 => s
    | 1 =>
      let c := s.channelOf o h g
      let s1 := if s.stackInService (stackOfChannel c) then s.addStackReq ow p h l wr c else s
      if wr then s1.requestMove ow o h l else s1
    | _ =>
      match s.pairOf o h g with
      | none => s
      | some k =>
        if wr then ((s.writeTrays k).foldl (fun (t : State) y => t.addReq ow p h l true y) s).requestMove ow o h l
        else match s.readTrays o h g k with
          | y :: _ =>
            if cacheClass o.cls && ow.demands then
              let s1 := s.newReq ow p h l false 4 31 256 270
              if ow.crossed then s1.issueFill h g (some ow) else s1
            else s.addReq ow p h l false y
          | [] => s

/-- The directory entry of a line (R290). -/
def State.dirEntry (s : State) (h l : Nat) : Option DirEnt :=
  s.dir.find? (fun d => decide (d.handle = h) && decide (d.line = l))

/-- Whether a directory entry conflicts with a read or write (R291). -/
def DirEnt.conflicts (d : DirEnt) (wr : Bool) : Bool := wr || d.excl

/-- The ports that are taken to hold a line: its holders, or, where it is wide, every source that the coherent
apertures on its object admit (R290), but those that are crashed (R297). -/
def State.sharers (s : State) (d : DirEnt) : List Nat :=
  if d.wide then (s.coherentPorts (handlePart d.handle) d.handle).filter (fun n => !s.crashed.contains n) else d.holders

/-- The crossbar output of a request for a line (R245, R300): the controller of its stack, the port of the tray that
serves it, or the placement engine where no memory is accessed or a fill is needed.
DEDUCED: assumption 26. -/
def State.homeOut (s : State) (o : Obj) (h l : Nat) (wr : Bool) : Nat :=
  let g := granuleOfLine l
  if o.inTier1 g then 262 + stackOfChannel (s.channelOf o h g)
  else if !wr && (!o.isWritten g || cacheClass o.cls) then 270
  else match s.pairOf o h g with
    | some k => (match s.readTrays o h g k with
      | y :: _ => (s.portOfTray y).getD 270
      | [] => 270)
    | none => 270

/-- The crossbar port of the home of a line, from which its responses come. -/
def State.homePort (s : State) (h l : Nat) : Nat :=
  match s.obj? h with
  | some o => s.homeOut o h l true
  | none => 270

/-! ### Fabric request tags (R318, R319) -/

/-- The tags a port holds: requests out to its tray, snoops out to its accelerator, messages not yet acknowledged. -/
def State.tagsOf (s : State) (n : Nat) : Nat :=
  (s.reqs.filter (fun r => decide (r.port = n) && decide (r.tier ≠ 1) && decide (r.state = .sent))).length +
  (s.snoops.filter (fun q => q.sent && !q.back && decide (q.port = n))).length

/-- TAG_MAX of a port, taken as at most 65,536. -/
def State.tagMax (s : State) (n : Nat) : Nat := min 65536 (s.fget Reg.XBAR_TAG_BUDGET_TAG_MAX [n])

/-- The tags of the shared remainder in use: those each port holds above its reserve. -/
def State.sharedTags (s : State) : Nat :=
  ((List.range 256).map (fun n => s.tagsOf n - s.fget Reg.XBAR_TAG_BUDGET_TAG_MIN [n])).sum

/-- The sum of TAG_MIN over all ports. -/
def State.minSum (s : State) : Nat := ((List.range 256).map (fun n => s.fget Reg.XBAR_TAG_BUDGET_TAG_MIN [n])).sum

/-- Whether an admission to a port finds a tag (R319). -/
def State.tagFree (s : State) (n : Nat) : Bool :=
  decide (s.tagsOf n < s.fget Reg.XBAR_TAG_BUDGET_TAG_MIN [n]) ||
  (decide (s.tagsOf n < s.tagMax n) && decide (s.minSum + s.sharedTags < 65536))

/-- Whether any request but `self`, message or snoop waits for a tag of a port. -/
def State.tagWaiters (s : State) (n self : Nat) : Bool :=
  s.reqs.any (fun r => decide (r.port = n) && decide (r.state = .needsTag) && decide (r.id ≠ self)) ||
  s.snoops.any (fun q => !q.sent && decide (q.port = n))

/-- A BISnp is admitted to its port where a tag is free and none waits before it; else it waits and is counted
(R318, R319). -/
def State.sendSnoop (s : State) (h l n : Nat) (inv : Bool) : State :=
  if s.tagFree n && !s.tagWaiters n s.nextId then
    ({ s with snoops := s.snoops ++ [(⟨h, l, n, inv, true, false, s.now⟩ : Snoop)] } : State).respond n 7 (s.homePort h l)
      (.snoop n h l inv)
  else
    ({ s with snoops := s.snoops ++ [(⟨h, l, n, inv, false, false, s.now⟩ : Snoop)] } : State).fsat
      Reg.XBAR_TAG_STAT_WAITS [] 1

/-! ### Snoops, combiners, requests -/

/-- Snoops to the holders of a line that conflicts, but for the requester itself (R291): BISnpInv for a write,
BISnpData for a read. A snoop already out is not sent again, but a BISnpData does not stand for a BISnpInv. -/
def State.snoopLine (s : State) (h l : Nat) (wr : Bool) (self : Option Nat) : State :=
  match s.dirEntry h l with
  | none => s
  | some d =>
    if d.conflicts wr then
      ((s.sharers d).filter (fun n => decide (some n ≠ self))).foldl (fun (t : State) n =>
        if t.snoops.any (fun q => decide (q.handle = h) && decide (q.line = l) && decide (q.port = n) && (q.inv || !wr)) then t
        else t.sendSnoop h l n wr) s
    else s

/-- Whether a snoop of a line is out. -/
def State.snooping (s : State) (h l : Nat) : Bool :=
  s.snoops.any (fun q => decide (q.handle = h) && decide (q.line = l))

/-- The combiner line of a line, where one holds it (R287). -/
def State.hotLine (s : State) (h l : Nat) : Option HotLine :=
  s.hot.find? (fun d => decide (d.handle = h) && decide (d.line = l))

/-- A request joins the queue of a line its combiner holds (R287). -/
def State.joinHot (s : State) (ow : ReqOwner) (h l : Nat) : State :=
  { s with hot := s.hot.map (fun d =>
      if d.handle = h ∧ d.line = l then { d with queue := d.queue ++ [ow], last := s.now } else d) }

/-- Whether the queue of a combined line is full: its home then accepts no further request (R288). -/
def State.hotFull (s : State) (h l : Nat) : Bool :=
  match s.hotLine h l with
  | some d => decide (64 ≤ d.queue.length)
  | none => false

/-- The run of a device message (R301): one message per 128 bytes, queued at the crossbar input of its sender for an
output. -/
def State.requestRun (s : State) (ow : ReqOwner) (p bytes port out : Nat) : State :=
  (List.range (ceilDiv bytes 128)).foldl (fun (t : State) i => t.newReq ow p 0 i true 3 31 port out) s

/-- The lines of a piece of work become requests (R245, R291). -/
def State.requestLines (s : State) (ow : ReqOwner) (h : Nat) (ls : List Nat) (wr : Bool) : State :=
  ls.foldl (fun (t : State) l => (t.snoopLine h l wr none).requestLine ow h l wr) s

/-- Whether a line is ready for the work of an owner: no snoop of it is out, no combiner still queues it for the
owner, for a read of a cached granule no fill is in progress, and for a write no rebuild copies its granule (R255, R287,
R291, R512). -/
def State.lineReady (s : State) (ow : ReqOwner) (h l : Nat) (wr : Bool) : Bool :=
  !s.snooping h l &&
  !(match s.hotLine h l with
    | some d => d.queue.contains ow
    | none => false) &&
  (wr || !s.filling h (granuleOfLine l)) &&
  !(wr && s.reqs.any (fun r => decide (r.handle = h) && decide (granuleOfLine r.line = granuleOfLine l) &&
    decide (r.state ≠ .answered) && (match r.owner with
      | .rebuild _ _ _ => true
      | _ => false)))

/-- Whether the requests of an owner have been answered; the stacks answer with the answer itself. -/
def State.reqsAnswered (s : State) (ow : ReqOwner) : Bool :=
  s.reqs.all (fun r => decide (r.owner ≠ ow) || decide (r.state = .answered) ||
    (decide (r.tier = 1) && decide (r.state = .sent)))

/-- Whether everything an owner waits for has been answered (R132, R282). -/
def State.ready (s : State) (ow : ReqOwner) (h : Nat) (ls : List Nat) (wr : Bool) : Bool :=
  s.reqsAnswered ow && ls.all (fun l => s.lineReady ow h l wr)

/-- Whether a request of an owner for a line of an object was sent to its home. -/
def State.sentLine (s : State) (ow : ReqOwner) (h l : Nat) : Bool :=
  s.reqs.any (fun r => decide (r.owner = ow) && decide (r.handle = h) && decide (r.line = l))

/-- The final statuses the requests of an owner ended with (R263). A write fails where every tray it went to failed
(R508). -/
def State.reqFinals (s : State) (ow : ReqOwner) : List (Option Nat) :=
  let rs := s.reqs.filter (fun r => decide (r.owner = ow))
  rs.map (fun r => if r.write && rs.any (fun q => q.write && decide (q.line = r.line) && q.final.isNone) then none
    else r.final)

/-- The final statuses that the requests of an owner for one line of an object ended with. -/
def State.lineFinals (s : State) (ow : ReqOwner) (h l : Nat) : List (Option Nat) :=
  let rs := s.reqs.filter (fun r => decide (r.owner = ow) && decide (r.handle = h) && decide (r.line = l))
  rs.map (fun r => if r.write && rs.any (fun q => q.write && q.final.isNone) then none else r.final)

/-- The requests of an owner leave the device; their tags are free (R318). -/
def State.dropReqs (s : State) (ow : ReqOwner) : State :=
  { s with reqs := s.reqs.filter (fun r => decide (r.owner ≠ ow)) }

/-! ### Quadrant buffers (R306, R307) -/

/-- The queue space that messages take in the buffer of a quadrant, in units of 256 bytes: how much `n` of them take is not
given, and none take none. -/
def queueUnits (n : Nat) : Nat := if n = 0 then 0 else Config.queueSpace n

/-- The messages queued in the buffer of a quadrant. -/
def State.quadQueued (s : State) (q : Nat) : Nat :=
  (s.reqs.filter (fun r => decide (r.inp = 256 + q) && decide (r.state = .queued))).length

/-- Whether the queues of a quadrant leave no room: the buffer of 32 MiB less the merge space, striped over four (R307). -/
def State.quadFull (s : State) (q : Nat) : Bool :=
  decide (131072 - 1024 * (partIds.map (fun p => s.fget Reg.PART_CFG_A_MERGE_MIB [p])).sum ≤ queueUnits (s.quadQueued q))

/-! ### Stream engines (R130) -/

/-- Whether a Moon has a stream engine free.
DESIGN CHOICE: assumption 59. -/
def State.engineFree (s : State) (slot : Nat) : Bool := decide ((s.moon (slot / 8)).engines.length < 16)

/-- Why an instruction waits for an engine: its own strand holds all, or another does (R95, R130). -/
def State.engineWait (s : State) (slot : Nat) : Wait :=
  if (s.moon (slot / 8)).engines.all (fun e => decide (e.slot = slot)) then .result else .unit

/-- An engine taken for a request of `b` bytes (R130). -/
def State.takeEngine (s : State) (slot req b : Nat) : State :=
  s.modMoon (slot / 8) (fun m => { m with engines := m.engines ++ [⟨slot, req, ceilDiv b 64, false⟩] })

/-- The engine of a request is free. -/
def State.freeEngine (s : State) (slot req : Nat) : State :=
  s.modMoon (slot / 8) (fun m => { m with engines := m.engines.filter (fun e => decide (e.req ≠ req)) })

/-! ### The start of a memory instruction -/

/-- The orbit a touch of a partition's extents records (R258). -/
def State.touchLines (s : State) (h : Nat) (ls : List Nat) : State :=
  s.modObj h (fun o => o.touch (ls.map granuleOfLine) (s.part (handlePart h)).orbit)

/-- The byte ranges of its object that an instruction or comet touches (R254): those of its records, or its word, or its
bytes of a bitmap; none of a compressed stream, which touches segment by segment. -/
def Outst.ranges (q : Outst) : List (Nat × Nat) :=
  match q.op with
  | .load ps => ps.map (fun p => (p.1, p.2.1))
  | .store ps => ps.map (fun p => (p.1, p.2.length))
  | .amo off _ _ _ _ => [(off, 8)]
  | .pub off _ _ _ _ => [(off, 8)]
  | .bitmap bits _ => bits.filterMap (fun b => b.map (fun e => (e.1, 1)))
  | _ => []

/-- A waiting instruction or comet starts: it takes its engine, touches its extents and steep list, and sends its
requests. `comet` says whether the strand goes on. The PC of a waiting instruction advances when it is answered. -/
def State.startMem (s : State) (slot c : Nat) (x : Ctx) (q0 : Outst) (b : Nat) (engine comet : Bool) (u : IssueSlot) : State :=
  let (id, s1) := s.fresh
  let q := { q0 with id := id, pc := x.pc, gen := (s.part x.part).routeCur.gen }
  let ow := if comet then ReqOwner.comet c id else ReqOwner.instr c id
  let s2 := s1.setCtx c (if comet then { x.advance with comets := x.comets ++ [q] }
    else { x with outst := some q, issued := true, wait := .memory })
  let s3 := if engine then s2.takeEngine slot id b else s2
  let s4 := (s3.touchLines q.handle q.lines).steepAdvance c q.handle q.ranges
  (s4.requestLines ow q.handle q.lines q.write).noteIssue slot u

/-- A blank outstanding record. -/
def Outst.blank (h : Nat) (ls : NatSet) (wr : Bool) (op : MemOp) : Outst :=
  ⟨0, 0, h, ls, wr, op, 0, 0, (0, 0), (0, 0), [], none, false, []⟩

end Sys2Proof.Machine
end

