-- ==== Sys2Proof/Machine/Fetch.lean ====
section
/-!
DEFINITION. How an instruction of a strand comes to issue: its word is fetched from the program object (R89, R105, R132), its
opcode and fields pass the field rules (R90, R91, R127), its predicate gates it whole (R97), and its body acts.
-/
namespace Sys2Proof.Machine

/-- A strand begins to fetch the line of its program that its PC lies in: one read of the program object (R132).
DESIGN CHOICE: assumption 19. -/
def State.startFetch (s : State) (c : Nat) (x : Ctx) : State :=
  let (id, s1) := s.fresh
  let l := lineOf x.pc
  let q := { Outst.blank (refHandle x.prog) [l] false .fetch with id := id, pc := x.pc }
  let s2 := s1.setCtx c { x with outst := some q, wait := .memory }
  (s2.touchLines q.handle q.lines).requestLines (.instr c id) q.handle q.lines false

/-- The frame every instruction shares: an issue slot not yet taken in this ARITH cycle (R55), FETCH, the fetch of the line
where the strand does not hold it, ILLEGAL of an opcode that no chapter lists (R90, R127), and, where the word at the PC is
this instruction with these fields, ILLEGAL of its own word, the predicate that gates it whole where `gated`, then what
`body` does with the context. Where the word at the PC is another, the instruction does not issue.
DESIGN CHOICE: assumptions 3 and 19. -/
def State.issueWith (s : State) (slot : Nat) (w : MWord) (h : Shape) (own gated : Bool) (body : Nat → Ctx → State) : State :=
  match s.issuer slot with
  | none => s
  | some (c, x) =>
    let u := IssueSlot.of h.opc
    if s.slotTaken slot u then s
    else if !s.fetchOk x then s.raiseAt slot c x .fetch u
    else if !x.holdsCode then
      if s.quadFull (slot / 128) then s.setCtx c { x with wait := .credit } else s.startFetch c x
    else
      let (opc, v) := s.wordAtPc x
      if !opcodes.contains opc then s.raiseAt slot c x .illegal u
      else if opc ≠ h.opc ∨ v ≠ w then s
      else if !(h.ok w && own) then s.raiseAt slot c x .illegal u
      else if gated && !x.enabled w 0 then (s.setCtx c x.advance).noteIssue slot u
      else body c x

/-- The frame for an instruction whose effect is on its own context alone. -/
def State.issue (s : State) (slot : Nat) (w : MWord) (h : Shape) (own gated : Bool) (body : Ctx → IRes) : State :=
  s.issueWith slot w h own gated (fun c x => s.settle slot c x (IssueSlot.of h.opc) (body x))

/-- Whether a comet of the context holds a range that an instruction would read or write (R133): the destination of
an outstanding CLD, or, for a write, the source of a comet the engine is still reading. -/
def Ctx.inFlight (x : Ctx) (reads writes : List (Nat × Nat)) : Bool :=
  x.comets.any (fun q =>
    reads.any (fun r => overlap r.1 r.2 q.dstRange.1 q.dstRange.2) ||
    writes.any (fun r => overlap r.1 r.2 q.dstRange.1 q.dstRange.2 || overlap r.1 r.2 q.srcRange.1 q.srcRange.2))

/-- A body that waits at issue while a range is in flight (R133). -/
def Ctx.guarded (x : Ctx) (reads writes : List (Nat × Nat)) (body : IRes) : IRes :=
  if x.inFlight reads writes then .stall .result else body

end Sys2Proof.Machine
end

