-- ==== Sys2Proof/Machine/Expander.lean ====
section
/-!
DEFINITION. Compressed tensors (R161 to R175) and the expander of a Moon (R176 to R181): the stored form, the values
produced, and the compressed streams, which read their segments one after another through the SIT cache and the codebook
store.
-/
namespace Sys2Proof.Machine

/-! ### Descriptors and the objects they name -/

/-- The HANDLE check of a descriptor (R104), without the byte range. -/
def State.descOk (s : State) (x : Ctx) (d : Desc) (rd wr : Bool) : Bool :=
  !d.invalid && s.refOk (mkRef d.handle d.hgen) x.part x.tenant rd wr

/-- The size of the object a descriptor names. -/
def State.descSize (s : State) (d : Desc) : Nat :=
  match s.obj? d.handle with
  | some o => o.size
  | none => 0

/-! ### Compressed tensors (R164 to R175) -/

/-- BLOCKS of a tensor header (R164). -/
def tBlocks (m : Memory) : Nat := memNat m 8 8
/-- N_SEG. -/
def tSegs (m : Memory) : Nat := memNat m 16 4
/-- N_CB. -/
def tCbs (m : Memory) : Nat := memNat m 20 2
/-- CBDIR_OFF. -/
def tDirOff (m : Memory) : Nat := memNat m 24 8
/-- SIT_OFF. -/
def tSitOff (m : Memory) : Nat := memNat m 32 8
/-- DATA_OFF. -/
def tDataOff (m : Memory) : Nat := memNat m 40 8
/-- ELEMS. -/
def tElems (m : Memory) : Nat := memNat m 48 8
/-- A directory entry (R165). -/
def tDir (m : Memory) (n : Nat) : Nat := memNat m (tDirOff m + 8 * n) 8
/-- BASE of a SIT entry (R166). -/
def sitBase (m : Memory) (g : Nat) : Nat := memNat m (tSitOff m + 16 * g) 6
/-- CB0 of a SIT entry. -/
def sitCb0 (m : Memory) (g : Nat) : Nat := memNat m (tSitOff m + 16 * g + 6) 2
/-- CB1 of a SIT entry. -/
def sitCb1 (m : Memory) (g : Nat) : Nat := memNat m (tSitOff m + 16 * g + 8) 2
/-- The RATE byte of a SIT entry. -/
def sitRate (m : Memory) (g : Nat) : Nat := memNat m (tSitOff m + 16 * g + 10) 1
/-- RAWFMT of a SIT entry. -/
def sitRaw (m : Memory) (g : Nat) : Nat := memNat m (tSitOff m + 16 * g + 11) 1
/-- SCALE of a SIT entry. -/
def sitScale (m : Memory) (g : Nat) : Nat := memNat m (tSitOff m + 16 * g + 12) 4

/-- The width in bytes of a raw segment's elements. -/
def rawBytes (raw : Nat) : Nat := ((Fmt.ofCode raw).getD .u8).bytes

/-- Bytes per block of a rate (R162). -/
def blockBytes (rate raw : Nat) : Nat :=
  match rate % 4 with
  | 0 => 256 * rawBytes raw
  | 1 => 32
  | 2 => 48
  | _ => 64

/-- Element i of codeword c of codebook n, widened to FP32 (R163, R165, R171). -/
def codewordElem (m : Memory) (n c i : Nat) : Nat :=
  let e := tDir m n
  let f := (Fmt.ofCode (bitsOf 47 44 e)).getD .bf16
  convert f .fp32 (memNat m (bitsOf 39 0 e + (c * 8 + i) * 2) 2)

/-- The value the expander produces for element `e` (R170 to R172), in a format. -/
def expandElem (m : Memory) (fmt : Fmt) (e : Nat) : Nat :=
  let b := e / 256
  let g := b / 65536
  let j := b % 65536
  let v := e % 256 / 8
  let i := e % 8
  let rate := sitRate m g % 4
  let raw := (Fmt.ofCode (sitRaw m g)).getD .bf16
  let blk := sitBase m g + j * blockBytes rate (sitRaw m g)
  let scale := fun x => convert .fp32 fmt (Fmt.mul .fp32 x (sitScale m g))
  match rate with
  | 0 => convert raw fmt (memNat m (blk + (e % 256) * raw.bytes) raw.bytes)
  | 1 => scale (codewordElem m (sitCb0 m g) (memNat m (blk + v) 1) i)
  | 2 => scale (codewordElem m (sitCb0 m g) (memNat m blk 48 / 2 ^ (12 * v) % 4096) i)
  | _ => scale (fadd32 (codewordElem m (sitCb0 m g) (memNat m (blk + 2 * v) 1) i)
                       (codewordElem m (sitCb1 m g) (memNat m (blk + 2 * v + 1) 1) i))

/-- A run of `n` elements from element `e`, as the expander produces them. -/
def expandRun (m : Memory) (fmt : Fmt) (e n : Nat) : List Nat := (List.range n).map (fun i => expandElem m fmt (e + i))

/-- The form a compressed descriptor must have where an instruction uses it (R173). -/
def Desc.compressedForm (d : Desc) : Bool :=
  decide (d.stride = 0) && decide (d.reclen = 0) && !d.wr && (d.fmt == 1 || d.fmt == 2 || d.fmt == 3 || d.fmt == 4)

/-- The HANDLE check of a compressed descriptor (R104, R173): a validated compressed tensor whose blocks hold the
window. -/
def State.compressedOk (s : State) (x : Ctx) (d : Desc) : Bool :=
  s.descOk x d true false &&
  (match s.obj? d.handle with
   | some o => tensorClass o.cls && o.validated && decide (d.offset + d.length ≤ tBlocks o.data)
   | none => false)

/-- The content of the object a descriptor names. -/
def State.descData (s : State) (d : Desc) : Memory :=
  match s.obj? d.handle with
  | some o => o.data
  | none => []

/-! ### The codebook store (R178) -/

/-- The slots that some codebooks take. -/
def bookSlots (l : List CbHeld) : Nat := (l.map (fun c => c.slots)).sum

/-- The codebooks a segment needs: none where it is raw, two at rate 3 (R162). -/
def segBooks (d : Memory) (ref g : Nat) : List CbHeld :=
  let rate := sitRate d g % 4
  let cb := fun (k : Nat) => (⟨ref, k, if bitAt 40 (tDir d k) then 16 else 1⟩ : CbHeld)
  ((if rate = 0 then [] else [cb (sitCb0 d g)]) ++ (if rate = 3 then [cb (sitCb1 d g)] else [])).eraseDups

/-- The codebooks that the streams of a Moon hold (R178). -/
def Moon.held (m : Moon) : List CbHeld := (m.streams.flatMap (fun t => t.books)).eraseDups

/-- What a store, most recently used first, keeps where `n` slots remain for codebooks that no stream holds: the least
recently used of those are replaced (R178). -/
def keepBooks (hold : List CbHeld) : Nat → List CbHeld → List CbHeld
  | _, [] => []
  | n, c :: r =>
    if hold.contains c then c :: keepBooks hold n r
    else if c.slots ≤ n then c :: keepBooks hold (n - c.slots) r
    else keepBooks hold 0 r

/-- A key moved to the front of a list of at most `cap` held keys, most recently used first (R176). -/
def holdSit (cap : Nat) (l : List (Nat × Nat)) (k : Nat × Nat) : List (Nat × Nat) :=
  (k :: l.filter (fun y => decide (y ≠ k))).take cap

/-- A codebook made the most recently used of the store. -/
def holdCodebook (l : List CbHeld) (c : CbHeld) : List CbHeld := c :: l.filter (fun y => decide (y ≠ c))

/-! ### Compressed streams (R176) -/

/-- The segment a stream reads, and the block after the last it reads there. -/
def Strm.seg (t : Strm) : Nat := t.next / 65536
/-- The block after the last that a stream reads in its segment. -/
def Strm.segEnd (t : Strm) : Nat := min t.stop ((t.seg + 1) * 65536)

/-- The bytes of the object a stream reads for its segment: the SIT entry and the codebooks it has to load, and its blocks
(R170, R176). -/
def Strm.ranges (t : Strm) (d : Memory) : List (Nat × Nat) :=
  let g := t.seg
  let bb := blockBytes (sitRate d g) (sitRaw d g)
  (if t.sitMiss then [((tSitOff d + 16 * g) / 64 * 64, 64)] else []) ++
  t.loads.map (fun c => (bitsOf 39 0 (tDir d c.cb), c.slots * 4096)) ++
  [(sitBase d g + t.next % 65536 * bb, (t.segEnd - t.next) * bb)]

/-- A stream of a Moon changed. -/
def Moon.modStream (m : Moon) (t : Strm) : Moon :=
  { m with streams := m.streams.map (fun u => if u.req = t.req then t else u) }

/-- A stream of Moon `m` enters its segment: it takes the slots of the codebooks, its engine gains the cycles of the bytes it
reads, and it sends its requests; none where too few slots are free (R176, R178).
DESIGN CHOICE: assumption 65. -/
def State.enterSegment (s : State) (m : Nat) (t : Strm) : Option State :=
  let d := match s.objOfRef t.ref with
    | some o => o.data
    | none => []
  let y := s.moon m
  let need := segBooks d t.ref t.seg
  let hold := (y.held ++ need).eraseDups
  if 32 < bookSlots hold then none
  else
    let u := { t with
      entered := true
      books := need
      sitMiss := !y.sit.contains (t.ref, t.seg)
      loads := need.filter (fun c => !y.codebooks.contains c) }
    let rs := u.ranges d
    let ls := linesOf rs
    let h := refHandle t.ref
    let s1 := s.modMoon m (fun y => { y.modStream u with
      codebooks := keepBooks hold (32 - bookSlots hold) y.codebooks
      engines := y.engines.map (fun e => if e.req = t.req then
        { e with left := e.left + ceilDiv ((rs.map (fun r => r.2)).sum) 64 } else e) })
    let s2 := s1.modCtx t.ctx (fun x => { x with outst := x.outst.map (fun q => { q with lines := ls }) })
    some (((s2.touchLines h ls).steepAdvance t.ctx h rs).requestLines (.instr t.ctx t.req) h ls false)

/-- The streams of a Moon that wait for slots enter their segments, in issue order, until one finds too few (R178). -/
def State.enterStreams (s : State) (m : Nat) : List Strm → State
  | [] => s
  | t :: r =>
    if t.entered then s.enterStreams m r
    else match s.enterSegment m t with
      | some s1 => s1.enterStreams m r
      | none => s

/-- The streams of a Moon that wait go on. -/
def State.runStreams (s : State) (m : Nat) : State := s.enterStreams m (s.moon m).streams

/-- An EXPD, or an MMA with EXP, starts as a compressed stream over blocks `b` to `b + n - 1` (R176): it takes its stream
engine to its end, and the strand waits. -/
def State.startStream (s : State) (slot c : Nat) (x : Ctx) (q0 : Outst) (ref b n : Nat) (u : IssueSlot) : State :=
  let (id, s1) := s.fresh
  let q := { q0 with id := id, pc := x.pc, gen := (s.part x.part).routeCur.gen }
  let s2 := s1.setCtx c { x with outst := some q, issued := true, wait := .memory }
  let s3 := s2.modMoon (slot / 8) (fun m => { m with
    engines := m.engines ++ [⟨slot, id, 0, true⟩]
    streams := m.streams ++ [⟨c, id, ref, b, b + n, false, [], false, []⟩] })
  (s3.runStreams (slot / 8)).noteIssue slot u

/-- Whether a Moon serves four compressed streams, so that a fifth waits (R176). -/
def State.streamsFull (s : State) (m : Nat) : Bool := decide (4 ≤ (s.moon m).streams.length)

/-- The stream of an instruction. -/
def State.strm? (s : State) (m req : Nat) : Option Strm := (s.moon m).streams.find? (fun t => decide (t.req = req))

/-- A stream ends: its slots and its engine's hold are released (R176, R178). -/
def State.endStream (s : State) (m req : Nat) : State :=
  s.modMoon m (fun y => { y with
    streams := y.streams.filter (fun t => decide (t.req ≠ req))
    engines := y.engines.map (fun e => if e.req = req then { e with stream := false } else e) })

/-- A stream has read its segment: what it loaded is held, most recently used, and its blocks and loads are counted (R176,
R178, R181). -/
def State.countSegment (s : State) (m : Nat) (t : Strm) (d : Memory) : State :=
  let n := t.segEnd - t.next
  let s1 := if sitRate d t.seg % 4 = 0 then s.fwrap Reg.MOON_EXP_RAW_BLOCKS [m] n
    else s.fwrap Reg.MOON_EXP_CODED_BLOCKS [m] n
  let s2 := if t.sitMiss then s1.fwrap Reg.MOON_EXP_LOADS_SIT_MISSES [m] 1 else s1
  let s3 := s2.fwrap Reg.MOON_EXP_LOADS_CB_LOADS [m] t.loads.length
  s3.modMoon m (fun y => { y with
    sit := holdSit 64 y.sit (t.ref, t.seg)
    codebooks := t.books.foldl holdCodebook y.codebooks })

/-- A stream moves to its next segment: the slots of the last are released, and it waits for those of the next behind the
streams that were issued before it (R178). -/
def State.nextSegment (s : State) (m : Nat) (t : Strm) : State :=
  (s.modMoon m (fun y => y.modStream
    { t with next := t.segEnd, entered := false, books := [], sitMiss := false, loads := [] })).runStreams m

end Sys2Proof.Machine
end

