-- ==== Sys2Proof/Machine/MoonLau.lean ====
section
/-!
DEFINITION. The lookup-accumulate unit (R119 to R124) and the encoder KVENC (R136), with the table-building LTB.
-/
namespace Sys2Proof.Machine

/-- The squared difference of two elements, each step rounded to FP32 (R120, R136). -/
def l2Term (f : Fmt) (a b : Nat) : Nat :=
  let d := Fmt.round .fp32 .toInf (FVal.add (f.val a) (FVal.neg (f.val b)))
  Fmt.mul .fp32 d d

/-- The FP32 sum over i of the terms of a query row slice and a codeword (R120). -/
def rowDot (f : Fmt) (l2 : Bool) (q c : List Nat) : Nat :=
  fixedSum ((q.zip c).map (fun p => if l2 then l2Term f p.1 p.2 else product32 f f p.1 p.2))

/-- `n` items of a list from index `a`. -/
def slice {α : Type} (l : List α) (a n : Nat) : List α := (l.drop a).take n

/-- LTB (R120): builds H·G tables of 256 entries from a query and codebooks in scratch. -/
def execLtb (slot : Nat) (w : MWord) (s : State) : Outcome :=
  let h := w.immBits 15 0
  let g := w.immBits 31 16
  let d := w.immBits 41 32
  let ef := (Fmt.ofCode (w.auxBits 3 0)).getD .u8
  let f := w.format
  .next (s.issue slot w
    { opc := 0x50, sa := true, sb := true, sc := true, mods := 1, aux := 15, imm := 2 ^ 42 - 1, fmts := [1, 2] }
    (decide (1 ≤ h) && decide (h ≤ 64) && decide (1 ≤ g) && decide (g ≤ 64) && decide (1 ≤ d) && decide (d ≤ 512) &&
      decide (g * d ≤ 4096) && decide (w.auxBits 3 0 ≤ 2)) true
    (fun x =>
      let a := (x.getS w.sa).toNat
      let b := (x.getS w.sb).toNat
      let t := (x.getS w.sc).toNat
      let na := h * g * d * f.bytes
      let nb := g * 256 * d * f.bytes
      checked [(x.scratchOk a na f.bytes, .scratch), (x.scratchOk b nb f.bytes, .scratch),
               (x.tableOk t (h * g * tableUnits ef) (tableUnits ef), .table)]
        (x.guarded [(a, na), (b, nb)] []
          (let q := x.elems f a (h * g * d)
           let cb := x.elems f b (g * 256 * d)
           let entries := (List.range (h * g * 256)).map (fun i =>
             let gg := i / 256 % g
             convert .fp32 ef (rowDot f (w.modBit 0) (slice q ((i / 256) * d) d) (slice cb ((gg * 256 + i % 256) * d) d)))
           .ok ({ x with tables := memWrite x.tables (t * 256) (elemBytes ef entries) }.mac
             ((if w.modBit 0 then 2 else 1) * ceilDiv (h * g * 256 * d) 1024))))))

/-- LTLD (R121): copies n units from scratch to the table store. -/
def execLtld (slot : Nat) (w : MWord) (s : State) : Outcome :=
  let n := w.immBits 15 0
  .next (s.issue slot w { opc := 0x51, sa := true, sb := true, imm := 2 ^ 16 - 1 }
    (decide (1 ≤ n) && decide (n ≤ 1024)) true
    (fun x =>
      let a := (x.getS w.sa).toNat
      let t := (x.getS w.sb).toNat
      checked [(x.scratchOk a (n * 256) 256, .scratch), (x.tableOk t n 1, .table)]
        (x.guarded [(a, n * 256)] []
          (.ok ({ x with tables := memWrite x.tables (t * 256) (memRead x.scratch a (n * 256)) }.lau (ceilDiv n 4))))))

/-- The entry a code selects in table `t` from unit `u` (R122). -/
def Ctx.tableEntry (x : Ctx) (f : Fmt) (u t code : Nat) : Nat :=
  memNat x.tables ((u + t * tableUnits f) * 256 + code * f.bytes) f.bytes

/-- One output of LAC (R122): the FP32 reduction by g, or the INT8 sum saturated to INT32.
DEDUCED: assumption 24. -/
def lacOutput (f : Fmt) (es : List Nat) : Nat :=
  if f = .int8 then ofSigned 32 (satSigned 32 ((es.map (toSigned 8)).sum))
  else fixedSum (es.map (convert f .fp32))

/-- LAC (R122): scores K records against H·G tables, with the largest output of each h where MOD[0] is 1.
The maxima are written after the outputs, where their ranges overlap.
DESIGN CHOICE: assumptions 64 and 71. -/
def execLac (slot : Nat) (w : MWord) (s : State) : Outcome :=
  let k := w.immBits 31 0
  let h := w.immBits 47 32
  let g := w.immBits 55 48
  let f := w.format
  let mx := w.modBit 0
  .next (s.issue slot w
    { opc := 0x52, dst := mx, sa := true, sb := true, sc := true, mods := 1, imm := 2 ^ 56 - 1, fmts := [0, 1, 2, 5] }
    (decide (1 ≤ k) && decide (1 ≤ h) && decide (h ≤ 64) && decide (1 ≤ g) && decide (g ≤ 64)) true
    (fun x =>
      let a := (x.getS w.sa).toNat
      let t := (x.getS w.sb).toNat
      let c := (x.getS w.sc).toNat
      let m := (x.getS w.dst).toNat
      checked [(!overlap c (k * h * 4) a (k * g) && !(mx && overlap m (h * 4) a (k * g)), .illegal),
               (x.scratchOk a (k * g) 1, .scratch),
               (x.tableOk t (h * g * tableUnits f) (tableUnits f), .table),
               (x.scratchOk c (k * h * 4) 4, .scratch),
               (!mx || x.scratchOk m (h * 4) 4, .scratch)]
        (x.guarded [(a, k * g)] ((c, k * h * 4) :: if mx then [(m, h * 4)] else [])
          (let out : Fmt := if f = .int8 then .int32 else .fp32
           let codes := x.elems .u8 a (k * g)
           let rows := (List.range k).map (fun r => (List.range h).map (fun hh =>
             lacOutput f ((List.range g).map (fun gg => x.tableEntry f t (hh * g + gg) (codes.getD (r * g + gg) 0)))))
           let x1 := (x.lau (ceilDiv (k * h * g * (if f = .fp32 then 2 else 1)) 2048)).putScratch c (elemBytes out rows.flatten)
           .ok (if mx then
               x1.putScratch m (elemBytes out ((List.range h).map (fun hh => largest out (rows.map (fun r => r.getD hh 0)))))
             else x1)))))

/-- One weight of LEXPW (R123). -/
def lexpWeight (f : Fmt) (score mx c : Nat) : Nat :=
  convert .fp32 f (exp2 (Fmt.mul .fp32 (Fmt.sub .fp32 score mx) c))

/-- LEXPW (R123): softmax weights from scores, maxima and a scale. -/
def execLexpw (slot : Nat) (w : MWord) (s : State) : Outcome :=
  let k := w.immBits 31 0
  let sc := w.immBits 63 32
  let h := w.aux.toNat
  let f := w.format
  .next (s.issue slot w
    { opc := 0x53, sa := true, sb := true, sc := true, aux := 255, imm := 2 ^ 64 - 1, fmts := [0, 1, 2] }
    (decide (1 ≤ k) && decide (1 ≤ h) && decide (h ≤ 64)) true
    (fun x =>
      let a := (x.getS w.sa).toNat
      let b := (x.getS w.sb).toNat
      let c := (x.getS w.sc).toNat
      checked [(!overlap c (k * h * f.bytes) a (k * h * 4) && !overlap c (k * h * f.bytes) b (h * 4), .illegal),
               (x.scratchOk a (k * h * 4) 4, .scratch), (x.scratchOk b (h * 4) 4, .scratch),
               (x.scratchOk c (k * h * f.bytes) f.bytes, .scratch)]
        (x.guarded [(a, k * h * 4), (b, h * 4)] [(c, k * h * f.bytes)]
          (let scores := x.elems .fp32 a (k * h)
           let maxima := x.elems .fp32 b h
           .ok ((x.lau (ceilDiv (k * h * (if f = .fp32 then 2 else 1)) 2048)).putScratch c
             (elemBytes f ((List.range (k * h)).map (fun i =>
             lexpWeight f (scores.getD i 0) (maxima.getD (i % h) 0) sc))))))))

/-- LBIN (R124): collects weights per codeword, and with MOD[0] the sum of the weights of each h. The sums are written after the
bins, where their ranges overlap.
DESIGN CHOICE: assumption 71. -/
def execLbin (slot : Nat) (w : MWord) (s : State) : Outcome :=
  let k := w.immBits 31 0
  let h := w.immBits 47 32
  let g := w.immBits 55 48
  let f := w.format
  let bf := (Fmt.ofCode (w.auxBits 3 0)).getD .u8
  let sm := w.modBit 0
  .next (s.issue slot w
    { opc := 0x54, dst := sm, sa := true, sb := true, sc := true, mods := 1, aux := 15, imm := 2 ^ 56 - 1, fmts := [0, 1, 2] }
    (decide (1 ≤ k) && decide (k ≤ 4096) && decide (1 ≤ h) && decide (h ≤ 64) && decide (1 ≤ g) && decide (g ≤ 64) &&
      decide (w.auxBits 3 0 ≤ 2)) true
    (fun x =>
      let a := (x.getS w.sa).toNat
      let b := (x.getS w.sb).toNat
      let c := (x.getS w.sc).toNat
      let m := (x.getS w.dst).toNat
      let na := k * h * f.bytes
      let nb := k * g
      let nc := h * g * 256 * bf.bytes
      checked [(!overlap c nc a na && !overlap c nc b nb &&
                  !(sm && (overlap m (h * 4) a na || overlap m (h * 4) b nb)), .illegal),
               (x.scratchOk a na f.bytes, .scratch), (x.scratchOk b nb 1, .scratch),
               (x.scratchOk c nc bf.bytes, .scratch), (!sm || x.scratchOk m (h * 4) 4, .scratch)]
        (x.guarded [(a, na), (b, nb)] ((c, nc) :: if sm then [(m, h * 4)] else [])
          (let ws := (x.elems f a (k * h)).map (convert f .fp32)
           let codes := x.elems .u8 b (k * g)
           let bin := fun (hh gg cc : Nat) =>
             fixedSum (((List.range k).filter (fun r => decide (codes.getD (r * g + gg) 0 = cc))).map
               (fun r => ws.getD (r * h + hh) 0))
           let bins := (List.range (h * g * 256)).map (fun i =>
             convert .fp32 bf (bin (i / 256 / g) (i / 256 % g) (i % 256)))
           let e := if f = .fp32 ∨ bf = .fp32 then 2 else 1
           let x1 := (x.lau (ceilDiv (k * h * g * e) 2048)).putScratch c (elemBytes bf bins)
           .ok (if sm then
               x1.putScratch m (elemBytes .fp32 ((List.range h).map (fun hh =>
                 fixedSum ((List.range k).map (fun r => ws.getD (r * h + hh) 0)))))
             else x1)))))

/-- The lowest index of the smallest distance; a NaN orders after every number, and all NaN give 0 (R136). -/
def nearest (ds : List Nat) : Nat :=
  (ds.foldl (fun (acc : Nat × Nat × Int) d =>
    let key := distKey d
    (acc.1 + 1, if key < acc.2.2 then (acc.1, key) else acc.2)) (0, 0, 2 ^ 31)).2.1

/-- KVENC (R136): the index of the nearest codeword of each sub-vector; it runs on the MAC array and issues in the
compute slot (R55). -/
def execKvenc (slot : Nat) (w : MWord) (s : State) : Outcome :=
  let h := w.immBits 15 0
  let g := w.immBits 31 16
  let f := w.format
  .next (s.issue slot w { opc := 0x87, sa := true, sb := true, sc := true, imm := 2 ^ 32 - 1, fmts := [1, 2] }
    (decide (1 ≤ h) && decide (h ≤ 64) && decide (1 ≤ g) && decide (g ≤ 64)) true
    (fun x =>
      let a := (x.getS w.sa).toNat
      let b := (x.getS w.sb).toNat
      let c := (x.getS w.sc).toNat
      let na := h * g * 8 * f.bytes
      let nb := g * 256 * 8 * f.bytes
      checked [(x.scratchOk a na f.bytes, .scratch), (x.scratchOk b nb f.bytes, .scratch),
               (x.scratchOk c (h * g) 1, .scratch)]
        (x.guarded [(a, na), (b, nb)] [(c, h * g)]
          (let q := x.elems f a (h * g * 8)
           let cb := x.elems f b (g * 256 * 8)
           .ok ((x.mac (4 * h * g)).putScratch c (elemBytes .u8 ((List.range (h * g)).map (fun i =>
             nearest ((List.range 256).map (fun cc =>
               rowDot f true (slice q (i * 8) 8) (slice cb ((i % g * 256 + cc) * 8) 8)))))))))))

end Sys2Proof.Machine
end

