-- ==== Sys2Proof/Machine/MoonMem.lean ====
section
/-!
DEFINITION. The memory instructions of a Moon (R127 to R135, R156, R173 to R175), the MAC array's MMA (R116 to R118)
with its expander form, and the sending of messages (R143 to R146).
-/
namespace Sys2Proof.Machine

/-! ### Starting a memory instruction -/

/-- What a memory instruction does at issue. -/
inductive MRes where
  /-- It starts: its record, the bytes its stream engine moves, and the context with what it changes at issue. -/
  | start (x : Ctx) (q : Outst) (bytes : Nat)
  /-- It starts as a compressed stream over blocks `b` to `b + n - 1` of the object of a reference. -/
  | stream (x : Ctx) (q : Outst) (ref b n : Nat)
  | stall (w : Wait)
  | exc (e : Exc)
  deriving DecidableEq, Repr

/-- Whether a fence still holds a memory instruction back (R139): an earlier comet it waits for is outstanding. -/
def Ctx.fenced (x : Ctx) (store : Bool) : Bool :=
  x.comets.any (fun q => x.fenceAll.contains q.id || (store && x.fenceStores.contains q.id))

/-- The first of some checks that fails, else what comes after. -/
def mchecked (cs : List (Bool × Exc)) (r : MRes) : MRes :=
  match firstFail cs with
  | some e => .exc e
  | none => r

/-- A memory instruction behind its frame (R97, R130, R138, R139): exceptions first, then the waits at issue for a
fence, for the 65th comet, for an engine and for room in the quadrant's queues (R306). `store` tells whether FENCE with MOD 1 holds it. -/
def State.memIssue (s : State) (slot : Nat) (w : MWord) (h : Shape) (own gated store comet engine : Bool)
    (body : Ctx → MRes) : State :=
  s.issueWith slot w h own gated (fun c x =>
    match body x with
    | .exc e => s.raiseAt slot c x e (IssueSlot.of h.opc)
    | .stall r => s.setCtx c { x with wait := r }
    | .start y q b =>
      if x.fenced store then s.setCtx c { x with wait := .result }
      else if comet && decide (64 ≤ x.comets.length) then s.setCtx c { x with wait := .result }
      else if engine && !s.engineFree slot then s.setCtx c { x with wait := s.engineWait slot }
      else if s.quadFull (slot / 128) then s.setCtx c { x with wait := .credit }
      else s.startMem slot c y q b engine comet (IssueSlot.of h.opc)
    | .stream y q ref b n =>
      if x.fenced store then s.setCtx c { x with wait := .result }
      else if !s.engineFree slot then s.setCtx c { x with wait := s.engineWait slot }
      else if s.quadFull (slot / 128) then s.setCtx c { x with wait := .credit }
      else s.startStream slot c y q ref b n (IssueSlot.of h.opc))

/-- The checks a stream descriptor's form takes part in with the ILLEGAL rules (R129): none where it is invalid. -/
def Desc.usable (d : Desc) (needRd needWr : Bool) : Bool :=
  d.invalid || ((!needRd || d.rd) && (!needWr || d.wr) && decide (d.kind ≠ 3))

/-- LD, ST, CLD and CST (R128, R129): n units between scratch s[SA] and the object of st[AUX] from s[SB].
DEDUCED: assumption 69. -/
def State.streamMove (s : State) (slot : Nat) (w : MWord) (opc : Nat) (store comet : Bool) : State :=
  let n := w.immBits 31 0
  s.memIssue slot w
    { opc := opc, sa := true, sb := true, aux := 15, imm := if comet then 2 ^ 40 - 1 else 2 ^ 32 - 1 }
    (decide (n ≠ 0)) true store comet true
    (fun x =>
      let d := x.getD w.desc
      let a := (x.getS w.sa).toNat
      let b := x.getS w.sb
      let bytes := if d.kind = 0 then n else n * d.reclen
      let gather := d.kind = 2
      let idx := fun r => memNat x.scratch (b.toNat + 8 * r) 8
      mchecked [(d.usable (!store) store, .illegal), (x.scratchOk a bytes 1, .scratch),
                (!gather || x.scratchOk b.toNat (8 * n) 8, .scratch)]
        (if x.inFlight ((if store then [(a, bytes)] else []) ++ if gather then [(b.toNat, 8 * n)] else [])
              (if store then [] else [(a, bytes)]) then .stall .result
         else
           let rs := streamRecords d b n idx
           mchecked [(s.descOk x d (!store) store && inObject (s.descSize d) (windowed d rs), .handle),
                     (inWindow d rs, .range)]
             (let ps := streamPieces a rs
              let ls := linesOf (ps.map (fun p => (p.1, p.2.1)))
              let op := if store then MemOp.store (ps.map (fun p => (p.1, memRead x.scratch p.2.2 p.2.1)))
                else MemOp.load ps
              let q := { Outst.blank d.handle ls store op with
                ac := w.immBits 39 32
                dstRange := if comet && !store then (a, bytes) else (0, 0)
                srcRange := if comet && store then (a, bytes) else (0, 0) }
              .start x q bytes)))

/-- LD (R128 to R131). -/
def execLd (slot : Nat) (w : MWord) (s : State) : Outcome := .next (s.streamMove slot w 0x80 false false)
/-- ST (R128 to R131). -/
def execSt (slot : Nat) (w : MWord) (s : State) : Outcome := .next (s.streamMove slot w 0x81 true false)
/-- CLD (R128, R133, R138). -/
def execCld (slot : Nat) (w : MWord) (s : State) : Outcome := .next (s.streamMove slot w 0x82 false true)
/-- CST (R128, R133, R138). -/
def execCst (slot : Nat) (w : MWord) (s : State) : Outcome := .next (s.streamMove slot w 0x83 true true)

/-! ### EXPD -/

/-- EXPD (R174): expands n blocks of a compressed descriptor into scratch. -/
def execExpd (slot : Nat) (w : MWord) (s : State) : Outcome :=
  let n := w.immBits 31 0
  .next (s.memIssue slot w
    { opc := 0x84, sa := true, sb := true, aux := 15, imm := 2 ^ 32 - 1, fmts := [1, 2, 3, 4] } (decide (n ≠ 0)) true false false true
    (fun x =>
      let d := x.getD w.desc
      let a := (x.getS w.sa).toNat
      let b := (x.getS w.sb).toNat
      let f := w.format
      let nb := n * 256 * f.bytes
      mchecked [(d.invalid || (decide (d.kind = 3) && d.compressedForm && decide (d.fmt = w.fmt.toNat)), .illegal),
                (x.scratchOk a nb f.bytes, .scratch)]
        (if x.inFlight [] [(a, nb)] then .stall .result
         else mchecked [(s.compressedOk x d, .handle), (decide (b + n ≤ d.length), .range)]
           (if s.streamsFull (slot / 8) then .stall .unit
            else .stream x (Outst.blank d.handle [] false (.expand (d.offset + b) n a f))
              (mkRef d.handle d.hgen) (d.offset + b) n))))

/-! ### AMO, PUB, BMTST -/

/-- AMO (R134): an atomic on the 8-byte word at OFFSET + s[SB] of st[AUX]; SC is used by CAS alone.
DEDUCED: assumptions 21 and 69. -/
def execAmo (slot : Nat) (w : MWord) (s : State) : Outcome :=
  .next (s.memIssue slot w
    { opc := 0x85, dst := true, sa := true, sb := true, sc := decide (w.md = 7), mods := 15, aux := 15 }
    (decide (w.md.toNat < 8)) true true false false
    (fun x =>
      let d := x.getD w.desc
      let off := d.offset + (x.getS w.sb).toNat
      mchecked [(d.usable true true && (d.invalid || decide (off % 8 = 0)), .illegal),
                (s.descOk x d true true && inObject (s.descSize d) (windowed d [(off, 8)]), .handle),
                (inWindow d [(off, 8)], .range)]
        (.start x (Outst.blank d.handle (linesOf [(off, 8)]) true
          (.amo off w.md.toNat (x.getS w.sa).toNat (x.getS w.sc).toNat w.dst.toNat)) 8)))

/-- PUB (R135): a version compare-and-swap at OFFSET of st[AUX], after every earlier store of the context. -/
def execPub (slot : Nat) (w : MWord) (s : State) : Outcome :=
  .next (s.memIssue slot w
    { opc := 0x86, dst := true, sa := true, sb := true, aux := 15, imm := 7 } true true true false false
    (fun x =>
      let d := x.getD w.desc
      let off := d.offset
      mchecked [(d.usable true true && (d.invalid || decide (off % 8 = 0)), .illegal),
                (s.descOk x d true true && inObject (s.descSize d) (windowed d [(off, 8)]), .handle),
                (inWindow d [(off, 8)], .range)]
        (if x.comets.any (fun q => q.write) then .stall .result
         else .start x (Outst.blank d.handle (linesOf [(off, 8)]) true
          (.pub off (x.getS w.sa).toNat (x.getS w.sb).toNat w.dst.toNat (w.immBits 2 0))) 8)))

/-- BMTST (R156): the allowed bits of n IDs in a linear bitmap; an ID outside the window reads as 0. It takes no stream engine,
as R130 does not list it.
DEDUCED: assumption 22. DESIGN CHOICE: assumption 67. -/
def execBmtst (slot : Nat) (w : MWord) (s : State) : Outcome :=
  let n := w.immBits 15 0
  .next (s.memIssue slot w { opc := 0xA4, dst := true, sa := true, aux := 15, imm := 2 ^ 16 - 1 }
    (decide (1 ≤ n) && decide (n ≤ 256) && decide (w.dst.toNat < 8)) false false false false
    (fun x =>
      let d := x.getD w.desc
      let a := (x.getS w.sa).toNat
      mchecked [(d.invalid || (d.rd && decide (d.kind = 0)), .illegal), (x.lanesOk w a 8 n 8, .scratch)]
        (if x.inFlight (x.laneRanges w a 8 n) [] then .stall .result
         else
           let bits := (List.range n).map (fun k =>
             if x.enabled w k then
               let i := memNat x.scratch (a + 8 * k) 8 % 2 ^ 40
               if i / 8 < d.length then some (d.offset + i / 8, i % 8) else none
             else none)
           let rs := bits.filterMap (fun b => b.map (fun p => (p.1, 1)))
           mchecked [(s.descOk x d true false && rs.all (fun r => decide (r.1 < s.descSize d)), .handle)]
             (.start x (Outst.blank d.handle (linesOf rs) false (.bitmap bits w.dst.toNat)) 0))))

/-! ### The MAC array (R116 to R118, R175) -/

/-- Whether a pair of format codes may enter an MMA (R116): equal, or E4M3 and E5M2 mixed. -/
def mmaFormats (a b : Nat) : Bool :=
  [1, 2, 3, 4, 5].contains a && (a == b || ((a == 3 || a == 4) && (b == 3 || b == 4)))

/-- An empty chain of a shape (R117). -/
def Chain.start (m n : Nat) (fa fb : Fmt) : Chain :=
  ⟨m, n, fa, fb, 0, List.replicate (m * n) [], List.replicate (m * n) 0⟩

/-- The chain after the first `cnt` products of each output of an MMA, A row-major M × K and B row-major K × N, entered in
order of k (R116, R117, R69). -/
def Chain.feed (ch : Chain) (k cnt : Nat) (a b : List Nat) : Chain :=
  let prods := fun (o : Nat) => (List.range cnt).map (fun i =>
    (a.getD (o / ch.n * k + i) 0, b.getD (i * ch.n + o % ch.n) 0))
  { ch with
    k := ch.k + cnt
    stackOf := if ch.fa = .int8 then ch.stackOf else
      (ch.stackOf.zipIdx).map (fun so => (prods so.2).foldl (fun st p =>
        stackPush fadd32 st (product32 ch.fa ch.fb p.1 p.2)) so.1)
    sums := if ch.fa = .int8 then
      (ch.sums.zipIdx).map (fun so => (prods so.2).foldl (fun t p => t + toSigned 8 p.1 * toSigned 8 p.2) so.1)
      else ch.sums }

/-- The outputs of a closed chain, FP32 or INT32 (R117). -/
def Chain.outputs (ch : Chain) : List Nat :=
  if ch.fa = .int8 then ch.sums.map (fun t => ofSigned 32 (satSigned 32 t))
  else ch.stackOf.map (fun st => stackClose fadd32 0 st)

/-- The chain an MMA goes on with: a new one where it opens (R117). -/
def Ctx.chainFor (x : Ctx) (m n : Nat) (fa fb : Fmt) (opn : Bool) : Chain :=
  if opn then Chain.start m n fa fb else x.chain.getD (Chain.start m n fa fb)

/-- The context of an MMA that would pass the limit of a reduction: each output keeps the sum of its first 2^32 values (R68,
R69). -/
def Ctx.mmaLimit (x : Ctx) (m n k : Nat) (fa fb : Fmt) (a b : List Nat) (opn : Bool) : Ctx :=
  let ch := x.chainFor m n fa fb opn
  { x with chain := some (ch.feed k (2 ^ 32 - ch.k) a b) }

/-- The context after an MMA whose operands are at hand (R117): C is written only at CLOSE. -/
def Ctx.mmaDone (x : Ctx) (m n k : Nat) (fa fb : Fmt) (a b : List Nat) (c : Nat) (opn cls : Bool) : Ctx :=
  let ch := (x.chainFor m n fa fb opn).feed k k a b
  let y := x.mac (ceilDiv (m * n * k) (if fa.bytes = 1 then 2048 else 1024))
  if cls then { y with chain := none }.putScratch c (elemBytes .fp32 ch.outputs) else { y with chain := some ch }

/-- MMA (R116 to R118, R175): from scratch, or with EXP from the expander while the strand waits. -/
def execMma (slot : Nat) (w : MWord) (s : State) : Outcome :=
  let m := w.immBits 15 0
  let n := w.immBits 31 16
  let k := w.immBits 63 32
  let opn := w.modBit 0
  let cls := w.modBit 1
  let ex := w.modBit 2
  let fa := w.format
  let fb := (Fmt.ofCode (w.auxBits 3 0)).getD .u8
  .next (s.issueWith slot w
    { opc := 0x40, sa := true, sb := !ex, sc := true, mods := 7, aux := if ex then 255 else 15, imm := 2 ^ 64 - 1,
      fmts := [1, 2, 3, 4, 5] }
    (decide (1 ≤ m) && decide (m ≤ 64) && decide (1 ≤ n) && decide (n ≤ 64) && decide (1 ≤ k) &&
      mmaFormats w.fmt.toNat (w.auxBits 3 0) && !(ex && (fa == .int8 || decide (k * n % 256 ≠ 0)))) true
    (fun c x =>
      let di := BitVec.ofNat 4 (w.auxBits 7 4)
      let d := x.getD di
      let a := (x.getS w.sa).toNat
      let b := (x.getS w.sb).toNat
      let cc := (x.getS w.sc).toNat
      let na := m * k * fa.bytes
      let nb := k * n * fb.bytes
      let nc := m * n * 4
      let chainOk := opn || (match x.chain with
        | some ch => decide (ch.m = m) && decide (ch.n = n) && decide (ch.fa = fa) && decide (ch.fb = fb)
        | none => false)
      let k0 := (x.chainFor m n fa fb opn).k
      let blocks := k * n / 256
      let bad := firstFail
        [(chainOk, .illegal),
         (!(cls && (overlap cc nc a na || (!ex && overlap cc nc b nb))), .illegal),
         (!ex || d.invalid || (decide (d.kind = 3) && d.compressedForm && decide (d.fmt = w.auxBits 3 0)), .illegal),
         (x.scratchOk a na fa.bytes, .scratch), (ex || x.scratchOk b nb fb.bytes, .scratch),
         (!cls || x.scratchOk cc nc 4, .scratch),
         (!ex || s.compressedOk x d, .handle), (!ex || decide (1 ≤ d.length ∧ blocks ≤ d.length), .range),
         (decide (k0 + k ≤ 2 ^ 32), .arithLimit)]
      let bOf := fun (_ : Unit) => if ex then expandRun (s.descData d) fb (256 * d.offset) (k * n) else x.elems fb b (k * n)
      match bad with
      | some .arithLimit =>
        let y := x.mmaLimit m n k fa fb (x.elems fa a (m * k)) (bOf ()) opn
        (s.setCtx c y).raiseAt slot c y .arithLimit .compute
      | some e => s.raiseAt slot c x e .compute
      | none =>
        if x.inFlight ((a, na) :: if ex then [] else [(b, nb)]) (if cls then [(cc, nc)] else []) then
          s.setCtx c { x with wait := .result }
        else if ex then
          if x.fenced false then s.setCtx c { x with wait := .result }
          else if s.streamsFull (slot / 8) then s.setCtx c { x with wait := .unit }
          else if !s.engineFree slot then s.setCtx c { x with wait := s.engineWait slot }
          else if s.quadFull (slot / 128) then s.setCtx c { x with wait := .credit }
          else
            let y := x.setD di { d with
              w0 := BitVec.ofNat 64 (putBits 51 0 d.w0.toNat (d.offset + blocks))
              w2 := BitVec.ofNat 64 (putBits 63 32 d.w2.toNat (d.length - blocks)) }
            s.startStream slot c y (Outst.blank d.handle [] false (.mmaExp di d.offset m n k fa fb a cc opn cls))
              (mkRef d.handle d.hgen) d.offset blocks .compute
        else
          let x' := x.mmaDone m n k fa fb (x.elems fa a (m * k)) (x.elems fb b (k * n)) cc opn cls
          (s.setCtx c x'.advance).noteIssue slot .compute))

/-! ### MSGS (R143 to R146) -/

/-- The message header a device forms (R145). -/
def msgHeader (pbr part len chan seq ref gen tenant job : Nat) (merge : Bool) : List Byte :=
  natBytes 2 (pbr % 4096) ++ natBytes 1 part ++ natBytes 1 (bit01 merge) ++ natBytes 2 len ++ natBytes 1 chan ++
  natBytes 1 0 ++ natBytes 8 seq ++ natBytes 4 ref ++ natBytes 4 gen ++ natBytes 4 tenant ++ natBytes 4 job ++
  natBytes 32 0

/-- Whether a partition is a shadow that suppresses its outward effects (R523). -/
def State.suppressed (s : State) (p : Nat) : Bool :=
  match (s.part p).shadow with
  | some h => !h.leader
  | none => false

/-- MSGS (R144): sends a message to an entry of the route map in force. The message leaves with the comet; a shadow
sends nothing to another device, and its counter gains its 1 at once (R523). -/
def execMsgs (slot : Nat) (w : MWord) (s : State) : Outcome :=
  let len := w.immBits 15 0
  .next (s.issueWith slot w
    { opc := 0x98, sa := true, sb := true, mods := 1, imm := 0xFF00FFFFFF }
    (decide (1 ≤ len) && decide (len ≤ 4032)) true
    (fun c x =>
      let a := (x.getS w.sa).toNat
      let en := (x.getS w.sb).toNat % 2 ^ 16
      let rm := (s.part x.part).routeCur
      let e := kvGet [] rm.entries en
      match firstFail [(x.scratchOk a len 1, .scratch), (decide (reKind e = 3), .route)] with
      | some ex => s.raiseAt slot c x ex .memory
      | none =>
        if x.inFlight [(a, len)] [] || x.fenced true || decide (64 ≤ x.comets.length) then
          s.setCtx c { x with wait := .result }
        else if !s.engineFree slot then s.setCtx c { x with wait := s.engineWait slot }
        else if s.quadFull (slot / 128) then s.setCtx c { x with wait := .credit }
        else
          let seq := kvGet 0 x.seqs en
          let payload := memRead x.scratch a len
          let msg : Msg := ⟨msgHeader (s.ownPbr.getD 0) x.part len (w.immBits 23 16) seq (x.ref c) rm.gen x.tenant
            x.job (w.modBit 0), payload⟩
          let x' := { x with seqs := kvSet x.seqs en ((seq + 1) % 2 ^ 64) }
          let s1 := if reLocal e then s
            else s.digestAdd x.part (3 :: en :: payload.map (fun b => b.toNat))
          if !reLocal e && s1.suppressed x.part then
            let ai := BitVec.ofNat 8 (w.immBits 39 32)
            (s1.setCtx c (x'.gain ai).advance).noteIssue slot .memory
          else
            let q := { Outst.blank 0 [] false (.message en (w.immBits 23 16) msg) with
              ac := w.immBits 39 32, srcRange := (a, len) }
            let s2 := s1.startMem slot c x' q len true true .memory
            s2.requestRun (.comet c s1.fresh.1) x.part (64 + len) (if reLocal e then 256 else s2.peerPort (rePbr e))
              (if reLocal e then s2.sliceOfRef (reCtx e) else s2.peerPort (rePbr e))))

end Sys2Proof.Machine
end

