-- ==== Sys2Proof/Machine/Regs.lean ====
section
/-!
DEFINITION. Which register an offset of BAR0 is (R563), which partition a register belongs to (R32), and whether a
partition has anything staged (R51).
-/
namespace Sys2Proof.Machine

/-- The indices that fill in an offset from a register's base, where there are such (R562, R563). -/
def matchDims : List (Nat × Nat) → Nat → Option (List Nat)
  | [], n => if n = 0 then some [] else none
  | (st, cnt) :: r, n => if n / st < cnt then (matchDims r (n % st)).map (fun q => (n / st) :: q) else none

/-- The register at an offset and its indices. -/
def regAtIn : List RegName → Nat → Option (RegName × List Nat)
  | [], _ => none
  | r :: rs, off =>
    if r.desc.base ≤ off then
      match matchDims r.desc.dims (off - r.desc.base) with
      | some ix => some (r, ix)
      | none => regAtIn rs off
    else regAtIn rs off

/-- The register at a BAR0 offset (R563); none where no register is listed. -/
def regAt (off : Nat) : Option (RegName × List Nat) := regAtIn RegName.all off

/-- The partition a key slot is granted to in the sealed table (R453, R464), where it is granted. -/
def State.slotPart (s : State) (k : Nat) : Option Nat :=
  partIds.find? (fun p => s.partValid p && decide (s.fget Reg.PART_CFG_B_KS_BASE [p] ≤ k) &&
    decide (k < s.fget Reg.PART_CFG_B_KS_BASE [p] + s.fget Reg.PART_CFG_B_KS_COUNT [p]))

/-- The key slots granted to a partition. -/
def State.slotsOf (s : State) (p : Nat) : List Nat :=
  span (s.fget Reg.PART_CFG_B_KS_BASE [p]) (s.fget Reg.PART_CFG_B_KS_BASE [p] + s.fget Reg.PART_CFG_B_KS_COUNT [p])

/-- The partition a register belongs to, where it belongs to one (R32). -/
def State.regPart (s : State) (r : RegName) (ix : List Nat) : Option Nat :=
  match r.desc.owner with
  | .none => none
  | .first => ix.head?
  | .byQp => ix.head?.map (fun q => s.fget Reg.CTX_QP_A_PART [q])
  | .bySlot => ix.head?.bind (fun k => s.slotPart k)

/-- Whether a route map that closed at the freeze of a swap has yet to be applied (R45). -/
def State.routeClosing (s : State) (p : Nat) : Bool :=
  match (s.part p).swap with
  | some w => w.route.isSome
  | none => false

/-- Whether any staged copy of a partition differs from what is in force (R51): a register, a route map, a key slot
binding, or a placement move. -/
def State.stagedAny (s : State) (p : Nat) : Bool :=
  s.staged.any (fun e => match regAt e.1 with
    | some (r, ix) => s.regPart r ix == some p
    | none => false) ||
  (s.part p).routeStaged.isSome || s.routeClosing p ||
  (s.slotsOf p).any (fun k => s.fget Reg.SEC_KS_B_PENDING [k] == 1) ||
  s.objs.any (fun e => decide (handlePart e.1 = p) && e.2.move.isSome)

/-! ### Who has arrived (R36 to R39) -/

/-- The enrolled resident contexts of a partition (R36). -/
def State.enrolled (s : State) (p : Nat) : List (Nat × Ctx) :=
  s.ctxs.filter (fun e => decide (e.2.part = p) && decide (e.2.phase = .resident) && e.2.enroll)

/-- An event of R39, which forms a boundary where every enrolled resident context is idle and none has executed
ORBIT since the previous boundary (R36); in particular where there is none. -/
def State.idleEvent (s : State) (p : Nat) : State :=
  if (s.enrolled p).all (fun e => !e.2.running) && ((s.enrolled p).isEmpty || !(s.part p).executed) then
    s.modPart p (fun x => { x with idleEvent := true })
  else s

/-- Whether a boundary of a partition forms (R36, R39, R222): every enrolled resident context has arrived, and one of the
partition's has executed ORBIT, or all are idle and an event of R39 has occurred.
DEDUCED: assumption 50. -/
def State.boundaryDue (s : State) (p : Nat) : Bool :=
  let l := s.enrolled p
  if l.all (fun e => !e.2.running) then (s.part p).idleEvent || (!l.isEmpty && (s.part p).executed)
  else l.all (fun e => !e.2.running || e.2.atOrbit.isSome) && (s.part p).executed

/-- Raises the device flag of a partition (R46, R39). -/
def State.raiseDev (s : State) (p : Nat) : State :=
  (s.modPart p (fun x => { x with
    devFlag := true
    raisedAt := if x.raisedAt.isSome then x.raisedAt else some s.now })).idleEvent p

/-- Raises the host flag of a partition (R46, R39). -/
def State.raiseHost (s : State) (p : Nat) : State :=
  (s.modPart p (fun x => { x with
    hostFlag := true
    raisedAt := if x.raisedAt.isSome then x.raisedAt else some s.now })).idleEvent p

end Sys2Proof.Machine
end

