-- ==== Sys2Proof/Machine/MoonSync.lean ====
section
/-!
DEFINITION. Synchronisation of a strand (R137 to R141) and the receiving of messages (R147).
-/
namespace Sys2Proof.Machine

/-- The condition of WAIT (R138): (ac − s[SA]) mod 2^32 < 2^31. -/
def waitHolds (ac : BitVec 32) (target : Word) : Bool := decide ((ac - target.setWidth 32).toNat < 2 ^ 31)

/-- WAIT: waits until an arrival counter reaches a target (R138).
DEDUCED: assumption 25. -/
def execWait (slot : Nat) (w : MWord) (s : State) : Outcome :=
  .next (s.issue slot w { opc := 0x90, sa := true, imm := 255 } true true
    (fun x => if waitHolds (x.getAc (BitVec.ofNat 8 (w.immBits 7 0))) (x.getS w.sa) then .ok x else .stall (.counter (w.immBits 7 0))))

/-- ACSET: ac[IMM[7:0]] = s[SA][31:0] (R138); an arrival of the same ARITH cycle is applied after it (R137). -/
def execAcset (slot : Nat) (w : MWord) (s : State) : Outcome :=
  .next (s.issue slot w { opc := 0x91, sa := true, imm := 255 } true true
    (fun x => .ok (x.setAc (BitVec.ofNat 8 (w.immBits 7 0))
      ((x.getS w.sa).setWidth 32 + BitVec.ofNat 32 (kvGet 0 x.arrived (w.immBits 7 0))))))

/-- ACRD: s[DST] = ac[IMM[7:0]], zero-extended (R138). -/
def execAcrd (slot : Nat) (w : MWord) (s : State) : Outcome :=
  .next (s.issue slot w { opc := 0x92, dst := true, imm := 255 } true true
    (fun x => .ok (x.setS w.dst ((x.getAc (BitVec.ofNat 8 (w.immBits 7 0))).setWidth 64))))

/-- FENCE (R139): every earlier comet (MOD 0), or every earlier CST (MOD 1), must complete before a later memory
instruction of the kind it holds back issues. Earlier instructions that wait in the strand have completed already.
DEDUCED: assumption 25. -/
def execFence (slot : Nat) (w : MWord) (s : State) : Outcome :=
  .next (s.issue slot w { opc := 0x93, mods := 15 } (decide (w.md.toNat < 2)) true
    (fun x => .ok (if w.md = 0 then { x with fenceAll := x.comets.map (fun q => q.id) }
      else { x with fenceStores := (x.comets.filter (fun q => q.write)).map (fun q => q.id) })))

/-- ORBIT (R36, R37, R39, R140): the strand waits at the instruction until the boundary releases it. -/
def execOrbit (slot : Nat) (w : MWord) (s : State) : Outcome :=
  .next (s.issueWith slot w { opc := 0x94, dst := true } true true (fun c x =>
    let s1 := (s.setCtx c { x with atOrbit := some w.dst.toNat, wait := .orbit, issued := true }).noteIssue slot .memory
    if x.enroll then s1.modPart x.part (fun p => { p with executed := true }) else s1.idleEvent x.part))

/-- ORQ (R141): the request flags, STAGED and ORBIT_NUM of the context's partition. -/
def execOrq (slot : Nat) (w : MWord) (s : State) : Outcome :=
  .next (s.issue slot w { opc := 0x95, dst := true } true true
    (fun x =>
      let p := s.part x.part
      .ok (x.setS w.dst (BitVec.ofNat 64
        (bit01 p.hostFlag + 2 * bit01 p.devFlag + 4 * bit01 (s.stagedAny x.part) + p.orbit * 2 ^ 24)))))

/-- MSGR (R147): the oldest message of the receive ring, header then payload, at s[SA].
DEDUCED: assumption 25. -/
def execMsgr (slot : Nat) (w : MWord) (s : State) : Outcome :=
  .next (s.issue slot w { opc := 0x99, dst := true, sa := true, mods := 1 } true true
    (fun x =>
      let a := (x.getS w.sa).toNat
      checked [(x.scratchOk a 4096 64, .scratch), (decide (x.ringSlots ≠ 0), .ring)]
        (match x.ring with
         | [] => if w.modBit 0 then .ok (x.setS w.dst 0) else .stall .result
         | m :: r =>
           let bs := m.header ++ m.payload
           x.guarded [] [(a, bs.length)]
             (.ok (({ x with ring := r }.putScratch a bs).setS w.dst (BitVec.ofNat 64 bs.length))))))

end Sys2Proof.Machine
end

