-- ==== Sys2Proof/Machine/MemEvents.lean ====
section
/-!
DEFINITION. The answers of the memory system to a Moon: the end of a waiting memory instruction and the arrival of a
comet (R131 to R133, R137, R138, R279), uncorrectable errors of tier 1 (R263), the segments of a compressed stream
(R176, R179), and the delivery of a message into a receive ring (R146, R278).
-/
namespace Sys2Proof.Machine

/-! ### Failures -/

/-- A job teardown becomes due (R294), with the code and WORD_B of its record. A final failure of a job already due or
in teardown adds none (R489). -/
def State.triggerTeardown (s : State) (p job code b : Nat) : State :=
  let known := s.teardowns.any (fun t => decide (t.1 = p) && decide (t.2.1 = job)) ||
    (s.part p).windows.any (fun w => decide (w = .job job))
  if known && decide (code ≤ 2) then s
  else if s.teardowns.contains (p, job, code, b) then s
  else { s with teardowns := s.teardowns ++ [(p, job, code, b)] }

/-- A clean granule whose tier-1 copy is bad is read again from its tier-2 home by a fill that is failing until then (R262,
R263); none where no tray serves it.
DESIGN CHOICE: assumption 32. -/
def State.rereadGranule (s : State) (h g : Nat) : Option State :=
  match s.obj? h with
  | none => none
  | some o =>
    let f : Fill := ⟨h, g, true, false, s.chargeFor (handlePart h) o.tenant 1⟩
    let s1 := s.modObj h (fun q => { q with extents := kvMod q.extents (extentOf g) (fun e => { e with
      present := setDel e.present g }) })
    (({ s1 with fills := s1.fills ++ [f] } : State).fillRead h g).map (fun t => { t with
      reqs := t.reqs.map (fun r => if r.owner = .fill h g then { r with failing := true } else r) })

/-- Whether a granule lies in a clean extent of a cache-class object (R263). -/
def Obj.cleanCopy (o : Obj) (g : Nat) : Bool :=
  cacheClass o.cls && (match kvGet? o.extents (extentOf g) with
    | some e => e.dirty.isEmpty
    | none => false)

/-- An uncorrectable error of a tier-1 line (R263): a granule of a clean extent of a cache-class object is read again from its
tier-2 home; any other line is poisoned, with a MEMORY record of code 1. -/
def State.tier1Error (s : State) (h l : Nat) : State :=
  match s.obj? h with
  | none => s
  | some o =>
    let g := granuleOfLine l
    if o.tier g != 1 then s
    else
      let s1 := s.fsat Reg.NME_ECC_UNCORRECTED [] 1
      match (if o.cleanCopy g then s1.rereadGranule h g else none) with
      | some t => t
      | none => (s1.modObj h (fun q => { q with poison := setIns q.poison l })).appendPart
          (Rec.ofPart (handlePart h) stPoison clsMemory 1 0 (mkRef h o.hgen) (64 * l) s.now)

/-- The uncorrectable errors that the requests of a piece of work meet in tier 1, each a failure event of its request (R262,
R263). -/
def State.lineErrors (s : State) (h : Nat) (ls bad : List Nat) : State :=
  (bad.filter (fun l => ls.contains l)).foldl (fun (t : State) l =>
    match t.obj? h with
    | some o => if o.tier (granuleOfLine l) = 1 then (t.tier1Error h l).fsat Reg.PLACE_EVT_FAIL [handlePart h] 1 else t
    | none => t) s

/-- Whether a line of some work is being read again from tier 2 (R263). -/
def State.rereading (s : State) (h : Nat) (ls : List Nat) : Bool := ls.any (fun l => s.filling h (granuleOfLine l))


/-- The final status of the answer to an instruction or comet, where it has one (R132, R263): of its requests, and of
each line it reads or writes but those a combiner has applied. -/
def State.answerStatus (s : State) (ow : ReqOwner) (q : Outst) : Option Nat :=
  match s.obj? q.handle with
  | none => none
  | some o =>
    worst (s.reqFinals ow ++ (q.lines.filter (fun l => !q.applied.contains l)).map (fun l => match q.op with
      | .store ps => s.writeStatus o q.handle l (coversLine (ps.map (fun e => (e.1, e.2.length))) l) (s.sentLine ow q.handle l)
      | _ => s.readStatus o q.handle l (s.sentLine ow q.handle l)))

/-- The teardown that a final status of a job's request for some lines of an object starts (R294, R515): a LOST line, a dead
target (`died` tells that its stack died under the request), or an orphaned line where the request reads. -/
def State.teardownFor (s : State) (part job h : Nat) (ls : List Nat) (wr reads died : Bool) (st : Nat) : State :=
  match s.obj? h with
  | none => s
  | some o =>
    let ref := mkRef h o.hgen
    let dead := died || ls.any (fun l => s.homeDead o h (granuleOfLine l) wr)
    if st = stLost then s.triggerTeardown part job 1 ref
    else if (st = stPoison ∨ st = stTierFail) ∧ dead = true then s.triggerTeardown part job 1 ref
    else if st = stPoison ∧ (reads && ls.any (fun l => (kvGet? o.orphan l).isSome)) = true then
      s.triggerTeardown part job 2 ref
    else s

/-- Whether a stack died under a request of an owner. -/
def State.stackDied (s : State) (ow : ReqOwner) : Bool :=
  s.reqs.any (fun r => decide (r.owner = ow) && decide (r.tier = 1) && r.final.isSome)

/-- The entries of a live generation of a partition's route map (R365). -/
def State.mapOfGen (s : State) (p gen : Nat) : KV (List Byte) :=
  let cur := (s.part p).routeCur
  if cur.gen = gen then cur.entries
  else match (s.part p).routeOld with
    | some r => if r.gen = gen then r.entries else []
    | none => []

/-- The teardowns that a final failure of a context's request starts (R294): for a message, one that names the device it was
for.
DEDUCED: assumption 13. -/
def State.failureTeardown (s : State) (x : Ctx) (ow : ReqOwner) (q : Outst) (st : Nat) : State :=
  match q.op with
  | .message en _ _ => s.triggerTeardown x.part x.job 1 (rePbr (kvGet [] (s.mapOfGen x.part q.gen) en))
  | .store _ => s.teardownFor x.part x.job q.handle q.lines true false (s.stackDied ow) st
  | _ => s.teardownFor x.part x.job q.handle q.lines q.write true (s.stackDied ow) st

/-! ### What the answer brings -/

/-- The content of an object, none where it is not registered. -/
def State.contentOf (s : State) (h : Nat) : Memory :=
  match s.obj? h with
  | some o => o.data
  | none => []

/-- The content of an object as a load sees it: the lines a combiner has answered read as they did then (R287). -/
def Outst.overlay (q : Outst) (d : Memory) : Memory := q.got.foldl (fun m e => memWrite m (64 * e.1) e.2) d

/-- The context with what a read of `d` brings; an AMO or PUB brings the word it found (R134, R135, R156, R174,
R175). -/
def Ctx.deliver (x : Ctx) (d : Memory) (found : Nat) (q : Outst) : Ctx :=
  match q.op with
  | .load ps => ps.foldl (fun (y : Ctx) p => y.putScratch p.2.2 (memRead d p.1 p.2.1)) x
  | .store _ => x
  | .expand _ _ _ _ => x
  | .amo _ _ _ _ dst => x.setSN dst (BitVec.ofNat 64 found)
  | .pub _ expected _ dst pred => (x.setSN dst (BitVec.ofNat 64 found)).setP (preg pred) (pAll (found == expected))
  | .bitmap bits pred =>
    x.setP (preg pred) (predOf bits.length (fun i => match bits[i]? with
      | some (some (off, k)) => bitAt k (memGet d off).toNat
      | _ => false))
  | .mmaExp _ first m n k fa fb a c opn cls =>
    x.mmaDone m n k fa fb (x.elems fa a (m * k)) (expandRun d fb (256 * first) (k * n)) c opn cls
  | .message _ _ _ => x
  | .fetch => x

/-- The context with the blocks of the segment an EXPD has expanded, in scratch; an MMA takes its whole run at its end (R174,
R175, R176).
DESIGN CHOICE: assumption 65. -/
def Ctx.takeSegment (x : Ctx) (d : Memory) (t : Strm) (q : Outst) : Ctx :=
  match q.op with
  | .expand first _ a f =>
    x.putScratch (a + (t.next - first) * 256 * f.bytes) (elemBytes f (expandRun d f (256 * t.next) (256 * (t.segEnd - t.next))))
  | _ => x

/-- A compressed stream has read its segment (R176): the next one follows, or the instruction ends with the stream. -/
def State.segmentRead (s : State) (slot c : Nat) (x : Ctx) (q : Outst) (t : Strm) : State :=
  let d := s.contentOf q.handle
  let s1 := (s.countSegment (slot / 8) t d).dropReqs (.instr c q.id)
  let y := x.takeSegment d t q
  if t.segEnd < t.stop then (s1.setCtx c { y with outst := some { q with lines := [] } }).nextSegment (slot / 8) t
  else ((s1.endStream (slot / 8) q.id).runStreams (slot / 8)).setCtx c (y.deliver d 0 q).resume

/-- An instruction that waited has failed (R132, R175, R179): the stream of an EXPD or MMA ends, and the descriptor an MMA
advanced stands where it stood. -/
def Ctx.undo (x : Ctx) (q : Outst) : Ctx :=
  match q.op with
  | .mmaExp sd first _ n k _ _ _ _ _ _ =>
    let d := x.getD sd
    x.setD sd { d with
      w0 := BitVec.ofNat 64 (putBits 51 0 d.w0.toNat first)
      w2 := BitVec.ofNat 64 (putBits 63 32 d.w2.toNat (d.length + k * n / 256)) }
  | _ => x

/-- Whether a piece of work is a message, which R146 orders. -/
def Outst.isMessage (q : Outst) : Bool :=
  match q.op with
  | .message _ _ _ => true
  | _ => false

/-- Whether every earlier comet of a context to the same object has taken effect (R279). -/
def Ctx.inOrder (x : Ctx) (q : Outst) : Bool :=
  x.comets.all (fun e => decide (q.id ≤ e.id) || decide (e.handle ≠ q.handle) || e.isMessage)

/-! ### Messages (R146, R278) -/

/-- What becomes of a message at its ring. -/
inductive Delivery where
  | written | full | refused
  deriving DecidableEq, Repr

/-- Whether a partition's map in force admits a source to a receiving context (R278, R365). -/
def State.admitsSource (s : State) (p pbr part ref : Nat) : Bool :=
  (kvVals (s.part p).routeCur.entries).any (fun e => decide (reKind e = 4) && decide (rePbrLo e ≤ pbr) &&
    decide (pbr ≤ rePbrHi e) && decide (reSrcPart e = part) && decide (reRecv e = ref))

/-- The context whose ring accepts a message, or the partition a refusal is recorded in, none where the ring does not
exist (R278). A message from a port must come from the port's group. -/
def State.judge (s : State) (port : Option Nat) (ref : Nat) (m : Msg) : Nat ⊕ Option Nat :=
  let pbr := field m.header 0 2
  match s.ctxOfRef ref with
  | none => .inr none
  | some c =>
    match s.ctx? c with
    | none => .inr none
    | some x =>
      if x.ringSlots = 0 then .inr none
      else if s.admitsSource x.part pbr (field m.header 2 1) ref && decide (field m.header 24 4 = x.tenant) &&
          (match port with
           | some n => s.groupHolds n pbr
           | none => true) then .inl c
      else .inr (some x.part)

/-- A refused message is discarded, counted in FOREIGN and recorded (R278). -/
def State.refuseMessage (s : State) (port : Option Nat) (p : Option Nat) (m : Msg) : State :=
  let seq := field m.header 8 8
  let b := field m.header 0 2 % 4096 + (port.getD 0) * 2 ^ 16
  let s1 := s.fsat Reg.XBAR_FAB_REFUSE_FOREIGN [] 1
  match p with
  | some p => s1.appendPart (Rec.ofPart p stAccess clsRefusal 3 0 seq b s.now)
  | none => s1.appendDev (Rec.noPart stAccess clsRefusal 3 0 0 seq b s.now)

/-- A message comes to the ring a context reference names, from a port (none for a message of this device). A message
that is accepted and finds room is written whole: the counter its channel names gains 1 (R144, R146, R278). -/
def State.deliver (s : State) (port : Option Nat) (ref : Nat) (m : Msg) : Delivery × State :=
  match s.judge port ref m with
  | .inr p => (.refused, s.refuseMessage port p m)
  | .inl c =>
    match s.ctx? c with
    | none => (.refused, s)
    | some x =>
      if x.ringSlots ≤ x.ring.length then (.full, s)
      else
        let a := BitVec.ofNat 8 (field m.header 6 1)
        (.written, (s.setCtx c ({ x with ring := x.ring ++ [m] }.gain a)).forward x.part
          (.message x.qp m))

/-! ### The two events -/

/-- MEMORY_ANSWER: the memory system answers the instruction that the strand of a slot waits at, once all its
requests are answered and earlier comets to the object have taken effect (R131, R132, R279). `bad` lists the lines
whose tier-1 copy failed uncorrectably. -/
def execMemoryAnswer (slot : Nat) (bad : List Nat) (s : State) : Outcome :=
  .next (match s.occupant slot with
    | none => s
    | some c =>
      match s.ctx? c with
      | none => s
      | some x =>
        match x.outst with
        | none => s
        | some q =>
          let ow := ReqOwner.instr c q.id
          let strm := s.strm? (slot / 8) q.id
          if !(s.ready ow q.handle q.lines q.write && x.inOrder q && strm.all (fun t => t.entered)) then s
          else
            let s1 := s.lineErrors q.handle q.lines bad
            if !bad.isEmpty && s1.rereading q.handle q.lines then s1
            else match s1.answerStatus ow q, strm with
            | some st, _ =>
              let s2 := (s1.fsat Reg.PLACE_EVT_FINAL [x.part] 1).setCtx c (x.undo q)
              let s3 := (s2.endStream (slot / 8) q.id).raise c (x.undo q) Exc.data.code st q.pc
              (((s3.failureTeardown x ow q st).dropReqs ow).freeEngine slot q.id).runStreams (slot / 8)
            | none, some t => s1.segmentRead slot c x q t
            | none, none =>
              let (s2, found) := s1.applyWrite q
              let d := q.overlay (s2.contentOf q.handle)
              let y := match q.op with
                | .fetch => { x with outst := none, wait := .none, code := some (lineOf q.pc) }
                | _ => (x.deliver d found q).resume
              (s2.setCtx c y).dropReqs ow)

/-- A comet leaves its context; its counter gains 1 (R137, R138). -/
def Ctx.arrive (x : Ctx) (q : Outst) : Ctx :=
  let a := BitVec.ofNat 8 q.ac
  { x with comets := x.comets.filter (fun e => decide (e.id ≠ q.id)) }.gain a

/-- COMET_ARRIVAL: a comet of a context completes (R132, R133, R138, R146, R279). `bad` is as for MEMORY_ANSWER;
`gone` tells that the device or ring a message was sent to has ceased to exist or refused it. -/
def execCometArrival (c id : Nat) (bad : List Nat) (gone : Bool) (s : State) : Outcome :=
  .next (match s.ctx? c with
    | none => s
    | some x =>
      match x.comets.find? (fun q => decide (q.id = id)) with
      | none => s
      | some q =>
        let slot := x.slot.getD 0
        let ow := ReqOwner.comet c id
        let fail := fun (t : State) (st : Nat) =>
          let t1 := t.modCtx c (fun y => { y with comets := y.comets.filter (fun e => decide (e.id ≠ id)) })
          let t2 := match t1.ctx? c with
            | some y => t1.raise c y Exc.data.code st q.pc
            | none => t1
          ((t2.failureTeardown x ow q st).dropReqs ow).freeEngine slot id
        match q.op with
        | .message entry _ m =>
          let first := x.comets.all (fun e => decide (id ≤ e.id) || (match e.op with
            | .message en _ _ => decide (en ≠ entry)
            | _ => true))
          if !first || (!gone && s.reqs.any (fun r => decide (r.owner = ow) && decide (r.state ≠ .sent))) then s
          else
            let e := kvGet [] (s.mapOfGen x.part q.gen) entry
            if reLocal e then
              (match s.deliver none (reCtx e) m with
               | (.written, t) => (t.modCtx c (fun y => y.arrive q)).dropReqs ow
               | (.full, t) => ((t.modCtx c (fun y => { y with
                   comets := y.comets.map (fun k => if k.id = id then { k with held := true, srcRange := (0, 0) } else k) })).dropReqs
                     ow).freeEngine slot id
               | (.refused, t) => fail t stPoison)
            else if gone then fail s stPoison
            else (s.modCtx c (fun y => y.arrive q)).dropReqs ow
        | _ =>
          if !(s.ready ow q.handle q.lines q.write && x.inOrder q) then s
          else
            let s1 := s.lineErrors q.handle q.lines bad
            if !bad.isEmpty && s1.rereading q.handle q.lines then s1
            else match s1.answerStatus ow q with
            | some st => fail (s1.fsat Reg.PLACE_EVT_FINAL [x.part] 1) st
            | none =>
              let (s2, found) := s1.applyWrite q
              (s2.setCtx c ((x.deliver (q.overlay (s2.contentOf q.handle)) found q).arrive q)).dropReqs ow)

end Sys2Proof.Machine
end

