-- ==== Sys2Proof/Machine/AtRest.lean ====
section
/-!
DEFINITION. What a request writes to a line, and the line as memory holds it: encrypted under the data key of its object's
slot and generation, with a tweak of its object address (R265, R266, R469 to R471).
-/
namespace Sys2Proof.Machine

/-! ### Effects on bytes -/

/-- The enabled bytes of a write as pieces (R382). -/
def AccReq.pieces (a : AccReq) : List (Nat × List Byte) :=
  if a.mask.all (fun b => b) then [(64 * a.line, a.bytes)]
  else ((List.range 64).filter (fun i => a.mask.getD i false)).map (fun i => (64 * a.line + i, [a.bytes.getD i 0]))

/-- The bytes of an object range. -/
def State.bytesAt (s : State) (h off n : Nat) : List Byte :=
  match s.obj? h with
  | some o => memRead o.data off n
  | none => []

/-- Element `e` of the destination of REDUCE from the elements of the sources in order (R266). -/
def reduceElem (f : Fmt) (op : Nat) (l : List Nat) : Nat :=
  match op with
  | 0 =>
    if f.isFp then convert .fp32 f (fixedSum (l.map (convert f .fp32)))
    else ofSigned f.width (satSigned f.width ((l.map (toSigned f.width)).foldl (fun a b => a + b) 0))
  | _ => match l with
    | [] => 0
    | a :: r =>
      r.foldl (fun m x => vop (if op = 1 then .min else .max) f false m x 0) (if f.isNan a then f.nan else a)

/-- The position of the first byte in which two lists differ. -/
def firstDiff : Nat → List Byte → List Byte → Option Nat
  | i, a :: r, b :: q => if a = b then firstDiff (i + 1) r q else some i
  | _, _, _ => none

/-- The effect of `n` bytes of an operation: the state after, and RESULT0 and RESULT1 (R265, R266, R352).
DEDUCED: assumption 24. DESIGN CHOICE: assumption 27. -/
def State.nmeEffect (s : State) (a : NmeArg) (n : Nat) : State × Nat × Nat :=
  match a with
  | .fill d off _ pat =>
    (s.storePieces d [] [(off, (List.range n).map (fun i => BitVec.ofNat 8 (pat / 2 ^ (8 * (i % 8)))))], n, 0)
  | .copy src so d off _ => (s.storePieces d [] [(off, s.bytesAt src so n)], n, 0)
  | .compare x xo y yo _ =>
    (s, (firstDiff 0 (s.bytesAt x xo n) (s.bytesAt y yo n)).getD (2 ^ 64 - 1), n)
  | .reduce srcs d off fmt op _ =>
    let f := (Fmt.ofCode fmt).getD .fp32
    let m := n / f.bytes
    let elem := fun (e : Nat) => reduceElem f op (srcs.map (fun q => match s.obj? q.1 with
      | some o => memNat o.data (q.2 + e * f.bytes) f.bytes
      | none => 0))
    (s.storePieces d [] [(off, elemBytes f ((List.range m).map elem))], m * f.bytes, 0)
  | .publish h off e new => let r := s.doPublish h off e new; (r.1, r.2, 0)

/-! ### Data at rest (R469 to R471) -/

/-- The label "XTS". -/
def labelXts : List Byte := [0x58, 0x54, 0x53]

/-- The data key of a slot at a generation, from the tenant key (R469).
DEDUCED: assumption 75. -/
def dataKey (tenant : BitVec 256) (k g : Nat) : BitVec 512 :=
  Config.kmac256 tenant (labelXts ++ natBytes 2 k ++ natBytes 4 g) 512 Config.thorix

/-- The XTS tweak of a line: the key generation, HGEN, the handle and the line index (R470). -/
def lineTweak (gen hgen h l : Nat) : BitVec 128 :=
  BitVec.ofNat 128 (gen % 2 ^ 32 * 2 ^ 90 + hgen % 2 ^ 16 * 2 ^ 74 + h % 2 ^ 32 * 2 ^ 42 + l % 2 ^ 42)

/-- The data key of an object. -/
def State.objKey (s : State) (o : Obj) : BitVec 512 := dataKey (kvGet 0 s.tenantKeys o.keyslot) o.keyslot o.keyGen

/-- A line of an object, encrypted as memory holds it, in tier 1 and in every tray alike (R470). -/
def State.atRest (s : State) (h l : Nat) : List Byte :=
  match s.obj? h with
  | some o => Config.xtsEncrypt (s.objKey o) (lineTweak o.keyGen o.hgen h l) (memRead o.data (64 * l) 64)
  | none => []

/-- What a tray returns for a line becomes what the line decrypts to: other data where the tray has altered it, which the
device does not detect (R471). A line whose granule tier 1 holds is not read from there.
DESIGN CHOICE: assumption 11. -/
def State.fromTray (s : State) (h l : Nat) (cipher : List Byte) : State :=
  s.modObj h (fun o =>
    if o.inTier1 (granuleOfLine l) then o
    else
      let plain := (Config.xtsDecrypt (s.objKey o) (lineTweak o.keyGen o.hgen h l) (cipher.take 64)).take 64
      { o with data := memWrite o.data (64 * l) plain })

/-- The state in which what an owner writes has been written. -/
def State.writtenBy (s : State) (r : Req) : State :=
  match s.workOf r.owner, r.owner with
  | some (_, q), _ => (s.applyWrite q).1
  | none, .accel id => (match s.accs.find? (fun a => decide (a.id = id)) with
    | some a => s.storePieces a.handle [] a.pieces
    | none => s)
  | none, .nme id => (match s.nmes.find? (fun n => decide (n.id = id)) with
    | some n => (s.nmeEffect n.arg n.arg.len).1
    | none => s)
  | none, .view k => (match (kvGet View.blank s.views k).writing with
    | some w => s.storeObj r.handle 0 w.2
    | none => s)
  | none, _ => s

/-- The 64 bytes that a write request carries to a tray: the line encrypted, or, for a scrub, zeros without encryption (R470,
R474); nothing for a read. -/
def State.carried (s : State) (r : Req) : List Byte :=
  if !r.write || r.rdFirst then []
  else match r.owner with
    | .scrub _ => List.replicate 64 0
    | _ => (s.writtenBy r).atRest r.handle r.line

/-- A line sent to a TARGET or SHADOW is to be read back at the close of the check window (R513). -/
def State.noteSent (s : State) (t h l : Nat) (cipher : List Byte) : State :=
  let st := s.fget Reg.PLACE_TRAY_STAT_STATE [t]
  if st = 3 ∨ st = 4 then
    let old := (kvGet [] s.mir.sent t).filter (fun e => decide (¬(e.1 = h ∧ e.2.1 = l)))
    { s with mir := { s.mir with sent := kvSet s.mir.sent t (old ++ [(h, l, cipher)]) } }
  else s

/-- What a request sends to its tray. -/
def State.toTray (s : State) (r : Req) : State :=
  let write := r.write && !r.rdFirst
  let s1 := s.emit (.trayRequest r.port r.id r.handle r.line write (s.carried r))
  if write then s1.noteSent r.tray r.handle r.line (s.carried r) else s1

end Sys2Proof.Machine
end

