-- ==== Sys2Proof/Machine/Tags.lean ====
section
/-!
DEFINITION. Fabric request tags (R318, R319): the admission of the device's own requests, messages and snoops to their
ports, and requests by number.
-/
namespace Sys2Proof.Machine

/-- The request of a number. -/
def State.req? (s : State) (id : Nat) : Option Req := s.reqs.find? (fun r => decide (r.id = id))

/-- The state with a request changed. -/
def State.modReq (s : State) (id : Nat) (f : Req → Req) : State :=
  { s with reqs := s.reqs.map (fun r => if r.id = id then f r else r) }

/-- Whether the write of a request covers its line only in part: the port NME then reads the line first (R385). -/
def State.partialWrite (s : State) (r : Req) : Bool := r.write && !s.wholeLine r.owner r.line

/-- What an admitted request sends through its port: a read or write to a tray, or the message it ends (R144, R386). -/
def State.sendOut (s : State) (r : Req) : State :=
  if r.tier = 3 then
    match s.workOf r.owner with
    | some (p, q) => (match q.op with
      | .message en _ m =>
        let e := kvGet [] (s.mapOfGen p q.gen) en
        s.emit (.message (rePbr e) (rePart e) (reCtx e) m)
      | _ => s)
    | none => s
  else s.toTray r

/-- A request takes its tag and leaves. -/
def State.takeTag (s : State) (id : Nat) : State :=
  match s.req? id with
  | none => s
  | some r =>
    let r' := { r with state := .sent, rdFirst := r.tier = 2 && s.partialWrite r }
    (s.modReq id (fun _ => r')).sendOut r'

/-- A request that has come to its port is admitted where a tag is free and none waits before it; else it waits and is
counted (R318, R319). -/
def State.admitReq (s : State) (id : Nat) : State :=
  match s.req? id with
  | none => s
  | some r =>
    if s.tagFree r.port && !s.tagWaiters r.port id then s.takeTag id
    else (s.modReq id (fun q => { q with state := .needsTag })).fsat Reg.XBAR_TAG_STAT_WAITS [] 1

/-- A request comes to its port: what comes later is admitted after it within its class (R319). -/
def State.reachPort (s : State) (id : Nat) : State :=
  let (n, s1) := s.fresh
  (s1.modReq id (fun q => { q with seq := n })).admitReq id

/-- The request of a port that is admitted next: the highest class first, in arrival order within it (R319). -/
def State.nextWaiter (s : State) (n : Nat) : Option Req :=
  (s.reqs.filter (fun r => decide (r.port = n) && decide (r.state = .needsTag))).foldl (fun (a : Option Req) r =>
    match a with
    | some b => if b.charge.cls < r.charge.cls ∨ (b.charge.cls = r.charge.cls ∧ r.seq < b.seq) then some r else some b
    | none => some r) none

/-- TAG_ADMIT: a tag of a port frees and the first of its waiting requests is admitted; snoops are of class 7 (R302,
R319). -/
def execTagAdmit (n : Nat) (s : State) : Outcome :=
  .next (if !s.tagFree n then s
    else match s.snoops.find? (fun q => !q.sent && decide (q.port = n)) with
      | some q =>
        ({ s with snoops := s.snoops.map (fun k =>
            if k = q then { k with sent := true, since := s.now } else k) } : State).respond n 7 (s.homePort q.handle q.line)
          (.snoop n q.handle q.line q.inv)
      | none => match s.nextWaiter n with
        | some r => s.takeTag r.id
        | none => s)

end Sys2Proof.Machine
end

