-- ==== Sys2Proof/Machine/Acc.lean ====
section
/-!
DEFINITION. Requests of accelerators at their homes: the line directory (R290 to R292), their completion (R264, R276,
R279, R282, R393), and the hot-line combiners (R287 to R289).
-/
namespace Sys2Proof.Machine

/-! ### The line directory (R290, R292) -/

/-- The most entries the directory holds. -/
def dirSize : Nat := 1048576

/-- The state with the directory entry of a line changed. -/
def State.modDir (s : State) (h l : Nat) (f : DirEnt → DirEnt) : State :=
  { s with dir := s.dir.map (fun d => if d.handle = h ∧ d.line = l then f d else d) }

/-- The directory without the entry of a line. -/
def State.dropDir (s : State) (h l : Nat) : State :=
  { s with dir := s.dir.filter (fun d => !(decide (d.handle = h) && decide (d.line = l))) }

/-- A coherent line is granted to a port (R290, R382): exclusive where that is asked and no other accelerator holds it,
else shared; more than 4 sharers make the line wide. -/
def State.grantLine (s : State) (a : AccReq) : State :=
  match s.dirEntry a.handle a.line with
  | none => { s with dir := s.dir ++ [⟨a.handle, a.line, a.excl, [a.port], false, a.job, false⟩] }
  | some d =>
    let others := setDel d.holders a.port
    s.modDir a.handle a.line (fun e =>
      if d.wide then { e with excl := false }
      else if a.excl && others.isEmpty then { e with excl := true, holders := [a.port], job := a.job }
      else
        let hs := setIns d.holders a.port
        if 4 < hs.length then { e with excl := false, wide := true, holders := [] }
        else { e with excl := false, holders := hs })

/-- Whether a coherent request can enter its line in the directory (R292). -/
def State.dirRoom (s : State) (a : AccReq) : Bool :=
  a.write || !a.coh || (s.dirEntry a.handle a.line).isSome || decide (s.dir.length < dirSize)

/-- The entry granted longest ago that does not already make room makes room for a new one: its holders are snooped (R291,
R292), and one that no accelerator holds is free at once. -/
def State.evictDir (s : State) : State :=
  match s.dir.find? (fun d => !d.evict) with
  | none => s
  | some d =>
    let s1 := (s.modDir d.handle d.line (fun e => { e with evict := true })).fsat Reg.XBAR_BI_STAT_VICTIMS [] 1
    let s2 := (s.sharers d).foldl (fun (t : State) n => t.sendSnoop d.handle d.line n true) s1
    if s2.snooping d.handle d.line then s2 else s2.dropDir d.handle d.line

/-- An accelerator's answer to a snoop of a line (R291): its hold ends, or stays shared. An entry that no accelerator
holds any more is free, and so is a wide or evicted one once every snoop of it has been answered.
DEDUCED: assumption 40. -/
def State.snoopAnswered (s : State) (q : Snoop) (keep : Bool) : State :=
  let s1 : State := { s with snoops := s.snoops.filter (fun k => decide (k ≠ q)) }
  let s2 := s1.modDir q.handle q.line (fun d =>
    if keep then { d with excl := false } else { d with excl := false, holders := setDel d.holders q.port })
  match s2.dirEntry q.handle q.line with
  | some d =>
    if (d.holders.isEmpty && !d.wide) || ((d.evict || (d.wide && q.inv)) && !s2.snooping q.handle q.line) then
      s2.dropDir q.handle q.line
    else s2
  | none => s2

/-! ### At the home -/

/-- Whether an accelerator's write brings back a line it is being snooped for (R291). -/
def State.writesBack (s : State) (a : AccReq) : Bool :=
  a.write && s.snoops.any (fun q => decide (q.handle = a.handle) && decide (q.line = a.line) && decide (q.port = a.port))

/-- The state with a request of an accelerator changed. -/
def State.modAcc (s : State) (id : Nat) (f : AccReq → AccReq) : State :=
  { s with accs := s.accs.map (fun a => if a.id = id then f a else a) }

/-- The requests of an accelerator that have come to tray ports ask for their tags; those at another port than the one its
message was granted at, `out`, are charged there (R319, R321, R324). -/
def State.admitHome (s : State) (ow : ReqOwner) (out : Nat) : State :=
  (s.reqs.filter (fun r => decide (r.owner = ow) && decide (r.state = .needsTag))).foldl (fun (t : State) r =>
    (if r.out = out then t else t.chargeOutput r.out r.charge 80).admitReq r.id) s

/-- A request of an accelerator comes to its home (R277, R287, R291): it joins the queue of a combined line, or its
conflicting holders are snooped and its requests are made. A coherent one has waited for the line's queue to drain, and the
line leaves its combiner (R289).
DEDUCED: assumption 40. -/
def State.accHome (s : State) (id : Nat) : State :=
  match s.accs.find? (fun a => decide (a.id = id)) with
  | none => s
  | some a =>
    let s1 := (s.modAcc id (fun b => { b with home := true })).touchLines a.handle [a.line]
    let ow := ReqOwner.accel id
    if (s1.hotLine a.handle a.line).isSome && !a.coh then s1.joinHot ow a.handle a.line
    else
      let s2 : State := { s1 with hot := s1.hot.filter (fun d =>
        !(decide (d.handle = a.handle) && decide (d.line = a.line))) }
      let s3 := if s2.writesBack a then s2 else s2.snoopLine a.handle a.line (a.write || a.excl) (some a.port)
      let s4 := s3.requestLine ow a.handle a.line a.write
      let out := match s.obj? a.handle with
        | some o => s.homeOut o a.handle a.line a.write
        | none => 270
      let s5 := s4.admitHome ow out
      if s5.dirRoom a then s5 else s5.evictDir

/-- The answer to an accelerator's request that has no data to give, from a crossbar input: poisoned data of zeros, or Cmp
(R276, R393); an answer is of class 6 (R302). -/
def State.answerFrom (s : State) (inp port tag : Nat) (write : Bool) : State :=
  s.respond port 6 inp (if write then .cmp port tag else .data port tag (List.replicate 64 0) true)

/-- The answer of a port to a request that goes no further. -/
def State.answerEmpty (s : State) (port tag : Nat) (write : Bool) : State := s.answerFrom port port tag write

/-- A request of an accelerator leaves: it and its requests are gone. -/
def State.dropAcc (s : State) (id : Nat) : State :=
  ({ s with accs := s.accs.filter (fun a => decide (a.id ≠ id)) } : State).dropReqs (.accel id)

/-- The final status of an accelerator's request at its home, where it has one (R263, R264, R293, R297, R515). -/
def State.accStatus (s : State) (a : AccReq) : Option Nat :=
  match s.obj? a.handle with
  | none => none
  | some o =>
    let ow := ReqOwner.accel a.id
    let sent := s.sentLine ow a.handle a.line
    worst (s.reqFinals ow ++ [if a.write then s.writeStatus o a.handle a.line (a.mask.all (fun b => b)) sent
      else s.readStatus o a.handle a.line sent])

/-- The effect of an accelerator's request at its home, and its answer (R264, R273, R276, R282, R290, R294, R473). On a link
that viral was sent on, a read is answered with poisoned data and a write has no effect; it is counted in FOREIGN (R497). -/
def State.performAcc (s : State) (a : AccReq) : State :=
  if s.viral.contains a.port then
    ((s.fsat Reg.XBAR_FAB_REFUSE_FOREIGN [] 1).answerFrom (s.homePort a.handle a.line) a.port a.tag a.write).dropAcc a.id
  else match s.accStatus a with
  | some st =>
    let s1 := if st = stKeyRetired then
        s.appendPart (Rec.ofPart a.part stKeyRetired clsRefusal 2 0 a.addr a.src s.now)
      else s.fsat Reg.PLACE_EVT_FINAL [a.part] 1
    let s2 := s1.teardownFor a.part a.job a.handle [a.line] a.write (!a.write) (s.stackDied (.accel a.id)) st
    (s2.answerFrom (s.homePort a.handle a.line) a.port a.tag a.write).dropAcc a.id
  | none =>
    if a.write then
      let s1 := s.storePieces a.handle [] a.pieces
      let s2 := match s.obj? a.handle with
        | some o => if o.decl = 0 then s1 else a.pieces.foldl (fun (t : State) (e : Nat × List Byte) =>
            t.forward a.part (.store o.decl e.1 e.2)) s1
        | none => s1
      (s2.respond a.port 6 (s.homePort a.handle a.line) (.cmp a.port a.tag)).dropAcc a.id
    else
      let d := match s.obj? a.handle with
        | some o => memRead o.data (64 * a.line) 64
        | none => List.replicate 64 0
      let s1 := if a.coh && !s.crashed.contains a.port then s.grantLine a else s
      (s1.respond a.port 6 (s.homePort a.handle a.line) (.data a.port a.tag d false)).dropAcc a.id

/-- Whether no earlier request of an accelerator to its object is left (R279). -/
def State.accFirst (s : State) (a : AccReq) : Bool :=
  s.accs.all (fun b => decide (a.id ≤ b.id) || decide (b.port ≠ a.port) || decide (b.handle ≠ a.handle))

/-- Whether a request at its home can be performed now: everything it waits for has been answered, and no earlier
request of its accelerator to the object is left (R279, R291). -/
def State.accReady (s : State) (a : AccReq) : Bool :=
  a.home && s.dirRoom a && s.accFirst a &&
  (if s.writesBack a then s.reqsAnswered (.accel a.id) else s.ready (.accel a.id) a.handle [a.line] a.write)

/-! ### The end of an eviction (R259, R261) -/

/-- Whether a combiner holds a line of an extent. -/
def State.hotIn (s : State) (h e : Nat) : Bool :=
  s.hot.any (fun d => decide (d.handle = h) && decide (extentOf (granuleOfLine d.line) = e))

/-- The eviction of an extent whose write-back has been answered ends: the extent is dropped, or, where a write failed, the
write-back is abandoned and counted in FAIL (R261). -/
def State.finishEvict (s : State) (h e : Nat) : State :=
  let ow := ReqOwner.wb h e
  if s.reqs.any (fun r => decide (r.owner = ow) && decide (r.state ≠ .answered)) || s.hotIn h e then s
  else if (s.reqFinals ow).any (fun f => f.isSome) then
    ((s.dropReqs ow).modObj h (fun o => { o with extents := kvMod o.extents e (fun x => { x with evict := false }) })).fsat
      Reg.PLACE_EVT_FAIL [handlePart h] 1
  else (s.dropReqs ow).dropExtent h e

/-- The evictions in progress whose write-backs have been answered end. -/
def State.finishEvicts (s : State) : State :=
  (s.objs.flatMap (fun x => (x.2.extents.filter (fun y => y.2.evict)).map (fun y => (x.1, y.1)))).foldl
    (fun (t : State) k => t.finishEvict k.1 k.2) s

/-- The accelerators' requests that have become ready are performed, oldest first, and evictions end. -/
def State.finishAccs (s : State) : State :=
  State.finishEvicts <| (s.accs.map (fun a => a.id)).foldl (fun (t : State) id =>
    match t.accs.find? (fun a => decide (a.id = id)) with
    | some a => if t.accReady a then t.performAcc a else t
    | none => t) s

/-! ### Hot lines (R287 to R289) -/

/-- The combiner that serves a line: that of its stack's HBM controller (0 to 7), or of the port NME of the port its
tray is at (8 to 39); none for a line no tray serves. -/
def State.combinerOf (s : State) (h l : Nat) : Option Nat :=
  match s.obj? h with
  | none => none
  | some o =>
    let g := granuleOfLine l
    if o.inTier1 g then some (stackOfChannel (s.channelOf o h g))
    else match s.pairOf o h g with
      | none => none
      | some k => match s.readTrays o h g k with
        | y :: _ => (s.portOfTray y).map (fun n => 8 + n / 8)
        | [] => none

/-- Whether a request waits at its home: at its channel, or at the port of its tray for a tag. -/
def Req.atHome (r : Req) : Bool :=
  (decide (r.tier = 1) && decide (r.state = .sent)) || (decide (r.tier = 2) && decide (r.state = .needsTag))

/-- A request put before the first that arrived after it. -/
def insertSeq (r : Req) : List Req → List Req
  | [] => [r]
  | y :: q => if r.seq < y.seq then r :: y :: q else y :: insertSeq r q

/-- Requests in the order of their arrival. -/
def bySeq : List Req → List Req
  | [] => []
  | r :: q => insertSeq r (bySeq q)

/-- Whether an owner is work whose requests a combiner takes: not the device's own copies. -/
def ReqOwner.combines : ReqOwner → Bool
  | .instr _ _ => true
  | .comet _ _ => true
  | .accel _ => true
  | .nme _ => true
  | _ => false

/-- The owners all of whose requests for a line wait at its home, in order of arrival (R287, R288). -/
def State.waitingAt (s : State) (h l : Nat) : List ReqOwner :=
  let rs := s.reqs.filter (fun r => decide (r.handle = h) && decide (r.line = l) && decide (r.tier ≠ 3) && r.owner.combines)
  (((bySeq (rs.filter Req.atHome)).map (fun r => r.owner)).eraseDups).filter (fun ow =>
    rs.all (fun r => decide (r.owner ≠ ow) || r.atHome))

/-- Requests for a line are taken from its home: they are in its combiner's queue. -/
def State.dropLineReqs (s : State) (h l : Nat) (ows : List ReqOwner) : State :=
  { s with reqs := s.reqs.filter (fun r => !(decide (r.handle = h) && decide (r.line = l) && ows.contains r.owner)) }

/-- Whether a coherent request of an accelerator for a line waits at its home (R289). -/
def State.coherentWaits (s : State) (h l : Nat) : Bool :=
  s.accs.any (fun a => a.home && a.coh && decide (a.handle = h) && decide (a.line = l))

/-- COMBINER_LINE_ENTER: a line for which ENTER requests wait at its home enters its combiner where that has a free
line, with its value and the oldest 64 of the requests; a full combiner is counted in FULL_EVT (R287, R288). A line that an
accelerator holds or asks for coherently does not enter (R289). -/
def execCombinerLineEnter (h l : Nat) (s : State) : Outcome :=
  let enter := s.fget Reg.XBAR_FAB_CTRL_ENTER []
  let ows := s.waitingAt h l
  .next (match s.combinerOf h l with
    | none => s
    | some k =>
      if enter = 0 ∨ ows.length < enter ∨ (s.hotLine h l).isSome = true ∨ (s.dirEntry h l).isSome = true ∨
          s.coherentWaits h l = true then s
      else if 32 ≤ (s.hot.filter (fun d => decide (d.home = k))).length then
        s.fsat Reg.XBAR_COMB_STAT_FULL_EVT [] 1
      else
        { s.dropLineReqs h l (ows.take 64) with
          hot := s.hot ++ [⟨k, h, l, ows.take 64, s.now⟩] })

/-- The part of an instruction or comet that lies in a combined line, applied to the combiner's copy (R287): the state
and the work with what it has met there. -/
def State.applyLine (s : State) (q : Outst) (l : Nat) : State × Outst :=
  let st := match s.obj? q.handle with
    | none => none
    | some o => match q.op with
      | .store ps => s.writeStatus o q.handle l (coversLine (ps.map (fun (e : Nat × List Byte) => (e.1, e.2.length))) l) true
      | _ => s.readStatus o q.handle l true
  if st.isSome then (s, q)
  else match q.op with
    | .store ps =>
      (s.storePieces q.handle (q.lines.filter (fun k => decide (k ≠ l))) ps, { q with applied := setIns q.applied l })
    | .amo _ _ _ _ _ => let r := s.applyWrite q; (r.1, { q with found := some r.2, applied := setIns q.applied l })
    | .pub _ _ _ _ _ => let r := s.applyWrite q; (r.1, { q with found := some r.2, applied := setIns q.applied l })
    | _ =>
      let bs := match s.obj? q.handle with
        | some o => memRead o.data (64 * l) 64
        | none => []
      (s, { q with got := kvSet q.got l bs })

/-- The state with the work an owner names replaced. -/
def State.setWork (s : State) (ow : ReqOwner) (q : Outst) : State :=
  match ow with
  | .instr c _ => s.modCtx c (fun x => { x with outst := some q })
  | .comet c _ => s.modCtx c (fun x => { x with comets := x.comets.map (fun k => if k.id = q.id then q else k) })
  | _ => s

/-- Whether it is the turn of an owner's request for a combined line: no earlier request of its source to the object is left
(R279). -/
def State.hotTurn (s : State) (ow : ReqOwner) : Bool :=
  match ow with
  | .instr c _ => (match s.ctx? c, s.workOf ow with
    | some x, some (_, q) => x.inOrder q
    | _, _ => true)
  | .comet c _ => (match s.ctx? c, s.workOf ow with
    | some x, some (_, q) => x.inOrder q
    | _, _ => true)
  | .accel id => (match s.accs.find? (fun a => decide (a.id = id)) with
    | some a => s.accFirst a
    | none => true)
  | _ => true

/-- One request applied to a combined line; a publication that meets a final status there is not made, as a PUB
(R284). -/
def State.applyHot (s : State) (ow : ReqOwner) (l : Nat) : State :=
  match ow with
  | .accel id => (match s.accs.find? (fun a => decide (a.id = id)) with
    | some a => s.performAcc a
    | none => s)
  | .nme id => (match s.nmes.find? (fun n => decide (n.id = id)) with
    | some n => (match n.arg with
      | .publish h off e new =>
        let st := match s.obj? h with
          | some o => s.readStatus o h l true
          | none => none
        if st.isSome then s
        else
        let r := s.doPublish h off e new
        { r.1 with nmes := r.1.nmes.map (fun k => if k.id = id then { k with found := some r.2 } else k) }
      | _ => s)
    | none => s)
  | ow => match s.workOf ow with
    | some (_, q) => let r := s.applyLine q l; r.1.setWork ow r.2
    | none => s

/-- COMBINER_APPLY: the combiner applies the oldest request of a line's queue (R287), in its source's order (R279). -/
def execCombinerApply (h l : Nat) (s : State) : Outcome :=
  .next (match s.hotLine h l with
    | none => s
    | some d =>
      match d.queue with
      | [] => s
      | ow :: r =>
        if !s.hotTurn ow then s
        else
        let s1 : State := { s with hot := s.hot.map (fun e => if e = d then { e with queue := r, last := s.now } else e) }
        ((s1.applyHot ow l).fwrap Reg.XBAR_COMB_STAT_APPLIED [] 1).finishAccs)

/-- COMBINER_LINE_LEAVE: a line without a request for COOL cycles leaves, its copy written to its placement home
(R287); COOL 0 is taken as 1.
DESIGN CHOICE: assumption 4. -/
def execCombinerLineLeave (h l : Nat) (s : State) : Outcome :=
  .next (match s.hotLine h l with
    | none => s
    | some d =>
      if d.queue.isEmpty && decide (d.last + max 1 (s.fget Reg.XBAR_FAB_CTRL_COOL []) ≤ s.now) then
        { s with hot := s.hot.filter (fun e => decide (e ≠ d)) }
      else s)

end Sys2Proof.Machine
end

