-- ==== Sys2Proof/Machine/PilotConfig.lean ====
section
/-!
DEFINITION. What the pilot function presents in its configuration (R402, R403).
-/
namespace Sys2Proof.Machine

/-- The CXL component registers and the CXL device registers in BAR0: offset and size (R403). -/
def locatedBlocks : (Nat × Nat) × (Nat × Nat) := ((0x2600000, 0x10000), (0x2610000, 0x10000))

/-- The value of an item of the configuration (R402). BAR0 and BAR1 are one 64-bit register. -/
def pilotConfig : ConfigItem → ConfigValue
  | .vendor => .number 0x5C0D
  | .subsystemVendor => .number 0x5C0D
  | .device => .number 0x4800
  | .subsystem => .number 0x4800
  | .revision => .number 0xB0
  | .classCode => .number 0x050210
  | .header => .header 0 false
  | .bar k => if k < 2 then .memory true false (64 * 2 ^ 20) else .number 0
  | .expansionRom => .number 0
  | .interruptPin => .number 0
  | .capabilities => .capabilities [.pciExpress, .powerManagement, .msix]
  | .extended => .capabilities [.aer, .doe, .dataLinkFeature, .physical16, .physical32, .physical64, .flitLogging, .pcieIde]
  | .designated => .designated [.cxlDevice true false false, .flexBusPort, .registerLocator locatedBlocks.1 locatedBlocks.2]
  | .doeProtocols => .protocols [.discovery, .cmaSpdm, .securedCmaSpdm]

end Sys2Proof.Machine
end

