-- ==== Sys2Proof/Machine/Mirrors.lean ====
section
/-!
DEFINITION. Mirror pairs, fail-out, rebuild, LOST granules, health and expulsion (R505 to R519, R529).
-/
namespace Sys2Proof.Machine

/-! ### Trays and pairs (R505 to R507) -/

/-- The state of a tray (R505). -/
def State.trayState (s : State) (t : Nat) : Nat := s.fget Reg.PLACE_TRAY_STAT_STATE [t]
/-- The pair a tray belongs to; 15 where it belongs to none. -/
def State.trayPair (s : State) (t : Nat) : Nat := s.fget Reg.PLACE_TRAY_STAT_PAIR [t]
/-- The capacity of a tray in GiB. -/
def State.trayCap (s : State) (t : Nat) : Nat := s.fget Reg.PLACE_TRAY_STAT_CAP_GIB [t]
/-- The capacity of a pair in GiB (R506). -/
def State.pairCap (s : State) (k : Nat) : Nat := kvGet 0 s.mir.caps k

/-- The state with what mirrors hold changed. -/
def State.modMir (s : State) (f : Mirror → Mirror) : State := { s with mir := f s.mir }

/-- A MIRROR record of the device queue (R529). -/
def State.mirrorRec (s : State) (status code unit a b : Nat) : State :=
  s.appendDev ⟨status, clsMirror, code, 16, 0, 0, unit, a, b, s.now⟩

/-- The effective health of a tray: the smaller of its score and that of its port link (R517). -/
def State.effHealth (s : State) (t : Nat) : Nat :=
  let h := s.fget Reg.PLACE_TRAY_STAT_HEALTH [t]
  match s.portOfTray t with
  | some n => min h (s.fget Reg.LINK_PORT_HEALTH_HEALTH [n])
  | none => h

/-- SPARES follows the trays in SPARE (R530). -/
def State.countSpares (s : State) : State :=
  s.fset Reg.PLACE_MIR_STAT_SPARES [] ((List.range 24).filter (fun t => decide (s.trayState t = 1))).length

/-- A tray changes its state and pair. -/
def State.setTray (s : State) (t st k : Nat) : State :=
  (((s.fset Reg.PLACE_TRAY_STAT_STATE [t] st).fset Reg.PLACE_TRAY_STAT_PAIR [t] k).fset
    Reg.PLACE_TRAY_STAT_CLEAN [t] 0).countSpares

/-- A pair changes its state, members and new tray. -/
def State.setPair (s : State) (k st a b n : Nat) : State :=
  (((s.fset Reg.PLACE_PAIR_STAT_STATE [k] st).fset Reg.PLACE_PAIR_STAT_MEMBER_A [k] a).fset
    Reg.PLACE_PAIR_STAT_MEMBER_B [k] b).fset Reg.PLACE_PAIR_STAT_NEW [k] n

/-- The sole member of a pair that is not HEALTHY. -/
def State.soleMember (s : State) (k : Nat) : Nat :=
  let a := s.fget Reg.PLACE_PAIR_STAT_MEMBER_A [k]
  if a = 31 then s.fget Reg.PLACE_PAIR_STAT_MEMBER_B [k] else a

/-- The written granules with a home on a pair, in ascending handle and granule (R512). -/
def State.granulesOn (s : State) (k : Nat) : List (Nat × Nat) :=
  s.objs.flatMap (fun e =>
    if pinnedClass e.2.cls then []
    else (e.2.written.filter (fun g => s.pairOf e.2 e.1 g == some k)).map (fun g => (e.1, g)))

/-- Whether a granule is written and has its home on a pair. -/
def State.homedOn (s : State) (k : Nat) (g : Nat × Nat) : Bool :=
  match s.obj? g.1 with
  | some o => !pinnedClass o.cls && o.written.contains g.2 && s.pairOf o g.1 g.2 == some k
  | none => false

/-- The spare a rebuild of a pair takes: the smallest that is large enough, the lower number on a tie (R511). -/
def State.spareFor (s : State) (k : Nat) : Option Nat :=
  ((List.range 24).filter (fun t => decide (s.trayState t = 1) && decide (s.pairCap k ≤ s.trayCap t))).foldl
    (fun (a : Option Nat) t => match a with
      | some b => if s.trayCap t < s.trayCap b then some t else some b
      | none => some t) none

/-! ### LOST granules (R514 to R516) -/

/-- The partition and job a request is made for. -/
def State.jobOfOwner (s : State) (o : ReqOwner) : Option (Nat × Nat) :=
  let ofCtx := fun (c : Nat) => (s.ctx? c).map (fun x => (x.part, x.job))
  match o with
  | .instr c _ => ofCtx c
  | .comet c _ => ofCtx c
  | .accel id => (s.accs.find? (fun a => decide (a.id = id))).map (fun a => (a.part, a.job))
  | .nme id => (s.nmes.find? (fun n => decide (n.id = id))).map (fun n => (n.part, s.fget Reg.CTX_QP_C_JOB [n.qp]))
  | _ => none

/-- A record of the loss of a granule that waits is appended, where the queue has at least 16 free slots (R516). -/
def State.flushLostOne (t : State) (r : Nat × Nat) : State :=
  if 112 < (t.part (handlePart r.1)).errq.used then t
  else
    let u := t.modMir (fun m => { m with recs := m.recs.erase r })
    match t.obj? r.1 with
    | some o => u.appendBoth
        (Rec.ofPart (handlePart r.1) stLost clsMirror 1 0 (mkRef r.1 o.hgen) (r.2 * 4096 + 0x40000000000000) t.now)
    | none => u

/-- The MIRROR records of code 1 that wait go to queues with at least 16 free slots (R516). -/
def State.flushLost (s : State) : State := s.mir.recs.foldl State.flushLostOne s

/-- Granules of one object are marked LOST (R514, R515): their lines, the runs to log, the record, the requests in
flight to them, which end with LOST, and the teardown of each job that has one. -/
def State.markLost (s : State) (h : Nat) (gs : List Nat) : State :=
  match s.obj? h with
  | none => s
  | some o =>
    let ls := gs.flatMap (fun g => span (64 * g) (64 * g + 64))
    let hit := fun (r : Req) => decide (r.handle = h) && decide (r.tier = 2) && gs.contains (granuleOfLine r.line) &&
      decide (r.state ≠ .answered)
    let jobs := ((s.reqs.filter hit).filterMap (fun r => s.jobOfOwner r.owner)).eraseDups
    let s1 := (s.modObj h (fun q => { q with lost := setInsAll q.lost ls })).fsat Reg.PLACE_MIR_STAT_LOST_G [] gs.length
    let s2 : State := { s1 with reqs := s1.reqs.map (fun (r : Req) =>
      if hit r then { r with state := .answered, final := some stLost } else r) }
    let s3 := s2.modMir (fun m => { m with runs := m.runs ++ [(h, setInsAll [] gs)], recs := m.recs ++ [(h, gs.headD 0)] })
    jobs.foldl (fun (t : State) j => t.triggerTeardown j.1 j.2 1 (mkRef h o.hgen)) s3

/-- A list of (handle, granule) pairs marked LOST, object by object. -/
def State.markAllLost (s : State) (l : List (Nat × Nat)) : State :=
  ((l.map (fun e => e.1)).eraseDups.foldl (fun (t : State) h =>
    t.markLost h ((l.filter (fun e => decide (e.1 = h))).map (fun e => e.2))) s).flushLost

/-- The first run of consecutive granules of a rising list. -/
def firstRun : List Nat → Nat × Nat
  | [] => (0, 0)
  | g :: r => (g, (r.foldl (fun (a : Nat × Bool) x => if a.2 && decide (x = g + a.1) then (a.1 + 1, true) else (a.1, false))
      (1, true)).1)

/-- LOSS_LOG_WRITE: one entry of a partition's loss log is written where the log has room (R516): the next run in
marking order, of the granules that still hold a mark.
DEDUCED: assumption 45. -/
def execLossLogWrite (p : Nat) (s : State) : Outcome :=
  .next (match s.mir.runs.find? (fun r => decide (handlePart r.1 = p)) with
    | none => s
    | some r =>
      let drop := s.modMir (fun m => { m with runs := m.runs.erase r })
      match s.obj? r.1 with
      | none => drop
      | some o =>
        let gs := r.2.filter (fun g => (span (64 * g) (64 * g + 64)).any (fun l => o.lost.contains l))
        match gs with
        | [] => drop
        | _ :: _ =>
          let ref := s.fget Reg.PLACE_LOSS_LOG_LOG [p]
          match s.objOfRef ref with
          | none => s
          | some lg =>
            let lh := refHandle ref
            let cap := (lg.size - 64) / 16
            let n := s.wordAt lh 8
            if ref = 0 ∨ handlePart lh ≠ p ∨ lg.rd = false ∨ lg.wr = false ∨ s.wordAt lh 0 + cap ≤ n then s
            else
              let run := firstRun gs
              let len := min run.2 (2 ^ 24 - 1)
              let e := natBytes 8 (mkRef r.1 o.hgen) ++ natBytes 5 run.1 ++ natBytes 3 len
              let s1 := (s.storeObj lh (64 + 16 * (n % cap)) e).storeObj lh 8 (natBytes 8 (n + 1))
              s1.modMir (fun m => { m with runs := m.runs.map (fun q =>
                if q = r then (r.1, gs.filter (fun g => decide (run.1 + len ≤ g))) else q) }))

/-! ### Rebuild (R511, R512) -/

/-- A DEGRADED pair starts its rebuild where a spare is large enough. -/
def State.startRebuild (s : State) (k : Nat) : State :=
  if s.pairState k ≠ 2 then s
  else match s.spareFor k with
    | none => s
    | some t =>
      let m := s.soleMember k
      let s1 := ((s.setTray t 3 k).setPair k 3 m 31 t).fset Reg.PLACE_PAIR_STAT_COPIED_GIB [k] 0
      let left := s1.granulesOn k
      (s1.modMir (fun r => { r with
        rebuild := kvSet r.rebuild k (0, left)
        credit := kvDel r.credit k })).mirrorRec stOk 4 t t k

/-- Every DEGRADED pair that can starts its rebuild, the lower pair number first (R511). -/
def State.startRebuilds (s : State) : State := (List.range 12).foldl (fun (t : State) k => t.startRebuild k) s

/-! ### Expulsion hold (R518, R519) -/

/-- The members whose expulsion is due (R518). -/
def State.dueTrays (s : State) : List Nat :=
  (List.range 24).filter (fun t => decide (s.trayState t = 2) &&
    (s.mir.due.contains t || decide (s.effHealth t < s.fget Reg.PLACE_MIR_CTRL_EXPEL_AT [])))

/-- HOLD follows what R519 asks; entering it appends a MIRROR record of code 8. -/
def State.updateHold (s : State) : State :=
  let due := s.dueTrays.filter (fun t => (s.spareFor (s.trayPair t)).isNone)
  let bare := (List.range 12).filter (fun k => decide (s.pairState k = 2) && (s.spareFor k).isNone)
  if due.isEmpty && bare.isEmpty then s.fset Reg.PLACE_MIR_STAT_HOLD [] 0
  else if s.fget Reg.PLACE_MIR_STAT_HOLD [] = 1 then s
  else
    let t := due.headD 0xFF
    let k := match due.head? with
      | some y => s.trayPair y
      | none => bare.headD 0xFF
    (s.fset Reg.PLACE_MIR_STAT_HOLD [] 1).mirrorRec stBusy 8 t t k

/-- What follows every change of trays and pairs: rebuilds that can start, the hold, the records that wait. -/
def State.settleMirrors (s : State) : State := s.startRebuilds.updateHold.flushLost

/-! ### Fail-out (R510) -/

/-- The rebuild of a pair ends, done or not: its copies leave the device (R512). -/
def State.endRebuild (s : State) (k : Nat) : State :=
  { s.modMir (fun m => { m with rebuild := kvDel m.rebuild k, credit := kvDel m.credit k }) with
    reqs := s.reqs.filter (fun r => match r.owner with
      | .rebuild j _ _ => decide (j ≠ k)
      | _ => true) }

/-- The pair of a failed tray changes (R510, R514). -/
def State.pairAfter (s : State) (t k : Nat) : State :=
  let a := s.fget Reg.PLACE_PAIR_STAT_MEMBER_A [k]
  let b := s.fget Reg.PLACE_PAIR_STAT_MEMBER_B [k]
  let n := s.fget Reg.PLACE_PAIR_STAT_NEW [k]
  let gone := s.endRebuild k
  match s.pairState k with
  | 1 => s.setPair k 2 (if a = t then b else a) 31 31
  | 2 => s.setPair k 5 31 31 31
  | 3 =>
    if n = t then gone.setPair k 2 (s.soleMember k) 31 31
    else
      let left := match kvGet? s.mir.rebuild k with
        | some r => r.2.filter (s.homedOn k)
        | none => []
      ((gone.setTray n 2 k).setPair k 2 n 31 31).markAllLost left
  | 4 =>
    if n = t then gone.setPair k 2 (s.soleMember k) 31 31
    else ((gone.setTray n 2 k).setPair k 2 n 31 31).mirrorRec stOk 7 n n k
  | _ => s

/-- A tray is failed out (R510): it becomes OUT with health 0, its pair changes, and writes to it that have not completed
no longer count; where its pair is dead, every request outstanding to it ends (R293).
DEDUCED: assumption 45. -/
def State.failOut (s : State) (t : Nat) : State :=
  if s.trayState t = 0 ∨ s.trayState t = 5 then s
  else
    let k := s.trayPair t
    let s1 := (((s.setTray t 5 15).fset Reg.PLACE_TRAY_STAT_HEALTH [t] 0).fsat Reg.PLACE_MIR_STAT_FAILOUTS [] 1).mirrorRec
      stTierFail 2 t t k
    let s2 := s1.modMir (fun m => { m with due := setDel m.due t })
    let s3 := if k = 15 then s2 else s2.pairAfter t k
    let s4 : State := { s3 with reqs := s3.reqs.map (fun (r : Req) =>
      if r.tier = 2 ∧ r.tray = t ∧ (r.write = true ∨ s3.pairState k = 5) ∧ r.state ≠ .answered ∧ r.state ≠ .returning then
        { r with state := .answered, final := some (if r.poisoned then stPoison else stTierFail) } else r) }
    s4.settleMirrors

/-! ### Health (R517) -/

/-- A TARGET or SHADOW whose effective health is below EXPEL_AT is failed out (R510). -/
def State.checkTarget (s : State) (t : Nat) : State :=
  if (s.trayState t = 3 ∨ s.trayState t = 4) ∧ s.effHealth t < s.fget Reg.PLACE_MIR_CTRL_EXPEL_AT [] then s.failOut t
  else s.updateHold

/-- An event lowers a tray's score. -/
def State.trayEvent (s : State) (t n : Nat) : State :=
  if s.trayState t = 0 ∨ s.trayState t = 5 then s
  else
    ((s.fset Reg.PLACE_TRAY_STAT_HEALTH [t] (s.fget Reg.PLACE_TRAY_STAT_HEALTH [t] - n)).modMir
      (fun m => { m with trayEvents := setIns m.trayEvents t })).checkTarget t

/-- An event lowers the score of a port link. -/
def State.linkEvent (s : State) (n k : Nat) : State :=
  let s1 := (s.fset Reg.LINK_PORT_HEALTH_HEALTH [n] (s.fget Reg.LINK_PORT_HEALTH_HEALTH [n] - k)).modMir
    (fun m => { m with linkEvents := setIns m.linkEvents n })
  match (List.range 24).find? (fun t => s.portOfTray t == some n) with
  | some t => s1.checkTarget t
  | none => s1

/-! ### Writes of PLACE_TRAY_CTRL (R506, R518) -/

/-- Two SPARE trays become a pair of the lowest free number, or the write is refused (R506). -/
def State.formPair (s : State) (t u off : Nat) : State :=
  match (List.range 12).find? (fun k => decide (s.pairState k = 0)) with
  | none => s.refuseAccess off
  | some k =>
    if t = u ∨ s.trayState t ≠ 1 ∨ 24 ≤ u ∨ s.trayState u ≠ 1 then s.refuseAccess off
    else
      let s1 := ((s.setTray t 2 k).setTray u 2 k).setPair k 1 t u 31
      (s1.modMir (fun m => { m with caps := kvSet m.caps k (min (s.trayCap t) (s.trayCap u)) })).settleMirrors

/-- A write of PLACE_TRAY_CTRL of a tray: PARTNER is kept, PAIR forms a pair, EXPEL makes an expulsion due. -/
def State.writeTrayCtrl (s : State) (t : Nat) (v : Word) : State :=
  let u := bitsOf 52 48 v.toNat
  let s1 := s.fset Reg.PLACE_TRAY_CTRL_PARTNER [t] u
  let s2 := if bitAt 63 v.toNat then s1.formPair t u (RegName.PLACE_TRAY_CTRL.addr [t]) else s1
  if bitAt 62 v.toNat then (s2.modMir (fun m => { m with due := setIns m.due t })).updateHold else s2

/-! ### The two events of the copies (R512, R513) -/

/-- REBUILD_COPY_DONE: the last granule of a pair's rebuild has been copied; the target becomes SHADOW (R512). -/
def execRebuildCopyDone (k : Nat) (s : State) : Outcome :=
  .next (match kvGet? s.mir.rebuild k with
    | none => s
    | some r =>
      if s.pairState k ≠ 3 ∨ r.2 ≠ [] then s
      else
        let n := s.fget Reg.PLACE_PAIR_STAT_NEW [k]
        let clean := s.fget Reg.PLACE_TRAY_STAT_CLEAN [n]
        let s1 := (((s.setTray n 4 k).fset Reg.PLACE_TRAY_STAT_CLEAN [n] clean).fset Reg.PLACE_PAIR_STAT_STATE [k] 4).fset
          Reg.PLACE_PAIR_STAT_COPIED_GIB [k] (r.1 * 4096 / 2 ^ 30)
        (s1.modMir (fun m => { m with
          rebuild := kvDel m.rebuild k
          credit := kvDel m.credit k
          shadowClean := kvDel m.shadowClean n })).mirrorRec stOk 5 n n k)

/-- SENT or READ of a tray (R513): the sum modulo 2^256 of SHA3-256 over the address and the ciphertext of each line. -/
def lineSum (l : List (Nat × Nat × List Byte)) : BitVec 256 :=
  l.foldl (fun a e => a + Config.sha3Short (Config.trayLine e.1 e.2.1 ++ e.2.2)) 0#256

/-- The line of a read-back that is there; a line that none gives failed to be read. -/
def readBack (reads : List (Nat × Nat × Nat × List Byte)) (t : Nat) (e : Nat × Nat × List Byte) :
    Option (Nat × Nat × List Byte) :=
  (reads.find? (fun r => decide (r.1 = t ∧ r.2.1 = e.1 ∧ r.2.2.1 = e.2.1))).map (fun r => r.2)

/-- Whether the check window of a tray is clean (R513): every line written to it was read back, and SENT equals READ. -/
def State.windowClean (s : State) (t : Nat) (reads : List (Nat × Nat × Nat × List Byte)) : Bool :=
  let sent := kvGet [] s.mir.sent t
  let back := sent.map (readBack reads t)
  back.all (fun r => r.isSome) && lineSum sent == lineSum (back.filterMap id)

/-- The check of one tray at the close of a window (R513). A tray that was SHADOW for the whole of PROMOTE_N clean windows
becomes MEMBER. -/
def State.checkTray (s : State) (t : Nat) (clean : Bool) : State :=
  if s.trayState t ≠ 3 ∧ s.trayState t ≠ 4 then s
  else if !clean then s.failOut t
  else
    let s1 := s.fsat Reg.PLACE_TRAY_STAT_CLEAN [t] 1
    if s.trayState t = 4 ∧ s.mir.began.contains t = true then
      let n := kvGet 0 s.mir.shadowClean t + 1
      let k := s.trayPair t
      if max 1 (s.fget Reg.PLACE_MIR_CTRL_PROMOTE_N []) ≤ n then
        (((s1.setTray t 2 k).setPair k 1 (s1.soleMember k) t 31).modMir
          (fun m => { m with shadowClean := kvDel m.shadowClean t })).mirrorRec stOk 6 t t k
      else s1.modMir (fun m => { m with shadowClean := kvSet m.shadowClean t n })
    else s1

/-- The scores rise by 1 where the window saw no event (R517). -/
def State.healthRise (s : State) : State :=
  let s1 := (List.range 24).foldl (fun (t : State) y =>
    if t.trayState y = 0 ∨ t.trayState y = 5 ∨ t.mir.trayEvents.contains y = true then t
    else t.fsat Reg.PLACE_TRAY_STAT_HEALTH [y] 1) s
  let s2 := (List.range 256).foldl (fun (t : State) n =>
    if t.mir.linkEvents.contains n then t else t.fsat Reg.LINK_PORT_HEALTH_HEALTH [n] 1) s1
  s2.modMir (fun m => { m with trayEvents := [], linkEvents := [] })

/-- The partitions that hold written granules on a pair (R518). -/
def State.partsOn (s : State) (k : Nat) : List Nat := ((s.granulesOn k).map (fun e => handlePart e.1)).eraseDups

/-- The expulsion a check window performs, where one is due and may be (R518).
DEDUCED: assumption 45. -/
def State.expel (s : State) : State :=
  match s.dueTrays.foldl (fun (a : Option Nat) t => match a with
      | some b => if s.effHealth t < s.effHealth b then some t else some b
      | none => some t) none with
  | none => s
  | some t =>
    let k := s.trayPair t
    let ps := s.partsOn k
    let rested := ps.all (fun p => match kvGet? s.mir.charged p with
      | some c => decide (c + 17000000000 ≤ s.now)
      | none => true)
    if s.pairState k ≠ 1 ∨ (s.spareFor k).isNone = true ∨ rested = false then s
    else
      let a := s.fget Reg.PLACE_PAIR_STAT_MEMBER_A [k]
      let b := s.fget Reg.PLACE_PAIR_STAT_MEMBER_B [k]
      let s1 := (((s.setTray t 5 15).setPair k 2 (if a = t then b else a) 31 31).fsat Reg.PLACE_MIR_STAT_EXPULSIONS [] 1).mirrorRec
        stOk 3 t t k
      (s1.modMir (fun m => { m with
        due := setDel m.due t
        charged := ps.foldl (fun c p => kvSet c p s.now) m.charged })).startRebuild k

/-- CHECK_WINDOW: a check window closes (R513, R517 to R519); `reads` holds what was read back: tray, handle, line and
ciphertext. -/
def execCheckWindow (reads : List (Nat × Nat × Nat × List Byte)) (s : State) : Outcome :=
  let s1 := (List.range 24).foldl (fun (t : State) y => t.checkTray y (s.windowClean y reads)) s
  let s2 := s1.healthRise.expel.settleMirrors
  .next (s2.modMir (fun m => { m with
    began := (List.range 24).filter (fun t => decide (s2.trayState t = 4))
    sent := [] }))

end Sys2Proof.Machine
end

