-- ==== Sys2Proof/Machine/PlaceEvents.lean ====
section
/-!
DEFINITION. The events of the memory system and of the placement engine: late and failing requests (R262, R263),
fills and room (R247, R255, R259), moves (R248), the imbalance procedure (R250) and the scrub patrol (R268).
-/
namespace Sys2Proof.Machine

/-! ### Requests -/

/-- Whether what a request is for is still there; the answer to any other is discarded (R491). -/
def State.ownerLives (s : State) (o : ReqOwner) : Bool :=
  match o with
  | .instr c id => (match s.ctx? c with
    | some x => (match x.outst with
      | some q => decide (q.id = id)
      | none => false)
    | none => false)
  | .comet c id => (match s.ctx? c with
    | some x => x.comets.any (fun q => decide (q.id = id))
    | none => false)
  | .accel id => s.accs.any (fun a => decide (a.id = id))
  | .nme id => s.nmes.any (fun n => decide (n.id = id))
  | .fill h g => s.fills.any (fun f => decide (f.handle = h) && decide (f.granule = g))
  | .wb h e => (match s.obj? h with
    | some o => (match kvGet? o.extents e with
      | some x => x.evict
      | none => false)
    | none => false)
  | .move h => (match s.obj? h with
    | some o => o.move.isSome
    | none => false)
  | .rebuild k _ _ => (kvGet? s.mir.rebuild k).isSome
  | .view k => (kvGet View.blank s.views k).writing.isSome
  | .scrub k => s.scrubs.any (fun c => decide (c.slot = k))

/-- A request is answered, with a final status or with good data; a request nothing waits for leaves (R491).
DESIGN CHOICE: assumption 41. -/
def State.answerReq (s : State) (id : Nat) (final : Option Nat) : State :=
  match s.req? id with
  | none => s
  | some r =>
    if s.ownerLives r.owner then
      s.modReq id (fun q => { q with state := .answered, final := final, failing := false, late := false })
    else { s with reqs := s.reqs.filter (fun q => decide (q.id ≠ id)) }

/-- The tray a failed tier-2 request is repeated to, where its pair has a partner in service (R263). -/
def State.partnerTray (s : State) (r : Req) : Option Nat :=
  match s.obj? r.handle with
  | none => none
  | some o =>
    match s.pairOf o r.handle (granuleOfLine r.line) with
    | none => none
    | some k => (s.readTrays o r.handle (granuleOfLine r.line) k).find? (fun y => decide (y ≠ r.tray))

/-- Both mirror partners have failed a request for a line, or the one that serves its degraded pair has: a MEMORY record of
code 2 (R263, R480).
DEDUCED: assumption 29. -/
def State.partnersFailed (s : State) (r : Req) (st : Nat) : State :=
  match s.obj? r.handle with
  | some o => s.appendPart (Rec.ofPart (handlePart r.handle) st clsMemory 2 0 (mkRef r.handle o.hgen) (64 * r.line) s.now)
  | none => s

/-- A failure event of a tier-2 request (R262, R263), `poison` where a tray answered poison. A write that fails takes its
tray out (R510). A read lowers its tray's health (R517) and is repeated once to the mirror partner; after a second failure,
or with no partner, the failure is final, POISON if either answer was poison and TIER_FAIL otherwise. The read of a partial
store (R385) whose tray failed takes the line from the partner and goes on with the write.
DEDUCED: assumptions 29 and 45. -/
def State.failReq (s : State) (id : Nat) (poison : Bool) : State :=
  match s.req? id with
  | none => s
  | some r =>
    let s0 := if r.failing then s else s.fsat Reg.PLACE_EVT_FAIL [r.part] 1
    let p := r.poisoned || poison
    if r.write && !r.rdFirst then (s0.failOut r.tray).answerReq id (some stTierFail)
    else
      let s1 := s0.trayEvent r.tray 32
      match (if r.repeated then none else s1.partnerTray r) with
      | some y =>
        if r.write then
          (s1.modReq id (fun q => { q with
            failing := true
            poisoned := p
            repeated := true
            rdFirst := false })).toTray { r with rdFirst := false }
        else
          (s1.modReq id (fun q => { q with
            failing := true
            poisoned := p
            repeated := true
            tray := y
            port := (s.portOfTray y).getD 271
            out := (s.portOfTray y).getD 271
            state := .queued
            since := s.now })).reachPort id
      | none =>
        let st := if p then stPoison else stTierFail
        (s1.partnersFailed r st).answerReq id (some st)

/-- REQUEST_LATE: the age of a request exceeds the LATE threshold of its tier (R262).
DESIGN CHOICE: assumption 4. DEDUCED: assumption 29. -/
def execRequestLate (id : Nat) (s : State) : Outcome :=
  .next (match s.req? id with
    | none => s
    | some r =>
      let t := if r.tier = 1 then s.fget Reg.PLACE_TIER1_T_LATE_T [] else s.fget Reg.PLACE_TIER2_T_LATE_T []
      if r.late || r.failing || decide (r.state = .answered) || decide (s.now ≤ r.since + t) then s
      else (s.modReq id (fun q => { q with late := true })).fsat Reg.PLACE_EVT_LATE [r.part] 1)

/-! ### A stack leaves service (R263, R293, R501) -/

/-- The device enters device fault (R501): a RESET record of code 3 with its cause, and every valid partition is
reset with trigger code 6. -/
def State.enterDeviceFault (s : State) (cause unit : Nat) : State :=
  let s1 := s.appendDev ⟨stAborted, clsReset, 3, 16, 0, 4, 0, cause, unit, s.now⟩
  partIds.foldl (fun (t : State) p => t.triggerReset p 6) { s1 with devFault := true }

/-- An HBM stack leaves service: its UNIT record of code 2, its requests end with TIER_FAIL (R293), and the device
enters device fault with cause 1. -/
def State.loseStack (s : State) (i : Nat) : State :=
  if !s.stackInService i then s
  else
    let v := s.fget Reg.GLB_UNIT_AVAIL_HBM_IN_SERVICE []
    let s1 := s.fset Reg.GLB_UNIT_AVAIL_HBM_IN_SERVICE [] (v - 2 ^ i)
    let s2 := s1.appendDev ⟨stTierFail, clsUnit, 2, 16, 0, 4, i, 0, 0, s.now⟩
    let s3 : State := { s2 with reqs := s2.reqs.map (fun (r : Req) =>
      if r.tier = 1 ∧ r.tray = i ∧ r.state ≠ .answered then { r with state := .answered, final := some stTierFail }
      else r) }
    (s3.enterDeviceFault 1 i).finishAccs

/-- REQUEST_FAIL_TIMEOUT: a request gets no answer within the FAIL threshold of its tier (R262, R263).
DESIGN CHOICE: assumption 4. DEDUCED: assumption 29. -/
def execRequestFailTimeout (id : Nat) (s : State) : Outcome :=
  .next (match s.req? id with
    | none => s
    | some r =>
      let t := if r.tier = 1 then s.fget Reg.PLACE_TIER1_T_FAIL_T [] else s.fget Reg.PLACE_TIER2_T_FAIL_T []
      if decide (r.state ≠ .sent) || decide (s.now ≤ r.since + t) then s
      else if r.tier = 1 then (s.fsat Reg.PLACE_EVT_FAIL [r.part] 1).loseStack r.tray
      else (s.failReq id false).finishAccs)

/-! ### Fills (R247, R255) -/

/-- The granule of a fill is written to its channel in tier 1: 4,096 bytes charged there to the fill (R324), and its home is
the copy (R247), which is a touch (R258). -/
def State.fillCopy (s : State) (f : Fill) : State :=
  match s.obj? f.handle with
  | none => s
  | some o =>
    (s.chargeTags (1024 + s.channelOf o f.handle f.granule) f.charge 4096).modObj f.handle (fun q => { q with
      extents := kvMod q.extents (extentOf f.granule) (fun e => { e with
        touch := (s.part (handlePart f.handle)).orbit
        present := setIns e.present f.granule }) })

/-- GRANULE_FILL_DONE: a fill ends once its tier-2 reads are answered (R247); the granule's home is then its tier-1
copy. A fill one of whose reads failed finally is given up, and the reads that waited for it end with that status (R263). -/
def execGranuleFillDone (h g : Nat) (s : State) : Outcome :=
  .next (match s.fills.find? (fun f => decide (f.handle = h) && decide (f.granule = g) && !f.waiting) with
    | none => s
    | some f =>
      let ow := ReqOwner.fill h g
      if s.reqs.any (fun r => decide (r.owner = ow) && decide (r.state ≠ .answered)) ||
          s.hot.any (fun d => decide (d.handle = h) && decide (granuleOfLine d.line = g)) then s
      else match worst (s.reqFinals ow) with
        | some st => (s.endFill h g (some st)).finishAccs
        | none => ((s.fillCopy f).endFill h g none).finishAccs)

/-! ### Moves (R248, R249) -/

/-- The copy of a staged move (R248): every written line is read at its home and written to the new layout, class 0, charged
to the device account (R303, R322). -/
def State.startMove (s : State) (h : Nat) : State :=
  match s.obj? h with
  | none => s
  | some o => (o.written.flatMap granuleLines).foldl (fun (t : State) l =>
      (t.requestLine (.move h) h l false).requestMove (.move h) o h l) s

/-- A move takes the tier-1 room it needs and its copy begins, or it waits for the room (R249, R259). -/
def State.beginMove (s : State) (h : Nat) (m : Move) : State :=
  match s.obj? h with
  | none => s
  | some o =>
    let p := handlePart h
    match s.makeRoom p (moveBytes o m.cls) (s.extentCount p) with
    | (t, .made) => (t.modObj h (fun q => { q with move := some { m with room := true } })).startMove h
    | (t, _) => t.modObj h (fun q => { q with move := some { m with room := false } })

/-- A move of an object is staged (R248): a new salt, and the pair set of now. One of an object larger than the
headroom is not staged and is counted in NOROOM (R249). It takes the place of one staged before it.
DEDUCED: assumption 31. -/
def State.stageMove (s : State) (h cls : Nat) (pairs : List Nat) : State :=
  match s.obj? h with
  | none => s
  | some o =>
    if s.headroom (handlePart h) < o.size then s.fsat Reg.PLACE_IMBAL_STAT_NOROOM [] 1
    else
      let (d, s1) := s.draw
      (s1.dropReqs (.move h)).beginMove h ⟨cls, d, pairs, false, false⟩

/-- The fills of a partition that wait for tier-1 room: those a read demands, then prefetches, oldest first (R255). -/
def State.waitingFills (s : State) (p : Nat) : List Fill :=
  let l := s.fills.filter (fun f => f.waiting && decide (handlePart f.handle = p))
  l.filter (fun f => f.demand) ++ l.filter (fun f => !f.demand)

/-- The objects of a partition whose staged move waits for tier-1 room. -/
def State.waitingMoves (s : State) (p : Nat) : List (Nat × Obj) :=
  (s.objsOf p).filter (fun e => match e.2.move with
    | some m => !m.room
    | none => false)

/-- FILL_ROOM_RETRY: the fills and moves of a partition that wait for tier-1 room are tried again, in order (R259). -/
def execFillRoomRetry (p : Nat) (s : State) : Outcome :=
  let s1 := (s.waitingFills p).foldl (fun (t : State) f => t.retryFill f) s
  .next ((s1.waitingMoves p).foldl (fun (t : State) e => match e.2.move with
    | some m => t.beginMove e.1 m
    | none => t) s1)

/-- MOVE_COPY_DONE: the copy of a staged move finishes, its requests answered, which needs a move rate above 0, and the
device flag of the partition is raised (R46, R248).
DEDUCED: assumption 31. -/
def execMoveCopyDone (h : Nat) (s : State) : Outcome :=
  .next (match s.obj? h with
    | none => s
    | some o =>
      match o.move with
      | none => s
      | some m =>
        if m.copied || !m.room || s.fget Reg.PLACE_MOVE_CTRL_MOVE_RATE [] == 0 || !s.reqsAnswered (.move h) then s
        else ((s.dropReqs (.move h)).modObj h (fun q => { q with move := some { m with copied := true } })).raiseDev (handlePart h))

/-- OLD_LAYOUT_FREE: the old layout of a moved object is freed once every request issued under it has completed
(R248).
DEDUCED: assumption 31. -/
def execOldLayoutFree (h : Nat) (s : State) : Outcome :=
  .next (match s.obj? h with
    | none => s
    | some o =>
      match o.old with
      | none => s
      | some v =>
        if s.reqs.any (fun r => decide (r.handle = h) && decide (r.id < v.2.2)) then s
        else s.modObj h (fun q => { q with old := none }))

/-! ### Imbalance (R250) -/

/-- The table of an attribution window, largest count first, ties in table order. -/
def byCount : List (Nat × Nat) → List (Nat × Nat)
  | [] => []
  | e :: r => insertCount e (byCount r)
where
  /-- An entry put before the first entry of a smaller count, or of its own. -/
  insertCount (e : Nat × Nat) : List (Nat × Nat) → List (Nat × Nat)
    | [] => [e]
    | y :: q => if y.2 ≤ e.2 then e :: y :: q else y :: insertCount e q

/-- Granules of an object in tier 1 or in tier 2. -/
def granulesIn (o : Obj) (tier1 : Bool) : Nat :=
  if tier1 then (if pinnedClass o.cls then o.granules else (o.extents.map (fun e => e.2.present.length)).sum)
  else if pinnedClass o.cls then 0 else o.granules

/-- The channels of a partition's objects, all or those carved to it (R246, R342). -/
def State.channelCount (s : State) (p : Nat) : Nat :=
  if s.carvedGroups p = 0 then 512 else (channelsOf (s.carvedGroups p)).length

/-- The re-salts of an attribution window's end (R250), over the pairs not DEAD now (R246): of the first `k` objects of the
table, those skipped among them; an object whose move is staged already is skipped.
DESIGN CHOICE: assumption 31. -/
def State.attribute (s : State) (i : Imbal) (tier1 : Bool) (k : Nat) : State :=
  ((byCount i.table).take k).foldl (fun (t : State) e =>
    match t.obj? e.1 with
    | none => t
    | some o =>
      if 16 * e.2 < i.total ∨ o.move.isSome then t
      else if granulesIn o tier1 < (if tier1 then t.channelCount (handlePart e.1) else 24) then
        t.fsat Reg.PLACE_IMBAL_STAT_NARROW [] 1
      else t.stageMove e.1 o.cls t.livePairs) s

/-- The channels the procedure of R250 compares a channel with: the carved channels of the partition that holds it in
carve mode (R342), else all. -/
def State.peersOf (s : State) (c : Nat) : List Nat :=
  match partIds.find? (fun p => bitAt (c / 8) (s.carvedGroups p)) with
  | some p => channelsOf (s.carvedGroups p)
  | none => List.range 512

/-- Whether a channel or tray was hot in the window that ends (R250). -/
def State.wasHot (s : State) (loads : KV Nat) (peers : List Nat) (c : Nat) : Bool :=
  let ratio := max 17 (s.fget Reg.PLACE_IMBAL_CTRL_RATIO [])
  let total := (peers.map (kvGet 0 loads)).sum
  decide (2 ^ s.fget Reg.PLACE_IMBAL_CTRL_MINLOAD_LOG2 [] ≤ total) &&
  decide (ratio * total < 16 * peers.length * kvGet 0 loads c)

/-- The runs after a window over channels (512) or trays (24) whose HOT_RUN is `run` and REQUESTS is `req` (R250). -/
def State.runWindow (s : State) (n : Nat) (tier1 : Bool) (loads : KV Nat) (run req : RField) : State :=
  (List.range n).foldl (fun (t : State) c =>
    let hot := s.wasHot loads (if tier1 then s.peersOf c else List.range n) c
    ((t.fset run [c] (if hot then satAdd run.top (t.fget run [c]) 1 else 0)).fset req [c]
      (min req.top (kvGet 0 loads c)))) s

/-- The channels or trays whose run reached HOLD (R250). -/
def State.holders (s : State) (n : Nat) (run : RField) : List Nat :=
  (List.range n).filter (fun c => decide (max 1 (s.fget Reg.PLACE_IMBAL_CTRL_HOLD []) ≤ s.fget run [c]))

/-- One side of the imbalance procedure at the end of a window: attribution that was running ends, and a trigger
starts a new one. The new attribution is returned with the state. -/
def State.imbalEnd (s : State) (n : Nat) (tier1 : Bool) (loads : KV Nat) (i : Imbal) (run req : RField) :
    State × Imbal :=
  let k := s.fget Reg.PLACE_IMBAL_CTRL_MAXMOVE []
  let s1 := s.runWindow n tier1 loads run req
  let s2 := if i.hot.isEmpty then s1 else
    (List.range n).foldl (fun (t : State) c => t.fset run [c] 0) (s1.attribute i tier1 k)
  let hot := s2.holders n run
  if s2.fget Reg.PLACE_IMBAL_CTRL_ENABLE [] = 1 ∧ hot ≠ [] then
    (s2.fsat Reg.PLACE_IMBAL_STAT_TRIGGERS [] 1, ⟨hot, 0, []⟩)
  else (s2, ⟨[], 0, []⟩)

/-- The length of an imbalance window: WIN_LOG2 outside 20 to 40 is taken as the nearer bound (R250, R270). -/
def State.windowCycles (s : State) : Nat := 2 ^ max 20 (min 40 (s.fget Reg.PLACE_IMBAL_CTRL_WIN_LOG2 []))

/-- IMBAL_WINDOW_END: an imbalance window of 2^WIN_LOG2 cycles has ended, for the 512 channels and the 24 trays (R250).
DESIGN CHOICE: assumption 3. -/
def execImbalWindowEnd (s : State) : Outcome :=
  let (s1, ic) := s.imbalEnd 512 true s.chanLoad s.imbC Reg.PLACE_CHAN_LOAD_HOT_RUN Reg.PLACE_CHAN_LOAD_REQUESTS
  let (s2, it) := s1.imbalEnd 24 false s.trayLoad s.imbT Reg.PLACE_TRAY_LOAD_HOT_RUN Reg.PLACE_TRAY_LOAD_REQUESTS
  let hotNow := ((List.range 512).filter (fun c => s.wasHot s.chanLoad (s.peersOf c) c)).length
  .next (if s.now < s.winStart + s.windowCycles then s
    else { s2.fset Reg.PLACE_IMBAL_STAT_HOT_CHANS [] hotNow with
      chanLoad := [], trayLoad := [], imbC := ic, imbT := it, winStart := s.now })

/-! ### Scrub (R268) -/

/-- SCRUB_PATROL: the HBM NMEs read and correct every line of tier 1 (R268); `corrected` errors are corrected, and what
is found is uncorrectable. Such a line of the state that the contexts of a partition share resets the partition with trigger
code 2 (R375, R493), and one of both copies of a registry or placement-map line is device fault with cause 2 (R501). A PERIOD_H of 0 stops the patrol. -/
def execScrubPatrol (corrected : Nat) (found : ScrubFinds) (s : State) : Outcome :=
  .next (if s.fget Reg.NME_SCRUB_CTRL_PERIOD_H [] = 0 then s
    else
      let s1 := found.lines.foldl (fun (t : State) b => t.tier1Error b.1 b.2) (s.fsat Reg.NME_ECC_CORRECTED [] corrected)
      let s2 := found.shared.foldl (fun (t : State) p => t.triggerReset p 2) s1
      if found.maps && !s2.devFault then s2.enterDeviceFault 2 0 else s2)

end Sys2Proof.Machine
end

