-- ==== Sys2Proof/Machine/Nme.lean ====
section
/-!
DEFINITION. The near-memory operations (R265 to R267) and PUBLISH (R284, R285).
-/
namespace Sys2Proof.Machine

/-- Whether an operation uses an object, and whether it writes it (R243, R244). -/
def NmeArg.uses (a : NmeArg) (h : Nat) (wr : Bool) : Bool :=
  a.ranges.any (fun r => decide (r.1 = h) && (!wr || r.2.2.2))

/-- Whether everything an operation waits for has been answered (R265, R282, R291). -/
def State.opReady (s : State) (id : Nat) (a : NmeArg) : Bool :=
  s.reqsAnswered (.nme id) &&
  a.ranges.all (fun r => (blocksOf 64 r.2.1 r.2.2.1).all (fun l => s.lineReady (.nme id) r.1 l r.2.2.2))

/-- The failures of a range of an operation: distance from its start in bytes, and final status (R263, R264). -/
def State.rangeFails (s : State) (ow : ReqOwner) (r : Nat × Nat × Nat × Bool) : List (Nat × Nat) :=
  match s.obj? r.1 with
  | none => []
  | some o =>
    (blocksOf 64 r.2.1 r.2.2.1).filterMap (fun l =>
      let sent := s.sentLine ow r.1 l
      (worst (s.lineFinals ow r.1 l ++ [if r.2.2.2 then s.writeStatus o r.1 l (coversLine [(r.2.1, r.2.2.1)] l) sent
        else s.readStatus o r.1 l sent])).map (fun st => (64 * l - r.2.1, st)))

/-- The first of some failures: smallest distance, and of those the status R10 reports. -/
def firstFailure (l : List (Nat × Nat)) : Option (Nat × Nat) :=
  l.foldl (fun (a : Option (Nat × Nat)) f => match a with
    | none => some f
    | some g => if f.1 < g.1 then some f else if f.1 = g.1 then some (g.1, stFirst f.2 g.2) else some g) none

/-- The teardowns that a failure at distance `d` of the ranges starts (R294, R515). -/
def State.nmeTeardown (s : State) (part job d st : Nat) (died : Bool) (rs : List (Nat × Nat × Nat × Bool)) : State :=
  rs.foldl (fun (t : State) r => t.teardownFor part job r.1 [(r.2.1 + d) / 64] r.2.2.2 (!r.2.2.2) died st) s

/-- NME_OPERATION_END: an operation ends, whole, or at the first of its bytes that fails finally (R265); `fail` gives
the bytes done and the status of a failure that no mark of the state shows. PUBLISH compares and writes at the word's
home, once its requests are answered (R284). Bytes are done in ascending order.
DESIGN CHOICE: assumptions 12 and 27. -/
def execNmeOperationEnd (id : Nat) (fail : Option (Nat × Nat)) (s : State) : Outcome :=
  .next (match s.nmes.find? (fun n => decide (n.id = id)) with
    | none => s
    | some n =>
      let ow := ReqOwner.nme id
      let job := s.fget Reg.CTX_QP_C_JOB [n.qp]
      if !s.opReady id n.arg then s
      else
        let fin := fun (t : State) (st r0 r1 : Nat) =>
          let t1 := { t.dropReqs ow with nmes := t.nmes.filter (fun m => decide (m.id ≠ id)) }
          t1.modQp n.qp (fun q => { q with service := q.service.map (fun v =>
            if v.2 = .nme id then (v.1, .done st r0 r1) else v) })
        match n.arg with
        | .publish h off e new =>
          let st := match s.obj? h with
            | some o => if n.found.isSome then none
                else worst (s.reqFinals ow ++ [s.readStatus o h (off / 64) (s.sentLine ow h (off / 64))])
            | none => none
          (match st with
           | some f => fin ((s.fsat Reg.PLACE_EVT_FINAL [n.part] 1).teardownFor n.part job h [off / 64] true true (s.stackDied ow) f)
               f 0 0
           | none =>
             let (t, old) := match n.found with
               | some w => (s, w)
               | none => s.doPublish h off e new
             let t1 := if old = e then (match s.obj? h with
               | some o => if o.decl = 0 then t else t.forward n.part (.publish o.decl off e new)
               | none => t) else t
             fin t1 (if old = e then stOk else stConflict) old 0)
        | a =>
          let marks := a.ranges.flatMap (s.rangeFails ow)
          let given := match fail with
            | some f => if f.1 < a.len ∧ (f.2 = stPoison ∨ f.2 = stTierFail) then [f] else []
            | none => []
          (match firstFailure (marks ++ given) with
           | some f =>
             let r := s.nmeEffect a f.1
             let t := r.1.nmeTeardown n.part job f.1 f.2 (s.stackDied ow) a.ranges
             fin (t.fsat Reg.PLACE_EVT_FINAL [n.part] 1) f.2 r.2.1 r.2.2
           | none =>
             let r := s.nmeEffect a a.len
             fin r.1 stOk r.2.1 r.2.2))

end Sys2Proof.Machine
end

