-- ==== Sys2Proof/Machine/Slots.lean ====
section
/-!
DEFINITION. Room for a context on a Moon (R53, R54, R342, R343, R361), the parked image (R357), and the starting of a
run (R353).
-/
namespace Sys2Proof.Machine

/-- The scratch banks of 128 KiB a window takes (R52, R361). -/
def banksNeeded (winBytes : Nat) : Nat := ceilDiv winBytes (128 * 1024)

/-- How many bits of a number below 64 are set. -/
def popCount (n : Nat) : Nat := ((List.range 64).filter (fun i => bitAt i n)).length

/-- The scratch banks carved to a partition (R341). -/
def State.carvedBanks (s : State) (p : Nat) : Nat := popCount (s.fget Reg.SCHED_CARVE_SP_BANKS [p])

/-- Whether a partition is in carve mode (R341).
DEDUCED: assumption 33. -/
def State.carved (s : State) (p : Nat) : Bool := decide (s.carvedGroups p ≠ 0)

/-- The scratch banks of a Moon that windows of a partition may take (R342). -/
def State.banksOf (s : State) (p : Nat) : Nat :=
  if s.carved p then s.carvedBanks p
  else 32 - ((partIds.filter (fun q => s.carved q)).map (fun q => s.carvedBanks q)).sum

/-- Whether a context holds its slot: it is resident or being resumed. -/
def Ctx.holdsSlot (x : Ctx) : Bool := decide (x.phase = .resident) || decide (x.phase = .resuming)

/-- Whether a context takes room from one that is to be placed (R361), with STAY or without: one being parked has given its
slot up to a context whose resume copy waits for it, but not to one with STAY, which takes a free slot at once (R44,
R60). -/
def Ctx.inWay (stay : Bool) (y : Ctx) : Bool := if stay then y.slot.isSome else y.holdsSlot

/-- The contexts that take room of a Moon from a context that is to be placed. -/
def State.onMoon (s : State) (stay : Bool) (m : Nat) : List Ctx :=
  (s.ctxs.filter (fun e => e.2.inWay stay && (match e.2.slot with
    | some sl => decide (sl / 8 = m)
    | none => false))).map (fun e => e.2)

/-- Scratch banks of a Moon that the window of a context of a partition may still take. -/
def State.freeBanks (s : State) (p : Nat) (stay : Bool) (m : Nat) : Nat :=
  s.banksOf p - (((s.onMoon stay m).filter (fun y =>
    if s.carved p then decide (y.part = p) else !s.carved y.part)).map (fun y => banksNeeded y.winBytes)).sum

/-- The lowest slot of a Moon that is free for a context (R16). -/
def State.freeSlot (s : State) (stay : Bool) (m : Nat) : Option Nat :=
  (span (8 * m) (8 * m + 8)).find? (fun sl => s.ctxs.all (fun e =>
    !e.2.inWay stay || decide (e.2.slot ≠ some sl)))

/-- Whether a Moon can hold a context: a free strand, free banks, and free table units, accumulators and walkers for
its grants (R361). -/
def State.canHold (s : State) (x : Ctx) (m : Nat) : Bool :=
  let on := s.onMoon x.stay m
  s.moonInService m && (s.freeSlot x.stay m).isSome && decide (banksNeeded x.winBytes ≤ s.freeBanks x.part x.stay m) &&
  decide ((on.map (fun y => y.tunits)).sum + x.tunits ≤ 1024) &&
  decide ((on.map (fun y => y.xa.length)).sum + x.xa.length ≤ 64) &&
  decide ((on.map (fun y => y.walkers.length)).sum + x.walkers.length ≤ 16)

/-- The parked image of a context in bytes (R357). -/
def imageBytes (winBytes tunits walkers : Nat) : Nat := 24 * 1024 + winBytes + 256 * tunits + 96 * 1024 * walkers

/-- A run starts at the entry PC with STATE and ARG0 to ARG4 in s0 to s5 (R353); everything else keeps its value. -/
def Ctx.startRun (x : Ctx) (d : List Byte) : Ctx :=
  let arg := fun i => BitVec.ofNat 64 (field d (16 + 8 * i) 8)
  { ((((((x.setS 0 (arg 0)).setS 1 (arg 1)).setS 2 (arg 2)).setS 3 (arg 3)).setS 4 (arg 4)).setS 5 (arg 5)) with
    running := true
    pc := x.entry
    wait := .none }

/-- Whether the run of a context in the RUN in service on its queue pair has not ended (R361). -/
def State.runOpen (s : State) (c : Nat) (x : Ctx) : Bool :=
  match (s.qp x.qp).service with
  | some (_, .run opn _ _) => opn.contains c
  | _ => false

/-- A parked context that is runnable (R361). -/
def State.runnable (s : State) (c : Nat) (x : Ctx) : Bool := decide (x.phase = .parked) && s.runOpen c x

/-! ### Engine virtual time (R337) -/

/-- The engine virtual time of an account. -/
def State.engineTime (s : State) (p a : Nat) : Nat := kvGet 0 s.ev (64 * p + a)

/-- The contexts of a partition charged to an account. -/
def State.ofAcct (s : State) (p a : Nat) : List (Nat × Ctx) :=
  s.ctxs.filter (fun e => decide (e.2.part = p) && decide (s.acctOf p e.2.tenant = a))

/-- The accounts of a partition with a resident context. -/
def State.residentAccts (s : State) (p : Nat) : List Nat :=
  ((s.ctxs.filter (fun e => decide (e.2.part = p) && decide (e.2.phase = .resident))).map
    (fun e => s.acctOf p e.2.tenant)).eraseDups

/-- An account with no resident context, and none runnable but those of queue pair `q`, gains a runnable one (R337). -/
def State.wakeAcct (s : State) (p q a : Nat) : State :=
  if (s.ofAcct p a).any (fun e => decide (e.2.phase = .resident) || (decide (e.2.qp ≠ q) && s.runnable e.1 e.2)) then s
  else
    let others := (s.residentAccts p).map (s.engineTime p)
    match others with
    | [] => s
    | t :: r => { s with ev := kvPut 0 s.ev (64 * p + a) (max (s.engineTime p a) (r.foldl min t)) }

/-- A member that is resident starts its run in the RUN in service, where it has not begun it (R353): one that is
parked starts when it is resident, and one whose partition is held at release (R359). An event of R39 while the enrolled
contexts were idle forms no boundary once one of them runs (R36). -/
def State.startMember (s : State) (c : Nat) : State :=
  match s.ctx? c with
  | none => s
  | some x =>
    match (s.qp x.qp).service with
    | some (d, .run opn _ _) =>
      if opn.contains c && decide (x.phase = .resident) && !x.running && !s.inSwap x.part then
        let t := s.setCtx c (x.startRun d)
        if x.enroll then t.modPart x.part (fun p => { p with idleEvent := false }) else t
      else s
    | _ => s

end Sys2Proof.Machine
end

