-- ==== Sys2Proof/Machine/Registry.lean ====
section
/-!
DEFINITION. The registration of an object (R237 to R242, R465), with the limits of R241 and the room it needs (R249, R259).
-/
namespace Sys2Proof.Machine

/-- The bytes that staged moves of a partition will bring to a pinned class, or to a class of tier 2 (R241, R248). -/
def State.stagedBytes (s : State) (p : Nat) (pinned : Bool) : Nat :=
  ((s.objsOf p).map (fun e => match e.2.move with
    | some m => if pinnedClass m.cls = pinned ∧ pinnedClass e.2.cls ≠ pinned then e.2.size else 0
    | none => 0)).sum

/-- Whether `n` more bytes keep to the pinned limit, and to the tier-2 limit, of a partition, staged moves counted (R241,
R249). -/
def State.pinnedRoom (s : State) (p n : Nat) : Bool :=
  decide (s.pinnedBytes p + s.stagedBytes p true + n ≤ s.carveBytes p - s.headroom p)
/-- The tier-2 limit. -/
def State.trayRoom (s : State) (p n : Nat) : Bool :=
  decide (s.tier2Bytes p + s.stagedBytes p false + n ≤ s.fget Reg.PART_CFG_A_TRAY_GIB [p] * gib)

/-- The lowest handle index of a partition that may be assigned: free, and not retired (R237). `k` bounds the
search. -/
def State.freeIndex (s : State) (p : Nat) : Nat → Nat → Option Nat
  | 0, _ => none
  | k + 1, i =>
    if 2 ^ 28 ≤ i then none
    else if (s.obj? (p * 2 ^ 28 + i)).isNone && decide (kvGet 0 (s.part p).hgens i ≤ 0xFFFF) then some i
    else s.freeIndex p k (i + 1)

/-- The object a registration record asks for (R237, R239, R246). -/
def Obj.registered (d : List Byte) (hgen keyGen salt : Nat) (pairs : List Nat) : Obj :=
  { hgen := hgen, size := field d 16 8, cls := field d 24 1, rd := bitAt 0 (field d 25 1), wr := bitAt 1 (field d 25 1),
    keyslot := field d 26 2, keyGen := keyGen, tenant := field d 28 4, decl := field d 32 4, salt := salt, pairs := pairs,
    data := [], written := [], poison := [], orphan := [], lost := [], validated := false, validating := false,
    releasing := false, extents := [], move := none, old := none }

/-- Whether a registration record keeps to its form and to the limits of R241, for a partition and the tenant of the queue
pair (R239, R240). -/
def State.mayRegister (s : State) (p tenant : Nat) (d : List Byte) : Bool :=
  let size := field d 16 8
  let cls := field d 24 1
  let rights := field d 25 1
  let slot := field d 26 2
  let ten := field d 28 4
  decide (1 ≤ size) && decide (size ≤ 2 ^ 48) && decide (cls ≤ 5) && decide (1 ≤ rights) && decide (rights ≤ 3) &&
  decide (slot < 2048) && (s.slotPart slot == some p) && decide (s.slotState slot = 1) &&
  decide (s.fget Reg.SEC_KS_A_TENANT [slot] = ten) && decide (ten = tenant) &&
  decide (s.objs.length < 4194304) && decide ((s.objsOf p).length < s.fget Reg.PART_CFG_A_OBJ_QUOTA [p]) &&
  (s.objOfDecl p (field d 32 4)).isNone && (if pinnedClass cls then s.pinnedRoom p size else s.trayRoom p size)

/-- REGISTER in service (R237 to R241): ACCESS outside its limits, BUSY where no room can be freed, and a wait while an
extent it evicts is written back (R259). -/
def State.registerObj (s : State) (p tenant : Nat) (d : List Byte) : State × Service :=
  if !s.mayRegister p tenant d then (s, .done stAccess 0 0)
  else
    match s.freeIndex p ((s.objsOf p).length + (s.part p).hgens.length + 1) 1 with
    | none => (s, .done stAccess 0 0)
    | some i =>
      let need := if pinnedClass (field d 24 1) then field d 16 8 else 0
      match s.makeRoom p need (s.extentCount p) with
      | (t, .wait) => (t, .done stBusy 0 0)
      | (t, .writing) => (t, .register)
      | (t, .made) =>
        let (salt, s2) := t.draw
        let h := p * 2 ^ 28 + i
        let hgen := kvGet 0 (s.part p).hgens i
        let o := Obj.registered d hgen (s.fget Reg.SEC_KS_A_GEN [field d 26 2]) salt s.livePairs
        ({ s2 with objs := kvSet s2.objs h o }, .done stOk (mkRef h hgen) 0)

end Sys2Proof.Machine
end

