-- ==== Sys2Proof/Machine/Queue.lean ====
section
/-!
DEFINITION. Queue pairs (R345 to R352): pushing a descriptor, starting the oldest one, and writing a completion entry;
with the progress of the descriptors that wait for work to end (R168, R243, R244, R253).
-/
namespace Sys2Proof.Machine

/-! ### Settings -/

/-- The partition of a queue pair (R345). -/
def State.qpPart (s : State) (q : Nat) : Nat := s.fget Reg.CTX_QP_A_PART [q]
/-- The tenant a queue pair acts for. -/
def State.qpTenant (s : State) (q : Nat) : Nat := s.fget Reg.CTX_QP_A_TENANT [q]
/-- The job of a queue pair's submitter. -/
def State.qpJob (s : State) (q : Nat) : Nat := s.fget Reg.CTX_QP_C_JOB [q]
/-- Whether a queue pair serves (R345). -/
def State.qpValid (s : State) (q : Nat) : Bool := decide (q < 8192) && s.fget Reg.CTX_QP_A_VALID [q] == 1
/-- The submission ring's size: SQ_LOG2 taken as 4 to 10 (R376). -/
def State.sqSize (s : State) (q : Nat) : Nat := 2 ^ max 4 (min 10 (s.fget Reg.CTX_QP_A_SQ_LOG2 [q]))
/-- The completion ring's size: CQ_LOG2 taken as 4 to 16 (R376). -/
def State.cqSize (s : State) (q : Nat) : Nat := 2 ^ max 4 (min 16 (s.fget Reg.CTX_QP_A_CQ_LOG2 [q]))
/-- Whether the completion ring lies in pilot host memory; never with a fabric doorbell (R376). -/
def State.cqHost (s : State) (q : Nat) : Bool :=
  s.fget Reg.CTX_QP_A_CQ_HOST [q] == 1 && s.fget Reg.CTX_QP_A_DB_FABRIC [q] == 0

/-- Whether the pilot host holds control privilege over a partition (R457). -/
def State.controls (s : State) (p : Nat) : Bool := bitAt p (s.fget Reg.PART_PRIV_CONTROL [])
/-- Whether the pilot host holds the management privilege. -/
def State.manages (s : State) : Bool := s.fget Reg.PART_PRIV_MANAGEMENT [] == 1
/-- Whether the pilot host holds the telemetry privilege. -/
def State.telemeters (s : State) : Bool := s.fget Reg.PART_PRIV_TELEMETRY [] == 1

/-! ### Pushing (R347, R348) -/

/-- A descriptor comes to the submission ring of a queue pair that serves: discarded where the ring is full. -/
def State.pushDesc (s : State) (q : Nat) (d : List Byte) : State :=
  if s.sqSize q ≤ (s.qp q).ring.length then
    (s.modQp q (fun x => { x with dropped := satAdd 0xFFFF x.dropped 1 })).appendPart
      (Rec.ofPart (s.qpPart q) stBusy clsQueue 1 0 q (s.qp q).ring.length s.now)
  else s.modQp q (fun x => { x with ring := x.ring ++ [d] })

/-- The eight doorbell words as they stand, with a last one. -/
def Qp.bellBytes (x : Qp) (d7 : Word) : List Byte :=
  ((List.range 7).flatMap (fun w => natBytes 8 (kvGet 0 x.bell w).toNat)) ++ natBytes 8 d7.toNat

/-- A write of word `w` of the doorbell slot of queue pair `q` (R347, R523): words 0 to 6 are kept, and word 7 pushes the
eight words as they stand. -/
def State.ringBell (s : State) (q w : Nat) (v : Word) : State :=
  let off := RegName.QPDB_D.addr [q, w]
  if s.fget Reg.CTX_QP_A_DB_FABRIC [q] = 1 ∨ s.controls (s.qpPart q) = false ∨ s.partValid (s.qpPart q) = false then
    s.refuseAccess off
  else
    let s1 := s.modQp q (fun x => { x with bell := kvPut 0 x.bell w v })
    if w ≠ 7 then s1
    else if !s1.qpValid q || s1.suppressed (s1.qpPart q) then s1.refuseAccess off
    else s1.pushDesc q ((s.qp q).bellBytes v)

/-! ### Starting (R349, R351, R352) -/

/-- Whether the partition of a queue pair starts descriptors now: its record is valid, it is not fenced, held or about
to be reset (R485, R494, R521). -/
def State.serving (s : State) (p : Nat) : Bool :=
  s.partValid p && !(s.part p).fenced && !(s.part p).held && (s.part p).resetDue.isNone

/-- The oldest descriptor of a ring that may start now, and the state with it taken; a leader forwards it (R522). -/
def State.takeDesc (s : State) (q : Nat) : Option (List Byte × State) :=
  if s.qpValid q && s.serving (s.qpPart q) && (s.qp q).service.isNone then
    match (s.qp q).ring with
    | d :: r =>
      some (d, (s.modQp q (fun x => { x with ring := r, taken := x.taken + 1 })).forward (s.qpPart q) (.descriptor q d))
    | [] => none
  else none

/-- Whether every byte of the descriptor outside the header fields and the used operand ranges is zero (R351). -/
def descClean (d : List Byte) (used : List (Nat × Nat)) : Bool :=
  decide (field d 1 3 = 0) &&
  (span 16 64).all (fun i => used.any (fun u => decide (u.1 ≤ i) && decide (i < u.1 + u.2)) || decide (field d i 1 = 0))

/-- The state with the descriptor in service of a queue pair. -/
def State.setService (s : State) (q : Nat) (d : List Byte) (v : Service) : State :=
  s.modQp q (fun x => { x with service := some (d, v) })

/-- Whether a registry command of a partition is in service and not yet performed (R240). -/
def State.registryBusy (s : State) (p : Nat) : Bool :=
  s.qps.any (fun e => decide (s.qpPart e.1 = p) && (match e.2.service with
    | some (_, .validate _) => true
    | some (_, .release _) => true
    | some (_, .steep _ _ _) => true
    | some (_, .register) => true
    | _ => false))

/-- Starts the oldest descriptor where its OP is `op`, a registry command (OP 0x08 to 0x0D) only once those of its partition
that started before it have been performed (R240): ACCESS for a reserved byte or a missing privilege, MAP_STALE for
a GEN that is not current (R10, R351, R352), else what `body` makes of it.
DEDUCED: assumption 33. -/
def State.serve (s : State) (q op : Nat) (priv : Option Nat) (used : List (Nat × Nat))
    (body : List Byte → State → State × Service) : State :=
  match s.takeDesc q with
  | none => s
  | some (d, s1) =>
    if field d 0 1 ≠ op then s
    else if decide (8 ≤ op) && decide (op ≤ 13) && s.registryBusy (s.qpPart q) then s
    else
      let may := match priv with
        | some b => bitAt b (s.fget Reg.CTX_QP_A_PRIV [q])
        | none => true
      let gen := field d 4 4
      if !(descClean d used && may) then s1.setService q d (.done stAccess 0 0)
      else if gen ≠ 0 ∧ gen ≠ (s.part (s.qpPart q)).routeCur.gen then s1.setService q d (.done stMapStale 0 0)
      else
        let r := body d s1
        r.1.setService q d r.2

/-- The operation codes of R352. -/
def descOps : List Nat :=
  [0x01, 0x02, 0x03, 0x08, 0x09, 0x0A, 0x0B, 0x0C, 0x0D, 0x10, 0x11, 0x12, 0x13, 0x18, 0x20, 0x28, 0x29, 0x2A, 0x2B]

/-- A descriptor whose OP is not in the table starts and completes with ACCESS (R351). -/
def State.startUnknown (s : State) (q : Nat) : State :=
  match s.takeDesc q with
  | some (d, s1) => if descOps.contains (field d 0 1) then s else s1.setService q d (.done stAccess 0 0)
  | none => s

/-! ### Descriptors that wait -/

/-- Whether an instruction, comet or NME operation that passed a check for writing an object has not ended (R243). -/
def State.writers (s : State) (h : Nat) : Bool :=
  s.ctxs.any (fun e => (match e.2.outst with
    | some q => decide (q.handle = h) && q.write
    | none => false) || e.2.comets.any (fun q => decide (q.handle = h) && q.write)) ||
  s.nmes.any (fun n => n.arg.uses h true)

/-- Whether any work that passed a check on an object has not ended (R244). -/
def State.users (s : State) (h : Nat) : Bool :=
  s.ctxs.any (fun e => (match e.2.outst with
    | some q => decide (q.handle = h)
    | none => false) || e.2.comets.any (fun q => decide (q.handle = h))) ||
  s.nmes.any (fun n => n.arg.uses h false) || s.accs.any (fun a => decide (a.handle = h))

/-- Whether two byte ranges lie apart. -/
def apart (a n b m : Nat) : Bool := !overlap a n b m

/-- The bytes of the blocks of a segment (R162). -/
def segBytes (m : Memory) (g : Nat) : Nat := min 65536 (tBlocks m - 65536 * g) * blockBytes (sitRate m g) (sitRaw m g)

/-- The bytes of a tensor's block data: from DATA_OFF to the end of the last block of any segment.
DESIGN CHOICE: assumption 70. -/
def tDataBytes (m : Memory) : Nat :=
  (List.range (tSegs m)).foldl (fun a g =>
    max a (sitBase m g + segBytes m g - tDataOff m)) 0

/-- The five conditions of validation (R168). The blocks of a segment count as block data wherever they lie, and a codebook number
that R166 gives as 0 must be 0.
DESIGN CHOICE: assumption 70. -/
def tensorValid (size : Nat) (m : Memory) : Bool :=
  let nb := tBlocks m
  let ns := tSegs m
  let nc := tCbs m
  -- 1
  decide (64 ≤ size) && decide (memNat m 0 4 = 0x31545156) && decide (memNat m 4 2 = 1) && decide (memNat m 6 2 = 0) &&
  decide (memNat m 22 2 = 0) && decide (memNat m 56 8 = 0) &&
  -- 2
  decide (1 ≤ nb) && decide (nb ≤ 2 ^ 36) && decide (ns = ceilDiv nb 65536) && decide (nb * 256 - 255 ≤ tElems m) &&
  decide (tElems m ≤ nb * 256) && decide (nc ≤ 4096) &&
  -- 3
  decide (tDirOff m % 8 = 0) && decide (tSitOff m % 64 = 0) && decide (tDataOff m % 64 = 0) &&
  decide (tDirOff m + 8 * nc ≤ size) && decide (tSitOff m + 16 * ns ≤ size) &&
  decide (tDataOff m + tDataBytes m ≤ size) && apart (tDirOff m) (8 * nc) (tSitOff m) (16 * ns) &&
  apart (tDirOff m) (8 * nc) (tDataOff m) (tDataBytes m) && apart (tSitOff m) (16 * ns) (tDataOff m) (tDataBytes m) &&
  -- 4
  (List.range nc).all (fun n =>
    let e := tDir m n
    decide (bitsOf 63 48 e = 0) && decide (bitsOf 43 41 e = 0) && (bitsOf 47 44 e == 1 || bitsOf 47 44 e == 2) &&
    decide (bitsOf 39 0 e % 256 = 0) && decide (bitsOf 39 0 e + (if bitAt 40 e then 65536 else 4096) ≤ size)) &&
  -- 5
  (List.range ns).all (fun g =>
    let rate := sitRate m g
    let big := fun c => bitAt 40 (tDir m c)
    decide (rate < 4) && decide (sitBase m g % 64 = 0) &&
    (if rate = 0 then
      (sitRaw m g == 1 || sitRaw m g == 2 || sitRaw m g == 3 || sitRaw m g == 4) && decide (sitScale m g = 0) &&
      decide (sitCb0 m g = 0) && decide (sitCb1 m g = 0)
    else
      decide (sitRaw m g = 0) && !Fmt.isNan .fp32 (sitScale m g) && decide (bitsOf 30 23 (sitScale m g) ≠ 255) &&
      decide (sitCb0 m g < nc) && (big (sitCb0 m g) == decide (rate = 2)) &&
      (if rate = 3 then decide (sitCb1 m g < nc) && !big (sitCb1 m g) else decide (sitCb1 m g = 0))) &&
    decide (sitBase m g + segBytes m g ≤ size) && apart (tDirOff m) (8 * nc) (sitBase m g) (segBytes m g) &&
    apart (tSitOff m) (16 * ns) (sitBase m g) (segBytes m g))

/-- The final status of the reads that validating an image or checking a list makes, where they have one. -/
def State.scanStatus (s : State) (h : Nat) (rs : List (Nat × Nat)) : Option Nat :=
  match s.obj? h with
  | none => none
  | some o => worst ((linesOf (rs.filter (fun r => decide (r.1 + r.2 ≤ o.size)))).map (fun l => s.readStatus o h l false))

/-- The form of a steep list (R252, R253). -/
def steepValid (size : Nat) (m : Memory) : Bool :=
  let e := memNat m 8 4
  decide (memNat m 0 4 = 0x31505453) && decide (memNat m 4 2 = 1) && decide (1 ≤ memNat m 6 2) &&
  decide (memNat m 6 2 ≤ 16) && decide (1 ≤ e) && decide (e ≤ 65536) && decide (memNat m 12 1 ≤ 1) &&
  (span 13 64).all (fun i => decide (memGet m i = 0)) && decide (size = 64 + 32 * e) &&
  (List.range e).all (fun i =>
    let b := 64 + 32 * i
    decide (memNat m b 4 ≠ 0) && decide (memNat m (b + 4) 4 = 0) && decide (memNat m (b + 24) 1 ≤ 1) &&
    decide (memNat m (b + 25) 7 = 0))

/-- The writes and bindings of tenant views end on the objects of `gone` (R549): their captures are dropped, and ACTIVE reads
0. -/
def State.dropViews (s : State) (gone : Nat → Bool) : State :=
  let s1 : State := { s with
    views := kvMapV (fun _ v => { v with
      capture := v.capture.filter (fun c => !gone (refHandle c.1))
      writing := v.writing.filter (fun c => !gone (refHandle c.1)) }) s.views
    reqs := s.reqs.filter (fun r => match r.owner with
      | .view _ => !gone r.handle
      | _ => true) }
  (List.range 256).foldl (fun (t : State) k =>
    let ix := [k / 16, k % 16]
    if t.fget Reg.TELEM_VIEW_ACTIVE ix == 1 && gone (refHandle (t.fget Reg.TELEM_VIEW_REF ix * 2 ^ 16)) then
      t.fset Reg.TELEM_VIEW_ACTIVE ix 0 else t) s1

/-- An object leaves the registry (R237, R244, R368): its space is free, its handle generation advances, and its staged
move, steep bindings with their protections, fills, copies, ownership record, directory entries and combiner lines end. -/
def State.freeObject (s : State) (h : Nat) : State :=
  match s.obj? h with
  | none => s
  | some o =>
    let p := handlePart h
    let s0 := (kvKeys s.ctxs).foldl (fun (t : State) c => match t.ctx? c with
      | some x => if (x.steep.map (fun b => b.1)) = some h then t.bindSteep c none else t
      | none => t) s
    let s1 := s0.modPart p (fun x => { x with hgens := kvSet x.hgens (h % 2 ^ 28) (o.hgen + 1) })
    { s1.dropViews (fun x => decide (x = h)) with
      objs := kvDel s1.objs h
      mir := { s1.mir with rebuild := kvMapV (fun _ r => (r.1, r.2.filter (fun g => decide (g.1 ≠ h)))) s1.mir.rebuild }
      fills := s1.fills.filter (fun f => decide (f.handle ≠ h))
      reqs := s1.reqs.filter (fun r => match r.owner with
        | .view _ => decide (r.handle ≠ h)
        | .fill fh _ => decide (fh ≠ h)
        | .wb wh _ => decide (wh ≠ h)
        | .move mh => decide (mh ≠ h)
        | .rebuild _ rh _ => decide (rh ≠ h)
        | _ => true)
      own := s1.own.filter (fun r => decide (r.ref ≠ mkRef h o.hgen))
      dir := s1.dir.filter (fun d => decide (d.handle ≠ h))
      hot := s1.hot.filter (fun d => decide (d.handle ≠ h)) }

/-- The descriptor in service of a queue pair goes on where what it waits for has ended: REGISTER (R259), VALIDATE (R243,
R168), STEEP (R253), RELEASE (R244), and a close of a context that has gone (R360). A VALIDATE whose reads fail ends with their status.
DEDUCED: assumption 33. -/
def State.progress (s : State) (q : Nat) : State :=
  match (s.qp q).service with
  | some (d, .validate h) =>
    if s.writers h then s
    else
      let rs := match s.obj? h with
        | some o => [(0, 64), (tDirOff o.data, 8 * tCbs o.data), (tSitOff o.data, 16 * tSegs o.data)]
        | none => []
      let st := match s.scanStatus h rs with
        | some f => f
        | none => match s.obj? h with
          | some o => if tensorClass o.cls && tensorValid o.size o.data then stOk else stAccess
          | none => stAccess
      (s.modObj h (fun o => { o with
        validating := false
        validated := decide (st = stOk) })).setService q d (.done st 0 0)
  | some (d, .steep c h start) =>
    if s.writers h then s
    else
      let ok := match s.obj? h with
        | some o => steepValid o.size o.data && decide (start < memNat o.data 8 4)
        | none => false
      let rs := match s.obj? h with
        | some o => [(0, o.size)]
        | none => []
      let st := match s.scanStatus h rs with
        | some f => f
        | none => if ok && (s.ctx? c).isSome then stOk else stAccess
      if st = stOk then
        let s1 := s.bindSteep c (some (h, start))
        (match s1.ctx? c with
         | some x => (s1.prefetch x).setService q d (.done stOk 0 0)
         | none => s1.setService q d (.done stOk 0 0))
      else s.setService q d (.done st 0 0)
  | some (d, .register) =>
    let r := s.registerObj (s.qpPart q) (s.qpTenant q) d
    r.1.setService q d r.2
  | some (d, .release h) =>
    if s.users h then s else (s.freeObject h).setService q d (.done stOk 0 0)
  | some (d, .close c) => if (s.ctx? c).isNone then s.setService q d (.done stOk 0 0) else s
  | _ => s

/-! ### Completions (R346, R350) -/

/-- A completion entry (R350). -/
def completionEntry (tag status phase head r0 r1 : Nat) : List Byte :=
  natBytes 8 tag ++ natBytes 1 status ++ natBytes 1 phase ++ natBytes 2 head ++ natBytes 4 0 ++ natBytes 8 r0 ++
  natBytes 8 r1

/-- The object of a completion ring where it may be written (R350): registered under that reference, of the queue
pair's partition and tenant, with both rights, and holding the header and the entry. -/
def State.ringOk (s : State) (q top : Nat) : Bool :=
  let ref := s.fget Reg.CTX_QP_B_CQ_BASE [q]
  s.refOk ref (s.qpPart q) (s.qpTenant q) true true &&
  (match s.objOfRef ref with
   | some o => decide (top ≤ o.size)
   | none => false)

/-- COMPLETION_WRITE: the completion of the finished descriptor of a queue pair is written where its ring has a free
entry that can be reached (R349, R350). `hostCount` is the consumer count that a read of the ring header in pilot host
memory returns.
DEDUCED: assumption 33. -/
def execCompletionWrite (q hostCount : Nat) (s : State) : Outcome :=
  let s0 := (s.startUnknown q).progress q
  .next (match (s0.qp q).service with
    | some (d, .done st r0 r1) =>
      let p := s0.qpPart q
      let x := s0.qp q
      let size := s0.cqSize q
      let n := x.written
      let off := 64 + 32 * (n % size)
      let ref := s0.fget Reg.CTX_QP_B_CQ_BASE [q]
      let h := refHandle ref
      let host := s0.cqHost q
      if !host && !s0.ringOk q (off + 32) then
        if x.reported then s0
        else (s0.modQp q (fun y => { y with reported := true })).appendPart
          (Rec.ofPart p stAccess clsQueue 2 0 q ref s0.now)
      else
        let seen := if x.consumed + size ≤ n then
            (if host then hostCount else s0.wordAt h 0)
          else x.consumed
        let s1 := s0.modQp q (fun y => { y with consumed := seen })
        if seen + size ≤ n then s1
        else if !host && (blocksOf 64 off 32).any (fun l => s1.snooping h l || (match s1.dirEntry h l with
            | some e => e.conflicts true
            | none => false)) then
          (blocksOf 64 off 32).foldl (fun (t : State) l => t.snoopLine h l true none) s1
        else
          let e := completionEntry (field d 8 8) st (n / size % 2) (x.taken % 2 ^ 16) r0 r1
          let s2 := if host then
              (if s1.suppressed p then s1 else s1.emit (.hostWrite (ref + off) e))
            else s1.storeObj h off e
          let s3 := s2.digestAdd p [5, q, field d 8 8, st, r0, r1]
          s3.modQp q (fun y => { y with service := none, written := y.written + 1, reported := false })
    | _ => s0)

end Sys2Proof.Machine
end

