-- ==== Sys2Proof/Machine/Desc.lean ====
section
/-!
DEFINITION. The descriptor operations (R352): RUN, contexts, the registry, the near-memory operations, PUBLISH,
MAP_STAGE and the ownership table. Each command names a queue pair and starts its oldest descriptor.
-/
namespace Sys2Proof.Machine

/-- The outcome of a descriptor that has ended: status and results. -/
def fin (s : State) (st r0 r1 : Nat) : State × Service := (s, .done st r0 r1)

/-! ### RUN (R353) -/

/-- The ownership record of an object reference (R368). -/
def State.ownRec (s : State) (ref : Nat) : Option OwnRec := s.own.find? (fun r => decide (r.ref = ref))

/-- The state with an ownership record changed. -/
def State.modOwn (s : State) (ref : Nat) (f : OwnRec → OwnRec) : State :=
  { s with own := s.own.map (fun r => if r.ref = ref then f r else r) }

/-- The members of a RUN that has just started (R353): those resident begin their runs; a parked one becomes runnable,
which is an event of R39. -/
def State.beginRun (s : State) (q : Nat) : State :=
  match (s.qp q).service with
  | some (_, .run opn _ _) =>
    let wake := ((opn.filterMap (fun c => s.ctx? c)).map (fun x => s.acctOf x.part x.tenant)).eraseDups
    let t := opn.foldl (fun (u : State) c => u.startMember c) (wake.foldl (fun (u : State) a => u.wakeAcct (s.qpPart q) q a) s)
    if opn.any (fun c => match t.ctx? c with
      | some x => decide (x.phase = .parked)
      | none => false) then t.idleEvent (t.qpPart q) else t
  | _ => s

/-- RUN (R353, R361, R372). -/
def execRun (q : Nat) (s : State) : Outcome :=
  let t := s.serve q 0x01 none [(16, 48)] (fun d s =>
    let g := s.group q
    let ref := field d 16 8
    if g.isEmpty then fin s stAccess 0 0
    else
      let pass := decide (ref = 0) || (match s.ownRec ref with
        | some r => decide (r.owner = s.qpJob q)
        | none => true)
      if !pass then fin s stNotOwner 0 0
      else
        let s1 := if ref = 0 then s else s.modOwn ref (fun r => { r with orphan := false })
        (s1, .run g [] false))
  .next (if (s.qp q).service.isNone then t.beginRun q else t)

/-! ### Contexts (R355 to R360) -/

/-- The operands of CTX_OPEN that are in range whatever the state (R356, R357). -/
def openFieldsOk (d : List Byte) : Bool :=
  let win := field d 40 4
  decide (field d 24 8 % 16 = 0) && decide (field d 32 4 ≠ 0) && decide (field d 38 1 ≤ 5) &&
  decide (field d 39 1 ≤ 3) && decide (win % 4 = 0) && decide (4 ≤ win) && decide (win ≤ 4096) &&
  decide (field d 44 2 ≤ 1024) && decide (field d 46 1 ≤ 64) && decide (field d 47 1 ≤ 16) &&
  decide (field d 48 2 ≤ 256) &&
  (bitAt 1 (field d 39 1) || decide (imageBytes (win * 1024) (field d 44 2) (field d 47 1) ≤ 2 ^ 20))

/-- The lowest free context number (R355). -/
def State.freeCtx (s : State) : Option Nat := (List.range 4096).find? (fun c => (s.ctx? c).isNone)

/-- A context as CTX_OPEN opens it: parked, every register, counter and grant clear (R354, R358, R475). -/
def Ctx.opened (d : List Byte) (part gen tenant tag : Nat) : Ctx :=
  { part := part, gen := gen, tenant := tenant, job := field d 32 4, qp := field d 36 2, cls := field d 38 1,
    enroll := bitAt 0 (field d 39 1), stay := bitAt 1 (field d 39 1), prog := field d 16 8, entry := field d 24 8,
    phase := .parked, closing := false, slot := none, running := false, residentOrbits := 0, pc := field d 24 8,
    s := Vector.replicate 32 0, v := Vector.replicate 32 0, p := Vector.replicate 8 0,
    st := Vector.replicate 16 ⟨0, 0, 0, 0⟩, chain := none, ac := Vector.replicate 256 0,
    winBytes := field d 40 4 * 1024, scratch := [], tunits := field d 44 2, tables := [],
    xa := List.replicate (field d 46 1) XAcc.clear, walkers := List.replicate (field d 47 1) ⟨0, 0, [], [], []⟩,
    ringSlots := field d 48 2, ring := [], seqs := [], outst := none, comets := [], wait := .none, issued := false,
    atOrbit := none, held := false, code := none, arrived := [], steep := none, cycles := List.replicate 9 0, abortPending := false,
    fenceAll := [], fenceStores := [], used := OrbitUse.none, tag := tag }

/-- CTX_OPEN (R355 to R358, R343). -/
def execCtxOpen (q : Nat) (s : State) : Outcome :=
  .next (s.serve q 0x02 (some 1) [(16, 34)] (fun d s =>
    let p := s.qpPart q
    let ten := s.qpTenant q
    let job := field d 32 4
    let k := field d 36 2
    let win := field d 40 4 * 1024
    let prog := field d 16 8
    let g := s.group k
    let inProg := match s.objOfRef prog with
      | some o => decide (field d 24 8 + 16 ≤ o.size)
      | none => false
    let sameJob := g.all (fun c => match s.ctx? c with
      | some x => decide (x.job = job)
      | none => true)
    let ringFits := s.pinnedRoom p (field d 48 2 * 4096) || decide (field d 48 2 = 0)
    if !(openFieldsOk d && s.refOk prog p ten true false && inProg && decide (s.qpPart k = p) && s.qpValid k &&
        decide (g.length < 512) && sameJob && ringFits &&
        decide ((s.ctxsOf p).length < s.fget Reg.CTX_PART_CFG_CTX_QUOTA [p]) &&
        (!s.carved p || decide (banksNeeded win ≤ s.carvedBanks p))) then fin s stAccess 0 0
    else
      match s.freeCtx with
      | none => fin s stCtxLimit 0 0
      | some c =>
        if s.carved p && (List.range 64).all (fun m => !s.moonInService m || decide (s.freeBanks p false m < banksNeeded win))
        then fin s stBusy 0 0
        else
          let g0 := kvGet 0 s.ctxGens c
          let gen := if g0 = 65535 then 1 else g0 + 1
          let (tag, s1) := s.drawTag
          let x := Ctx.opened d p gen ten tag
          fin { s1.setCtx c x with ctxGens := kvSet s1.ctxGens c gen } stOk (x.ref c)
            (imageBytes win (field d 44 2) (field d 47 1))))

/-- CTX_CLOSE (R360, R363). -/
def execCtxClose (q : Nat) (s : State) : Outcome :=
  .next (s.serve q 0x03 (some 1) [(16, 5)] (fun d s =>
    match s.ctxOfRef (field d 16 4) with
    | none => fin s stAccess 0 0
    | some c =>
      match s.ctx? c with
      | none => fin s stAccess 0 0
      | some x =>
        if !(decide (x.part = s.qpPart q) && decide (x.tenant = s.qpTenant q) && decide (field d 20 1 ≤ 1)) then
          fin s stAccess 0 0
        else if x.phase = .parked ∨ (field d 20 1 = 0 ∧ s.runOpen c x = false) then
          fin ((s.endRun c x.qp none).removeCtx c) stOk 0 0
        else if field d 20 1 = 1 then (s.modCtx c (fun y => { y with abortPending := true }), .close c)
        else (s.modCtx c (fun y => { y with closing := true }), .close c)))

/-! ### The registry (R237 to R244) -/

/-- The object of a reference for a queue pair's partition and tenant (R240). -/
def State.qpObj (s : State) (q ref : Nat) : Option Obj :=
  if s.refOk ref (s.qpPart q) (s.qpTenant q) false false then s.objOfRef ref else none

/-- REGISTER (R237 to R241, R259, R465). -/
def execRegister (q : Nat) (s : State) : Outcome :=
  .next (s.serve q 0x08 (some 0) [(16, 20)] (fun d s => s.registerObj (s.qpPart q) (s.qpTenant q) d))

/-- VALIDATE: the write right is withdrawn at once; the rest waits for the object's writers (R168, R243). -/
def execValidate (q : Nat) (s : State) : Outcome :=
  .next (s.serve q 0x09 (some 0) [(16, 8)] (fun d s =>
    match s.qpObj q (field d 16 8) with
    | none => fin s stAccess 0 0
    | some _ =>
      let h := refHandle (field d 16 8)
      (s.modObj h (fun o => { o with wr := false, validating := true }), .validate h)))

/-- RELEASE: every later check on the reference fails; the rest waits for the object's users (R244). -/
def execRelease (q : Nat) (s : State) : Outcome :=
  .next (s.serve q 0x0A (some 0) [(16, 8)] (fun d s =>
    match s.qpObj q (field d 16 8) with
    | none => fin s stAccess 0 0
    | some _ =>
      let h := refHandle (field d 16 8)
      (s.modObj h (fun o => { o with releasing := true }), .release h)))

/-- RECLASS: a staged move to a new class (R241, R248). -/
def execReclass (q : Nat) (s : State) : Outcome :=
  .next (s.serve q 0x0B (some 0) [(16, 9)] (fun d s =>
    let cls := field d 24 1
    let p := s.qpPart q
    match s.qpObj q (field d 16 8) with
    | none => fin s stAccess 0 0
    | some o =>
      let grows := !(pinnedClass cls == pinnedClass o.cls)
      if decide (5 < cls) || (grows && !(if pinnedClass cls then s.pinnedRoom p o.size else s.trayRoom p o.size)) then
        fin s stAccess 0 0
      else fin (s.stageMove (refHandle (field d 16 8)) cls s.livePairs) stOk 0 0))

/-- STEEP: the list's write right is withdrawn; the check of the list waits for its writers (R253). -/
def execSteep (q : Nat) (s : State) : Outcome :=
  .next (s.serve q 0x0C (some 0) [(16, 16)] (fun d s =>
    match s.ctxOfRef (field d 16 4), s.qpObj q (field d 24 8) with
    | some c, some o =>
      let own := match s.ctx? c with
        | some x => decide (x.part = s.qpPart q)
        | none => false
      if own && decide (o.cls = 5) then
        let h := refHandle (field d 24 8)
        (s.modObj h (fun o => { o with wr := false }), .steep c h (field d 20 4))
      else fin s stAccess 0 0
    | _, _ => fin s stAccess 0 0))

/-- The tier-1 bytes of an object in units of 4 KiB (R352). -/
def Obj.tier1Granules (o : Obj) : Nat :=
  if pinnedClass o.cls then o.granules else (o.extents.map (fun e => e.2.present.length)).sum

/-- QUERY (R240, R352). -/
def execQuery (q : Nat) (s : State) : Outcome :=
  .next (s.serve q 0x0D (some 0) [(16, 8)] (fun d s =>
    match s.qpObj q (field d 16 8) with
    | none => fin s stAccess 0 0
    | some o => fin s stOk o.size (o.cls + 256 * bit01 o.move.isSome + 65536 * o.tier1Granules)))

/-! ### Near-memory operations (R265, R284) -/

/-- A range check as R104 checks a descriptor (R265). -/
def State.rangeOk (s : State) (q ref off len : Nat) (rd wr : Bool) : Bool :=
  s.refOk ref (s.qpPart q) (s.qpTenant q) rd wr &&
  (match s.objOfRef ref with
   | some o => decide (off + len ≤ o.size)
   | none => false)

/-- Whether a length keeps to the limits of R265. -/
def nmeLen (n : Nat) : Bool := decide (1 ≤ n) && decide (n ≤ 2 ^ 40)

/-- The requests of an operation for a range: the lines it reads or writes, which it touches (R258, R267, R291). -/
def State.requestRange (s : State) (id : Nat) (r : Nat × Nat × Nat × Bool) : State :=
  let ls := blocksOf 64 r.2.1 r.2.2.1
  (s.touchLines r.1 ls).requestLines (.nme id) r.1 ls r.2.2.2

/-- An operation that passed its checks starts: every line of its ranges becomes a request, charged to its submitter (R265,
R267, R291, R322). -/
def State.startNme (s : State) (q : Nat) (a : NmeArg) : State × Service :=
  let (id, s1) := s.fresh
  let s2 : State := { s1 with nmes := s1.nmes ++ [⟨id, q, s.qpPart q, a, none⟩] }
  (a.ranges.foldl (fun (t : State) r => t.requestRange id r) s2, .nme id)

/-- FILL (R265). -/
def execFill (q : Nat) (s : State) : Outcome :=
  .next (s.serve q 0x10 (some 2) [(16, 32)] (fun d s =>
    let n := field d 32 8
    if nmeLen n && s.rangeOk q (field d 16 8) (field d 24 8) n false true then
      s.startNme q (.fill (refHandle (field d 16 8)) (field d 24 8) n (field d 40 8))
    else fin s stAccess 0 0))

/-- COPY (R265). -/
def execCopy (q : Nat) (s : State) : Outcome :=
  .next (s.serve q 0x11 (some 2) [(16, 40)] (fun d s =>
    let n := field d 48 8
    if nmeLen n && s.rangeOk q (field d 16 8) (field d 24 8) n true false &&
        s.rangeOk q (field d 32 8) (field d 40 8) n false true then
      s.startNme q (.copy (refHandle (field d 16 8)) (field d 24 8) (refHandle (field d 32 8)) (field d 40 8) n)
    else fin s stAccess 0 0))

/-- COMPARE (R265). -/
def execCompare (q : Nat) (s : State) : Outcome :=
  .next (s.serve q 0x12 (some 2) [(16, 40)] (fun d s =>
    let n := field d 48 8
    if nmeLen n && s.rangeOk q (field d 16 8) (field d 24 8) n true false &&
        s.rangeOk q (field d 32 8) (field d 40 8) n true false then
      s.startNme q (.compare (refHandle (field d 16 8)) (field d 24 8) (refHandle (field d 32 8)) (field d 40 8) n)
    else fin s stAccess 0 0))

/-- The formats REDUCE takes with an operation (R266, R113). -/
def reduceFormats (op : Nat) : List Nat :=
  match op with
  | 0 => [0, 1, 6]
  | 1 => fmtArith
  | 2 => fmtArith
  | _ => []

/-- REDUCE (R265, R266): its list holds k sources and the destination, 16 bytes each. -/
def execReduce (q : Nat) (s : State) : Outcome :=
  .next (s.serve q 0x13 (some 2) [(16, 19), (40, 8)] (fun d s =>
    let lref := field d 16 8
    let loff := field d 24 8
    let k := field d 32 1
    let fc := field d 33 1
    let op := field d 34 1
    let n := field d 40 8
    let lh := refHandle lref
    let w := ((Fmt.ofCode fc).getD .fp32).bytes
    if !(decide (2 ≤ k) && decide (k ≤ 16) && (reduceFormats op).contains fc && nmeLen n && decide (n % w = 0) &&
        s.rangeOk q lref loff (16 * (k + 1)) true false) then fin s stAccess 0 0
    else
      match s.scanStatus lh [(loff, 16 * (k + 1))] with
      | some st => fin s st 0 0
      | none =>
        let pairs := (List.range (k + 1)).map (fun i => (s.wordAt lh (loff + 16 * i), s.wordAt lh (loff + 16 * i + 8)))
        let dst := pairs.getD k (0, 0)
        if (pairs.take k).all (fun r => s.rangeOk q r.1 r.2 n true false) && s.rangeOk q dst.1 dst.2 n false true then
          s.startNme q (.reduce ((pairs.take k).map (fun r => (refHandle r.1, r.2))) (refHandle dst.1) dst.2 fc op n)
        else fin s stAccess 0 0))

/-- PUBLISH (R284). -/
def execPublish (q : Nat) (s : State) : Outcome :=
  .next (s.serve q 0x18 none [(16, 32)] (fun d s =>
    let off := field d 24 8
    if decide (off % 8 = 0) && s.rangeOk q (field d 16 8) off 8 true true then
      s.startNme q (.publish (refHandle (field d 16 8)) off (field d 32 8) (field d 40 8))
    else fin s stAccess 0 0))

/-! ### Route maps (R364 to R366) -/

/-- The bytes an entry's KIND leaves unused, as (start, length) (R365). -/
def reUnused (kind : Nat) : List (Nat × Nat) :=
  match kind with
  | 0 => [(1, 31)]
  | 1 => []
  | 2 => [(2, 2), (18, 14)]
  | 3 => [(1, 1), (3, 1), (11, 1), (16, 16)]
  | _ => [(1, 7), (13, 3), (20, 12)]

/-- Whether an entry keeps to its form (R365, R366). -/
def State.entryOk (s : State) (p : Nat) (e : List Byte) : Bool :=
  decide (reKind e ≤ 4) && (reUnused (reKind e)).all (fun u => decide (field e u.1 u.2 = 0)) &&
  (match reKind e with
   | 0 => true
   | 1 =>
     decide (reClass e ≤ 5) && decide (field e 2 1 ≤ 3) && decide (reAddr e % 4096 = 0) &&
     s.windowHoldsRange p (reAddr e) (reSpan e) &&
     (match s.objOfRef (reRef e) with
      | some o => decide (handlePart (refHandle (reRef e)) = p) &&
          decide (reOffp e * 4096 + rePages e * 4096 ≤ o.size)
      | none => false)
   | 2 =>
     let q := reQp e
     decide (reClass e ≤ 5) && decide (reAddr e % 64 = 0) && s.windowHoldsRange p (reAddr e) 64 && decide (q < 8192) &&
     decide (s.qpPart q = p) && decide (s.fstaged Reg.CTX_QP_A_DB_FABRIC [q] = 1) &&
     decide (s.fstaged Reg.CTX_QP_C_JOB [q] = reJob e)
   | 3 =>
     decide (field e 2 1 ≤ 1) && decide (field e 8 2 < 4096) &&
     (if reLocal e then decide (rePbr e = 0) && (s.ctxOfRef (reCtx e)).isSome else true)
   | _ =>
     decide (rePbrLo e ≤ rePbrHi e) && (match s.ctxOfRef (reRecv e) with
      | some c => (match s.ctx? c with
        | some x => decide (x.part = p)
        | none => false)
      | none => false))

/-- Whether no aperture or doorbell of an image overlaps another (R366). -/
def noOverlap : List (List Byte) → Bool
  | [] => true
  | e :: r =>
    (decide (reSpan e = 0) || r.all (fun f => decide (reSpan f = 0) || apart (reAddr e) (reSpan e) (reAddr f) (reSpan f))) && noOverlap r

/-- MAP_STAGE (R364, R366).
DEDUCED: assumption 33. -/
def execMapStage (q : Nat) (s : State) : Outcome :=
  .next (s.serve q 0x20 (some 3) [(16, 12)] (fun d s =>
    let p := s.qpPart q
    let ref := field d 16 8
    let n := field d 24 4
    if !(decide (1 ≤ n) && decide (n ≤ 8192) && s.rangeOk q ref 0 (32 * n) true false) then fin s stAccess 0 0
    else
      match s.scanStatus (refHandle ref) [(0, 32 * n)] with
      | some st => fin s st 0 0
      | none =>
        let es := (List.range n).map (fun i => s.bytesAt (refHandle ref) (32 * i) 32)
        if !(es.all (s.entryOk p) && noOverlap es) then fin s stAccess 0 0
        else
          let m := (es.zipIdx).foldl (fun (a : KV (List Byte)) e => if reKind e.1 = 0 then a else kvSet a e.2 e.1) []
          let cur := (s.part p).routeCur
          fin (s.modPart p (fun x => { x with routeStaged := if m = cur.entries ∧ s.routeClosing p = false then none else some m })) stOk
            (cur.gen + 1) 0))

/-! ### Ownership (R368 to R371) -/

/-- An ownership operation on an object of the queue pair's partition (R369): it needs the object's reference. -/
def State.owning (s : State) (q : Nat) (d : List Byte) (body : Nat → Nat → State × Service) : State × Service :=
  match s.qpObj q (field d 16 8) with
  | none => fin s stAccess 0 0
  | some _ => body (field d 16 8) (s.qpJob q)

/-- OWN_CLAIM (R368, R369). -/
def execOwnClaim (q : Nat) (s : State) : Outcome :=
  .next (s.serve q 0x28 (some 4) [(16, 8)] (fun d s => s.owning q d (fun ref job =>
    match s.ownRec ref with
    | some r =>
      if r.owner = job then fin (s.modOwn ref (fun y => { y with orphan := false })) stOk r.epoch 0
      else fin s stNotOwner 0 0
    | none =>
      if 65536 ≤ s.own.length then fin s stAccess 0 0
      else fin { s with own := s.own ++ [⟨ref, job, 0, none, false⟩] } stOk 0 0)))

/-- OWN_OFFER (R369, R370). -/
def execOwnOffer (q : Nat) (s : State) : Outcome :=
  .next (s.serve q 0x29 (some 4) [(16, 20)] (fun d s => s.owning q d (fun ref job =>
    match s.ownRec ref with
    | none => fin s stNotOwner 0 0
    | some r =>
      if r.owner ≠ job ∨ r.epoch ≠ field d 24 8 then fin s stNotOwner 0 0
      else if r.offer.isSome then fin s stBusy 0 0
      else fin (s.modOwn ref (fun y => { y with offer := some (field d 32 4, s.now), orphan := false })) stOk 0 0)))

/-- OWN_ACCEPT (R369, R370). -/
def execOwnAccept (q : Nat) (s : State) : Outcome :=
  .next (s.serve q 0x2A (some 4) [(16, 16)] (fun d s => s.owning q d (fun ref job =>
    match s.ownRec ref with
    | none => fin s stNotOwner 0 0
    | some r =>
      let toJob := match r.offer with
        | some o => decide (o.1 = job)
        | none => false
      if toJob && decide (field d 24 8 = (r.epoch + 1) % 2 ^ 64) then
        fin (s.modOwn ref (fun y => { y with
          owner := job
          epoch := (r.epoch + 1) % 2 ^ 64
          offer := none
          orphan := false })) stOk 0 0
      else fin s stNotOwner 0 0)))

/-- OWN_DROP (R369). -/
def execOwnDrop (q : Nat) (s : State) : Outcome :=
  .next (s.serve q 0x2B (some 4) [(16, 16)] (fun d s => s.owning q d (fun ref job =>
    match s.ownRec ref with
    | none => fin s stNotOwner 0 0
    | some r =>
      if r.owner ≠ job ∨ r.epoch ≠ field d 24 8 then fin s stNotOwner 0 0
      else if r.offer.isSome then fin s stBusy 0 0
      else fin { s with own := s.own.filter (fun y => decide (y.ref ≠ ref)) } stOk 0 0)))

/-- A pending offer lapses (R371): the owner stays, ORPHAN is set, and where `report` a NOT_OWNER record names the
object, the owner and the target. -/
def State.lapseOffer (s : State) (r : OwnRec) (report : Bool) : State :=
  match r.offer with
  | none => s
  | some o =>
    let s1 := s.modOwn r.ref (fun y => { y with offer := none, orphan := true })
    if report then s1.appendPart (Rec.ofPart (handlePart (refHandle r.ref)) stNotOwner clsOwnership 1 0 r.ref
      (o.1 * 2 ^ 32 + r.owner) s.now) else s1

/-- OFFER_LAPSE: an offer of an object reference still pending OWN_T microseconds after it was committed lapses (R371);
a microsecond is 1,700 XBAR cycles.
DESIGN CHOICE: assumptions 3 and 32. -/
def execOfferLapse (ref : Nat) (s : State) : Outcome :=
  .next (match s.ownRec ref with
    | none => s
    | some r =>
      match r.offer with
      | none => s
      | some o =>
        if s.now < o.2 + max 1 (s.fget Reg.CTX_CFG_OWN_T []) * 1700 then s else s.lapseOffer r true)

end Sys2Proof.Machine
end

