-- ==== Sys2Proof/Machine/MoonTiles.lean ====
section
/-!
DEFINITION. Tiles and merges (R81 to R87, R148 to R151): the numbering of nodes, the dealing of tiles and merge
nodes, and the instructions that begin, claim, commit and load them.
-/
namespace Sys2Proof.Machine

/-! ### Node numbers (R148) -/

/-- The levels of the tree over `n` nodes from number `base`: first number and size of each. -/
def treeLevelsFrom : Nat → Nat → Nat → List (Nat × Nat)
  | 0, base, n => [(base, n)]
  | k + 1, base, n => if n ≤ 1 then [(base, n)] else (base, n) :: treeLevelsFrom k (base + n) (ceilDiv n 2)

/-- The levels of the tree of a step of `t` tiles. -/
def nodeLevels (t : Nat) : List (Nat × Nat) := treeLevelsFrom 21 0 t

/-- The number of the root, the highest. -/
def rootNode (t : Nat) : Nat :=
  match (nodeLevels t).getLast? with
  | some l => l.1
  | none => 0

/-- The children of a node above level 0: the left, and the right where it has one. -/
def nodeKids (t n : Nat) : Option (Nat × Option Nat) :=
  let ls := nodeLevels t
  ((ls.zip ls.tail).find? (fun q => decide (q.2.1 ≤ n) && decide (n < q.2.1 + q.2.2))).map (fun q =>
    let j := n - q.2.1
    (q.1.1 + 2 * j, if 2 * j + 1 < q.1.2 then some (q.1.1 + 2 * j + 1) else none))

/-- The parent of a node other than the root. -/
def nodeParent (t n : Nat) : Option Nat :=
  let ls := nodeLevels t
  ((ls.zip ls.tail).find? (fun q => decide (q.1.1 ≤ n) && decide (n < q.1.1 + q.1.2))).map (fun q =>
    q.2.1 + (n - q.1.1) / 2)

/-! ### Steps -/

/-- The step a job's step ID is bound to (R149). -/
def State.step? (s : State) (p job id : Nat) : Option Step :=
  (s.part p).steps.find? (fun t => decide (t.job = job) && decide (t.id = id))

/-- The state with the step a step ID is bound to changed. -/
def State.modStep (s : State) (p job id : Nat) (f : Step → Step) : State :=
  s.modPart p (fun x => { x with steps := x.steps.map (fun t => if t.job = job ∧ t.id = id then f t else t) })

/-- The Moons in service that hold a resident context of a job (R149). -/
def State.jobMoons (s : State) (p job : Nat) : List Nat :=
  (List.range 64).filter (fun m => s.moonInService m && s.ctxs.any (fun e =>
    decide (e.2.part = p) && decide (e.2.job = job) && decide (e.2.phase = .resident) &&
    (match e.2.slot with
     | some sl => decide (sl / 8 = m)
     | none => false)))

/-- Some nodes dealt round-robin over some Moons, from the first (R85, R86). -/
def dealOver (d : KV Nat) (nodes moons : List Nat) : KV Nat :=
  (nodes.zipIdx).foldl (fun a ni => match moons[ni.2 % moons.length]? with
    | some m => kvSet a ni.1 m
    | none => a) d

/-- The nodes of a step dealt to a Moon out of service that have not committed (R86). -/
def State.lostNodes (s : State) (t : Step) : List Nat :=
  (t.dealt.filter (fun e => !s.moonInService e.2 && (kvGet? t.done e.1).isNone)).map (fun e => e.1)

/-- The Moons that nodes of a step may be dealt to again (R86, R500): those in service that hold contexts of the job,
else the step's own Moons still in service. -/
def State.dealMoons (s : State) (p : Nat) (t : Step) : List Nat :=
  let ms := s.jobMoons p t.job
  if ms.isEmpty then t.moons.filter s.moonInService else ms

/-- The lost nodes of a live step are run again from their start, dealt round-robin over the Moons left (R86). -/
def State.redealStep (s : State) (p : Nat) (t : Step) : Step :=
  let lost := s.lostNodes t
  let ms := s.dealMoons p t
  if t.finished || lost.isEmpty || ms.isEmpty then t
  else { t with
    dealt := dealOver t.dealt lost ms
    claims := kvFilter (fun n _ => !lost.contains n) t.claims
    moons := setInsAll (t.moons.filter s.moonInService) ms }

/-- The lost nodes of every step of a partition are dealt again. -/
def State.redeal (s : State) (p : Nat) : State :=
  s.modPart p (fun x => { x with steps := x.steps.map (fun t => s.redealStep p t) })

/-- Bytes of merge space a step holds: T + 1 slots while it is live, the root's slot after (R149). -/
def Step.space (t : Step) : Nat := (if t.finished then 1 else t.t + 1) * t.units * 256

/-- The merge space of a partition in bytes (R453). -/
def State.mergeSpace (s : State) (p : Nat) : Nat := s.fget Reg.PART_CFG_A_MERGE_MIB [p] * 2 ^ 20

/-- The merge space a partition's steps hold. -/
def State.mergeUsed (s : State) (p : Nat) : Nat := (((s.part p).steps).map Step.space).sum

/-- The lowest-numbered node dealt to a Moon, tiles before merge nodes, that is neither claimed nor committed
(R150); tile numbers lie below all merge-node numbers. -/
def Step.claimable (t : Step) (moon : Nat) : Option Nat :=
  (t.dealt.find? (fun e => decide (e.2 = moon) && (kvGet? t.claims e.1).isNone && (kvGet? t.done e.1).isNone)).map
    (fun e => e.1)

/-- A node commits with its output (R84, R148, R151): its claim and its children's slots are released; a parent with
a single child commits with it; a merge node both of whose children have committed is dealt to the Moon of the later
commit, to the lower-numbered Moon where both fall in one cycle (R150). -/
def Step.commit (now moon : Nat) (bs : List Byte) : Nat → Nat → Step → Step
  | 0, _, t => t
  | k + 1, n, t =>
    let slots := match nodeKids t.t n with
      | some (l, r) => (match r with
        | some r' => kvDel (kvDel t.slots l) r'
        | none => kvDel t.slots l)
      | none => t.slots
    let t1 := { t with
      done := kvSet t.done n (now, moon)
      claims := kvDel t.claims n
      slots := kvSet slots n bs }
    match nodeParent t.t n with
    | none => { t1 with finished := true }
    | some p =>
      match nodeKids t.t p with
      | some (l, some r) =>
        (match kvGet? t1.done l, kvGet? t1.done r with
         | some a, some b =>
           let m := if a.1 < b.1 then b.2 else if b.1 < a.1 then a.2 else min a.2 b.2
           { t1 with dealt := kvSet t1.dealt p m }
         | _, _ => t1)
      | _ => t1.commit now moon bs k p

/-! ### The instructions -/

/-- TBEGIN (R149): joins or starts a step.
DESIGN CHOICE: assumption 64. -/
def execTbegin (slot : Nat) (w : MWord) (s : State) : Outcome :=
  let t := w.immBits 31 0
  let u := w.immBits 47 32
  .next (s.issueWith slot w { opc := 0x9C, sa := true, imm := 2 ^ 48 - 1 }
    (decide (1 ≤ t) && decide (t ≤ 2 ^ 20) && decide (1 ≤ u) && decide (u ≤ 256)) true
    (fun c x =>
      let id := (x.getS w.sa).toNat
      let done := fun (z : State) => (z.setCtx c x.advance).noteIssue slot .memory
      let tile := s.raiseAt slot c x .tile .memory
      match s.step? x.part x.job id with
      | some st => if st.t = t ∧ st.units = u then done s else tile
      | none =>
        let live := (s.part x.part).steps.filter (fun q => decide (q.job = x.job) && !q.finished)
        if 5 ≤ live.length then tile
        else if s.mergeSpace x.part < s.mergeUsed x.part + (t + 1) * u * 256 then tile
        else
          let ms := s.jobMoons x.part x.job
          let st : Step := ⟨x.job, id, t, u, ms, dealOver [] (List.range t) ms, [], [], [], false⟩
          done (s.modPart x.part (fun p => { p with steps := p.steps ++ [st] }))))

/-- What TCLM returns where no node is claimable yet (R150). -/
def tclmNone : Word := 0xFFFFFFFFFFFFFFFE

/-- TCLM (R150): claims a tile or merge node dealt to the context's Moon.
DEDUCED: assumption 34. -/
def execTclm (slot : Nat) (w : MWord) (s : State) : Outcome :=
  .next (s.issueWith slot w { opc := 0x9D, dst := true, sa := true, mods := 1 } (decide (w.dst.toNat ≤ 29)) true
    (fun c x =>
      let id := (x.getS w.sa).toNat
      let done := fun (z : State) (y : Ctx) => (z.setCtx c y.advance).noteIssue slot .memory
      match s.step? x.part x.job id with
      | none => s.raiseAt slot c x .tile .memory
      | some st =>
        if st.finished then done s (x.setS w.dst (BitVec.allOnes 64))
        else match st.claimable (slot / 8) with
          | some n =>
            let kids := match nodeKids st.t n with
              | some (l, some r) => (BitVec.ofNat 64 l, BitVec.ofNat 64 r)
              | some (l, none) => (BitVec.ofNat 64 l, BitVec.allOnes 64)
              | none => (BitVec.allOnes 64, BitVec.allOnes 64)
            done (s.modStep x.part x.job id (fun q => { q with claims := kvSet q.claims n c }))
              (((x.setS w.dst (BitVec.ofNat 64 n)).setS (w.dst + 1) kids.1).setS (w.dst + 2) kids.2)
          | none =>
            if w.modBit 0 then done s (x.setS w.dst tclmNone) else s.setCtx c { x with wait := .result }))

/-- TCMT (R151): commits the slot-size bytes at s[SA] as the output of node s[SB] of step s[SC]. -/
def execTcmt (slot : Nat) (w : MWord) (s : State) : Outcome :=
  .next (s.issueWith slot w { opc := 0x9E, sa := true, sb := true, sc := true } true true
    (fun c x =>
      let a := (x.getS w.sa).toNat
      let n := (x.getS w.sb).toNat
      let id := (x.getS w.sc).toNat
      let st := s.step? x.part x.job id
      let len := match st with
        | some q => q.units * 256
        | none => 256
      let claimed := match st with
        | some q => kvGet? q.claims n == some c
        | none => false
      match firstFail [(x.scratchOk a len 256, .scratch), (claimed, .tile)] with
      | some e => s.raiseAt slot c x e .memory
      | none =>
        if x.inFlight [(a, len)] [] then s.setCtx c { x with wait := .result }
        else
          let bs := memRead x.scratch a len
          let s1 := (s.modStep x.part x.job id (fun q => q.commit s.now (slot / 8) bs 22 n)).redeal x.part
          let s2 := s1.digestAdd x.part (4 :: id :: n :: bs.map (fun b => b.toNat))
          (s2.setCtx c x.advance).noteIssue slot .memory))

/-- TLD (R151): loads the output of node s[SB] of step s[SC] into scratch s[SA]. -/
def execTld (slot : Nat) (w : MWord) (s : State) : Outcome :=
  .next (s.issue slot w { opc := 0x9F, sa := true, sb := true, sc := true } true true
    (fun x =>
      let a := (x.getS w.sa).toNat
      let st := s.step? x.part x.job (x.getS w.sc).toNat
      let len := match st with
        | some q => q.units * 256
        | none => 256
      let out := match st with
        | some q => kvGet? q.slots (x.getS w.sb).toNat
        | none => none
      checked [(x.scratchOk a len 256, .scratch), (out.isSome, .tile)]
        (x.guarded [] [(a, len)] (.ok (x.putScratch a (out.getD []))))))

end Sys2Proof.Machine
end

