-- ==== Sys2Proof/Machine/Contain.lean ====
section
/-!
DEFINITION. The endings that contain a fault (chapter Errors): the abort of a context (R490 to R492), the teardown of a
job (R294, R371), the crash of an accelerator (R295 to R298), and the loss of a Moon (R500).
-/
namespace Sys2Proof.Machine

/-! ### Context abort (R490 to R492) -/

/-- Whether any context of a job of a partition is tracked. -/
def State.jobLives (s : State) (p job : Nat) : Bool :=
  s.ctxs.any (fun e => decide (e.2.part = p) && decide (e.2.job = job))

/-- The end of an abort (R491): stores already admitted complete, the rest of the context's work is discarded, its run
ends, and its claims, grants, slot and number are free; the windows it kept open close.
DEDUCED: assumption 18. -/
def State.abortCtx (s : State) (c : Nat) : State :=
  match s.ctx? c with
  | none => s
  | some x =>
    let s1 := (((s.dropWork c x).endRun c x.qp none).removeCtx c).closeWindow x.part (.context c)
    if s1.jobLives x.part x.job then s1 else s1.closeWindow x.part (.job x.job)

/-- A context's abort becomes due (R490): its strand stops at once. -/
def State.markAbort (s : State) (c : Nat) : State := s.modCtx c (fun x => { x with abortPending := true })

/-- CONTEXT_ABORT: the abort of a context that is due ends, in a swap at its release (R45), and a close that waits for it
goes on (R360, R491).
DESIGN CHOICE: assumption 12. -/
def execContextAbort (c : Nat) (s : State) : Outcome :=
  .next (match s.ctx? c with
    | none => s
    | some x =>
      if !x.abortPending || s.inSwap x.part then s
      else
        let t := s.abortCtx c
        (kvKeys t.qps).foldl (fun (u : State) q => match (u.qp q).service with
          | some (_, .close d) => if d = c then u.progress q else u
          | _ => u) t)

/-! ### Job teardown (R294) -/

/-- What a teardown of a job does to the ownership table (R371): pending offers to it lapse, and records it owns are
flagged ORPHAN, each with its OWNERSHIP record. -/
def State.orphanOwned (s : State) (p job : Nat) : State :=
  (s.own.filter (fun r => decide (handlePart (refHandle r.ref) = p))).foldl (fun (t : State) r =>
    let t1 := match r.offer with
      | some o => if o.1 = job then t.lapseOffer r true else t
      | none => t
    if r.owner = job then
      (t1.modOwn r.ref (fun y => { y with orphan := true })).appendPart
        (Rec.ofPart p stNotOwner clsOwnership 2 0 r.ref job t.now)
    else t1) s

/-- The aborts of every context of a job become due under a window on the job, where it has any (R294, R486).
DEDUCED: assumption 15. -/
def State.endJob (s : State) (p job : Nat) : State :=
  if s.jobLives p job then
    let s1 := if (s.part p).windows.contains (.job job) then s else s.openWindow p (.job job)
    { s1 with ctxs := kvMapV (fun _ x => if x.part = p ∧ x.job = job then { x with abortPending := true } else x) s1.ctxs }
  else s

/-- JOB_TEARDOWN: the oldest teardown that is due for a job of a partition begins (R294): its TEARDOWN record, to the
partition's queue with a copy to the device queue, then the aborts.
DESIGN CHOICE: assumption 12. -/
def execJobTeardown (p job : Nat) (s : State) : Outcome :=
  .next (match s.teardowns.find? (fun t => decide (t.1 = p) && decide (t.2.1 = job)) with
    | none => s
    | some t =>
      let s1 : State := { s with teardowns := s.teardowns.erase t }
      let s2 := s1.appendBoth (Rec.ofPart p stPoison clsTeardown t.2.2.1 2 (job * 2 ^ 32) t.2.2.2 s.now)
      (s2.orphanOwned p job).endJob p job)

/-! ### Crashed accelerators (R295 to R298) -/

/-- The directory entries that show a port's accelerator holding a line. -/
def State.heldBy (s : State) (n : Nat) : List DirEnt := s.dir.filter (fun d => d.holders.contains n)

/-- A line held exclusive or modified by a crashed accelerator becomes orphaned, and its entry is freed; a hold of a
shared line is removed from its entry (R297). -/
def State.orphanLine (s : State) (n : Nat) (d : DirEnt) : State :=
  if d.excl then
    let s1 := s.modObj d.handle (fun o => { o with orphan := kvSet o.orphan d.line d.job })
    let s2 : State := { s1 with
      dir := s.dir.filter (fun e => !(decide (e.handle = d.handle) && decide (e.line = d.line))) }
    s2.fsat Reg.XBAR_BI_STAT_ORPHANED [] 1
  else
    let dir := s.dir.map (fun e =>
      if e.handle = d.handle ∧ e.line = d.line then { e with holders := setDel e.holders n } else e)
    { s with dir := dir.filter (fun e => e.wide || !e.holders.isEmpty) }

/-- The accelerator at a port becomes crashed (R296): its held lines are released or orphaned, snoops to it end, the
jobs it is attached to and the owning jobs of its orphaned lines are torn down, code 3, with its PBR ID.
DESIGN CHOICE: assumption 13. -/
def State.crashAccel (s : State) (n : Nat) : State :=
  if s.crashed.contains n then s
  else
    let held := s.heldBy n
    let pbr := (s.pbrOfPort n).getD 0
    let jobs := (match s.pbrOfPort n with
      | some b => s.attachedJobs b
      | none => []) ++ (held.filter (fun d => d.excl)).map (fun d => (handlePart d.handle, d.job))
    let s1 := held.foldl (fun (t : State) d => t.orphanLine n d) s
    let s2 : State := { s1 with crashed := setIns s1.crashed n, viral := setDel s1.viral n }
    let s3 := (s2.snoops.filter (fun q => decide (q.port = n))).foldl (fun (t : State) q => t.snoopAnswered q false) s2
    jobs.eraseDups.foldl (fun (t : State) j => t.triggerTeardown j.1 j.2 3 pbr) s3

/-- A new accelerator comes to a port, which no crash concerns (R296, R418, R426). -/
def State.renewPort (s : State) (n : Nat) : State := { s with crashed := setDel s.crashed n }

/-- ACCELERATOR_CRASH: one of the causes of R296 strikes the accelerator at a port whose partner has that role. -/
def execAcceleratorCrash (n : Nat) (s : State) : Outcome :=
  .next (if decide (n < 256) && s.discRole n == 1 then (s.crashAccel n).finishAccs else s)

/-! ### The loss of a Moon (R27, R86, R500) -/

/-- A context on a lost Moon: its UNIT record of code 1 opens a window on it, and its abort becomes due.
DEDUCED: assumption 16. -/
def State.loseCtx (s : State) (c : Nat) (x : Ctx) : State :=
  let s1 := s.appendPart (Rec.ofPart x.part stAborted clsUnit 1 1 (x.job * 2 ^ 32 + x.ref c) 0 s.now)
  let s2 := if (s1.part x.part).windows.contains (.context c) then s1 else s1.openWindow x.part (.context c)
  s2.markAbort c

/-- The jobs of a partition one of whose live steps has no Moon left (R500). -/
def State.lostJobs (s : State) (p : Nat) : List Nat :=
  ((s.part p).steps.filter (fun t => !t.finished && (s.dealMoons p t).isEmpty)).map (fun t => t.job) |>.eraseDups

/-- A job whose step is lost: one UNIT record of code 4, the step's merge slots released, the job's contexts aborted. -/
def State.loseJob (s : State) (p job : Nat) : State :=
  let s1 := s.appendPart (Rec.ofPart p stAborted clsUnit 4 2 (job * 2 ^ 32) 0 s.now)
  let s2 := s1.modPart p (fun x => { x with steps := x.steps.filter (fun t =>
    decide (t.job ≠ job) || t.finished || !(s.dealMoons p t).isEmpty) })
  s2.endJob p job

/-- MOON_LEAVES_SERVICE: the in-service bit of a Moon clears with its UNIT record of code 1, every context resident on
it is aborted, and its uncommitted tiles and merge nodes are dealt again (R27, R86, R500).
DEDUCED: assumption 16. -/
def execMoonLeavesService (m : Nat) (s : State) : Outcome :=
  .next (if !s.moonInService m then s
    else
      let avail := s.fget Reg.GLB_MOON_AVAIL_MOON_IN_SERVICE []
      let s1 := (s.fset Reg.GLB_MOON_AVAIL_MOON_IN_SERVICE [] (avail - 2 ^ m)).appendDev
        (Rec.noPart stAborted clsUnit 1 4 m 0 0 s.now)
      let on := s1.ctxs.filter (fun e => decide (e.2.phase ≠ .parked) && (match e.2.slot with
        | some sl => decide (sl / 8 = m)
        | none => false))
      let s2 := on.foldl (fun (t : State) e => t.loseCtx e.1 e.2) s1
      partIds.foldl (fun (t : State) p =>
        let t1 := (t.lostJobs p).foldl (fun (u : State) j => u.loseJob p j) t
        t1.redeal p) s2)

end Sys2Proof.Machine
end

