-- ==== Sys2Proof/Machine/Xbar.lean ====
section
/-!
DEFINITION. The crossbar (R300 to R317): the input buffers of the fabric ports, push-out and the spill ring, the
arbitration of an output, and what a granted message does there.
-/
namespace Sys2Proof.Machine

/-! ### Input buffers (R304, R305, R311) -/

/-- An empty input buffer. -/
def XIn.init : XIn := ⟨[], [], 0, 0⟩

/-- An empty queue. -/
def XQueue.init : XQueue := ⟨[], [], [], 0, [], 0, []⟩

/-- The input buffer of a fabric port. -/
def State.xinOf (s : State) (n : Nat) : XIn := kvGet XIn.init s.xin n

/-- The state with an input buffer changed. -/
def State.modXin (s : State) (n : Nat) (f : XIn → XIn) : State :=
  { s with xin := kvPut XIn.init s.xin n (f (s.xinOf n)) }

/-- A queue of an input: key 8 × output + class. -/
def XIn.queue (x : XIn) (k : Nat) : XQueue := kvGet XQueue.init x.queues k

/-- The input with a queue changed. -/
def XIn.modQueue (x : XIn) (k : Nat) (f : XQueue → XQueue) : XIn :=
  { x with queues := kvPut XQueue.init x.queues k (f (x.queue k)) }

/-- The key of the queue a cell stands in. -/
def Cell.key (c : Cell) : Nat := 8 * c.out + c.charge.cls

/-- Whether a queue has a spilled segment. -/
def XQueue.spilled (q : XQueue) : Bool := !q.spill.isEmpty || !q.back.isEmpty

/-- The records of a queue's spilled segment that hold chunks. -/
def XQueue.records (q : XQueue) : Nat := q.back.length + q.spill.length

/-- The chunks of 32 records a queue holds (R314). -/
def XQueue.chunks (q : XQueue) : Nat := if q.records = 0 then 0 else ceilDiv (q.off + q.records) 32

/-- The queues of classes 0 to 5, which are those of the request pool (R304, R305). -/
def XIn.requests (x : XIn) : KV XQueue := x.queues.filter (fun e => decide (e.1 % 8 < 6))

/-- The cells of the request pool in use; cells that a return will fill count from its start (R304, R313). -/
def XIn.used (x : XIn) : Nat := (x.requests.map (fun e => e.2.head.length + e.2.tail.length + e.2.back.length)).sum

/-- The cells of the response pool in use (R304). -/
def XIn.rspUsed (x : XIn) : Nat := (x.queues.map (fun e => if 6 ≤ e.1 % 8 then e.2.head.length else 0)).sum

/-- The cells of the response pool of a port. -/
def rspPoolSize : Nat := 512

/-- The chunks an input holds. -/
def XIn.chunks (x : XIn) : Nat := (x.queues.map (fun e => e.2.chunks)).sum

/-- The pairs of an input's hold table (R312). -/
def XIn.pairs (x : XIn) : List (Nat × Nat) := (x.queues.flatMap (fun e => e.2.pairs)).eraseDups

/-- The cells of the request pool of a port. -/
def poolSize : Nat := 2560

/-- The chunks of the spill ring in use. -/
def State.ringUsed (s : State) : Nat := (s.xin.map (fun e => e.2.chunks)).sum

/-- The chunks of the spill ring. -/
def ringChunks : Nat := 1048576

/-! ### Push-out (R310, R315, R316) -/

/-- The recent top class of an input (R310). -/
def State.topClass (s : State) (n : Nat) : Option Nat :=
  let t := max 1 (s.fget Reg.XBAR_CFG_MIX_T [])
  ((s.xinOf n).arrived.filter (fun e => decide (s.now < e.2 + t))).foldl (fun (a : Option Nat) e => match a with
    | some b => some (max b e.1)
    | none => some e.1) none

/-- The queue a push-out at an input takes its victim from (R310): of the lowest class present, the one that holds most
messages in the pool, ties going to the lower output. -/
def State.victimQueue (s : State) (n : Nat) : Option Nat :=
  let qs := (s.xinOf n).requests.filter (fun e => !e.2.pooled.isEmpty)
  match (qs.map (fun e => e.1 % 8)).min?, s.topClass n with
  | some c, some top =>
    if top ≤ c then none
    else ((qs.filter (fun e => decide (e.1 % 8 = c))).foldl (fun (a : Option (Nat × Nat)) e => match a with
      | some b => if b.2 < e.2.pooled.length then some (e.1, e.2.pooled.length) else some b
      | none => some (e.1, e.2.pooled.length)) none).map (fun e => e.1)
  | _, _ => none

/-- The victim of a queue and the queue with it moved to its spilled segment: the front of the tail, or the back of the
head where nothing is spilled (R310, R311). -/
def XQueue.pushOut (q : XQueue) : Option (Cell × XQueue) :=
  if q.spilled then
    match q.tail with
    | c :: r => some (c, { q with
        tail := r
        spill := q.spill ++ [{ c with chan := .none }]
        pairs := if q.pairs.contains (c.src, c.dst) then q.pairs else q.pairs ++ [(c.src, c.dst)] })
    | [] => none
  else
    match q.head.getLast? with
    | some c => some (c, { q with head := q.head.dropLast, spill := [{ c with chan := .none }], off := 0, pairs := [(c.src, c.dst)] })
    | none => none

/-- The records that move between the ring and the inputs in this cycle, device-wide: those written, and one of each return
(R314). -/
def State.writesNow (s : State) : Nat :=
  (if s.spillWrites.1 = s.now then s.spillWrites.2 else 0) + (s.xin.filter (fun e => decide (s.now < e.2.retBusy))).length

/-- Whether an input or the device has no record left to move in this cycle (R314). -/
def State.spillBusy (s : State) (n : Nat) : Bool :=
  decide ((s.xinOf n).wrote = s.now + 1) || decide (s.now < (s.xinOf n).retBusy) || decide (8 ≤ s.writesNow)

/-- The largest use is kept, and an alarm set with its record at 7/8 of the ring (R316, R320).
DEDUCED: assumption 42. -/
def State.noteRing (s : State) : State :=
  let u := s.ringUsed
  let s1 := if s.fget Reg.XBAR_SPILL_STAT_HIGH_WATER [] < u then s.fset Reg.XBAR_SPILL_STAT_HIGH_WATER [] u else s
  if 917504 ≤ u ∧ s1.fget Reg.XBAR_SPILL_STAT_ALARM [] = 0 then
    (s1.fset Reg.XBAR_SPILL_STAT_ALARM [] 1).appendDev (Rec.noPart stBusy clsCapacity 1 0 0 u 0 s.now)
  else if u ≤ 524288 ∧ s1.fget Reg.XBAR_SPILL_STAT_ALARM [] = 1 then s1.fset Reg.XBAR_SPILL_STAT_ALARM [] 0
  else s1

/-- A push-out at an input after an arrival, where the pool is nearly full (R310); skipped for want of a chunk, a pair
or a spill write, and counted (R315). -/
def State.pushOut (s : State) (n : Nat) : State :=
  let x := s.xinOf n
  if s.fget Reg.XBAR_CFG_PUSH_EN [] = 0 ∨ min poolSize (s.fget Reg.XBAR_CFG_PUSH_FREE []) ≤ poolSize - x.used then s
  else
    match s.victimQueue n with
    | none => s
    | some k =>
      match (x.queue k).pushOut with
      | none => s
      | some (c, q) =>
        let grows := decide ((x.queue k).chunks < q.chunks)
        let most := min ringChunks (s.fget Reg.XBAR_SPILL_CTRL_QUOTA [])
        let full := decide (ringChunks ≤ s.ringUsed)
        let quota := decide (most = 0) || (grows && decide (most ≤ x.chunks))
        let pair := !x.pairs.contains (c.src, c.dst) && decide (256 ≤ x.pairs.length)
        if full || quota || pair || s.spillBusy n then
          (if full then s.fsat Reg.XBAR_SPILL_STAT_FULL_EVT [] 1 else s).fsat Reg.XBAR_PORT_EVT_SKIPPED [n] 1
        else
          let s1 := s.modXin n (fun y => { y.modQueue k (fun _ => q) with wrote := s.now + 1 })
          let s2 : State := { s1 with
            spillWrites := (s.now, (if s.spillWrites.1 = s.now then s.spillWrites.2 else 0) + 1) }
          (s2.fsat Reg.XBAR_PORT_EVT_PUSHED [n] 1).noteRing

/-- The initial credits of a channel of a fabric link of a role (R388): 1 accelerator, 2 tray, 3 peer. -/
def credits (role : Nat) (c : Channel) : Nat :=
  match role, c with
  | 1, .m2sReq => 1280
  | 1, .m2sRwD => 1152
  | 1, .birsp => 384
  | 2, .drs => 384
  | 2, .ndr => 96
  | 3, .posted => 2432
  | _, _ => 0

/-- The messages of an input that hold credits of a channel. -/
def XIn.holding (x : XIn) (c : Channel) : Nat :=
  (x.queues.map (fun e => ((e.2.head ++ e.2.tail).filter (fun d => decide (d.chan = c))).length)).sum

/-- Whether the partner at a port has the credits of a channel to send `k` messages (R388). -/
def State.credited (s : State) (n : Nat) (c : Channel) (k : Nat) : Bool :=
  decide ((s.xinOf n).holding c + k ≤ credits (s.role n) c)

/-- Whether the partner at a port has the credits for `k` messages of a channel of the request pool, whose credits never
exceed its free cells (R304, R388).
DEDUCED: assumption 39. -/
def State.poolRoom (s : State) (n : Nat) (c : Channel) (k : Nat) : Bool :=
  s.credited n c k && decide ((s.xinOf n).used + k ≤ poolSize)

/-- Whether the request pool of a port has become full; it is counted in STALLED (R320). -/
def State.noteStall (s : State) (n : Nat) : State :=
  if poolSize ≤ (s.xinOf n).used then s.fsat Reg.XBAR_PORT_EVT_STALLED [n] 1 else s

/-- A message of classes 0 to 5 arrives in the request pool of a port (R305, R310, R327). -/
def State.cellArrives (s : State) (n : Nat) (c : Cell) : State :=
  let s1 := s.wake c.out c.charge
  let s2 := s1.modXin n (fun x =>
    { x.modQueue c.key (fun q => if q.spilled then { q with tail := q.tail ++ [c] } else { q with head := q.head ++ [c] })
      with arrived := kvSet x.arrived c.charge.cls s.now })
  (s2.pushOut n).noteStall n

/-- Whether the partner at a port has the credit for a response of a channel, as for `State.poolRoom` (R304, R388).
DEDUCED: assumption 39. -/
def State.rspRoom (s : State) (n : Nat) (c : Channel) : Bool :=
  s.credited n c 1 && decide ((s.xinOf n).rspUsed < rspPoolSize)

/-- A response of class 6 or 7 stands in the response pool of a port, in its queue for an output (R302, R304, R305). It has
no source of R271 and is held behind no spilled message. -/
def State.rspArrives (s : State) (n out cls : Nat) (tag : Nat × Nat) (b : CellBody) (ch : Channel) : State :=
  let (seq, s1) := s.fresh
  let c : Cell := ⟨seq, out, deviceCharge cls, 2 ^ 50, 2 ^ 50, 80, tag, b, ch⟩
  s1.modXin n (fun x => x.modQueue c.key (fun q => { q with head := q.head ++ [c] }))

/-! ### Returns (R313) -/

/-- SPILL_RETURN: a return of a queue's spilled segment starts: up to 32 records, from its front, one in a cycle.
DESIGN CHOICE: assumption 3. DEDUCED: assumption 42. -/
def execSpillReturn (n out cls : Nat) (s : State) : Outcome :=
  let k := 8 * out + cls
  let x := s.xinOf n
  let q := x.queue k
  .next (if 8 ≤ q.head.length ∨ q.spill.isEmpty = true ∨ q.back ≠ [] ∨
      poolSize - x.used < min poolSize (s.fget Reg.XBAR_CFG_RET_FREE []) ∨ s.spillBusy n = true then s
    else
      let b := q.spill.take (min 32 (poolSize - x.used))
      if b.isEmpty then s
      else
        (s.modXin n (fun y => { y.modQueue k (fun z => { z with
            back := b
            spill := z.spill.drop b.length
            since := s.now }) with retBusy := s.now + b.length })).noteStall n)

/-- What becomes of a message removed from an input buffer or the spill ring: a request is answered as refused and counted
in WINDOW (R317, R494). -/
def State.purgeCell (s : State) (n : Nat) (c : Cell) : State :=
  match c.body with
  | .request id =>
    (match s.accs.find? (fun a => decide (a.id = id)) with
     | some a => ((s.fsat Reg.XBAR_FAB_REFUSE_WINDOW [] 1).answerEmpty a.port a.tag a.write).dropAcc id
     | none => s)
  | .doorbell tag _ _ _ => (s.fsat Reg.XBAR_FAB_REFUSE_WINDOW [] 1).answerEmpty n tag true
  | .answer _ _ _ _ => s
  | .birsp _ _ _ => s
  | .part => s
  | .ring _ _ => s
  | .transit _ _ _ _ => s

/-- SPILL_RETURN_FILLED: the records of a return fill their cells at the back of the head, at least 300 cycles after it
began; where the segment is then empty, the tail joins the head and the queue's pairs leave the hold table. An uncorrectable
record is removed with its message, whose partition is reset with trigger code 2 (R493, R494).
DEDUCED: assumption 42. -/
def execSpillReturnFilled (n out : Nat) (f : FilledReturn) (s : State) : Outcome :=
  let k := 8 * out + f.cls
  let q := (s.xinOf n).queue k
  .next (if q.back.isEmpty || decide (s.now < q.since + 300) then s
    else
      let b := q.back.length
      let lost := (q.back.zipIdx.filter (fun c => f.bad.contains c.2 && s.partValid c.1.tag.1)).map (fun c => c.1)
      let good := q.back.filter (fun c => !lost.contains c)
      let s1 := good.foldl (fun (t : State) c => t.wake out c.charge) s
      let s2 := s1.modXin n (fun y => y.modQueue k (fun z =>
        if z.spill.isEmpty then { z with head := z.head ++ good ++ z.tail, back := [], tail := [], off := 0, since := 0,
                                         pairs := [] }
        else { z with head := z.head ++ good, back := [], off := (z.off + b) % 32, since := 0 }))
      lost.foldl (fun (t : State) c => (t.purgeCell n c).triggerReset c.tag.1 2)
        (s2.fsat Reg.XBAR_PORT_EVT_RETURNED [n] b).noteRing)

/-! ### Eligible messages (R308, R312) -/

/-- Whether an earlier message of a cell's source to its destination stands in a spilled segment of its input
(R312). -/
def XIn.holds (x : XIn) (c : Cell) : Bool :=
  x.queues.any (fun e => (e.2.back ++ e.2.spill).any (fun d =>
    decide (d.src = c.src) && decide (d.dst = c.dst) && decide (d.seq < c.seq)))

/-- Whether an output can send: an internal one can; a fabric port in ACTIVE with both IDE streams established and its
PBR IDs assigned (R391, R416, R542). -/
def State.canSend (s : State) (out : Nat) : Bool := decide (256 ≤ out) || (s.active out && s.secure out && s.addressed out)

/-- Whether the partner of a fabric output is lost (R418). -/
def State.outLost (s : State) (out : Nat) : Bool := decide (out < 256) && s.fget Reg.LINK_PORT_STAT_LOST [out] == 1

/-- Whether the home of a message that came in on a port takes it now: the queue of a combined line has room (R288), a
coherent request finds its line's queue drained (R289), a ring has room (R146), and an answer to a snoop does not pass the
writes of the line that its accelerator sent before it (R291). -/
def State.accepts (s : State) (n : Nat) (b : CellBody) : Bool :=
  match b with
  | .request id => (match s.accs.find? (fun a => decide (a.id = id)) with
    | some a => (match s.hotLine a.handle a.line with
      | some d => if a.coh then d.queue.isEmpty else decide (d.queue.length < 64)
      | none => true)
    | none => true)
  | .ring r m => (match s.judge none r m with
    | .inl c => (match s.ctx? c with
      | some x => decide (x.ring.length < x.ringSlots)
      | none => true)
    | .inr _ => true)
  | .birsp h l _ => s.accs.all (fun a => !(a.write && !a.home && decide (a.port = n) && decide (a.handle = h) &&
      decide (a.line = l)))
  | .doorbell _ _ _ _ => true
  | .answer _ _ _ _ => true
  | .part => true
  | .transit _ _ _ _ => true

/-- Whether a cell that heads a queue of an input may go to its output: a run held for a port that has become lost leaves
through another of its group (R418). -/
def State.cellOpen (s : State) (n : Nat) (x : XIn) (c : Cell) : Bool :=
  !x.holds c && s.bucketOk c.charge && s.accepts n c.body && (s.canSend c.out || (s.outLost c.out && (match c.body with
    | .transit _ _ _ _ => true
    | .part => true
    | _ => false)))

/-- What a grant moves: a cell of an input buffer, a request of the device, or a response of the device. -/
inductive Granted where
  | cell (c : Cell)
  | req (id : Nat)
  | rsp (r : Rsp)
  deriving DecidableEq, Repr

/-- An eligible head: its charge, with its class, its input, and what it is. -/
structure Head where
  charge : Charge
  inp : Nat
  what : Granted
  deriving DecidableEq, Repr

/-- The eligible heads of the fabric inputs for an output. -/
def State.cellHeads (s : State) (out : Nat) : List Head :=
  s.xin.flatMap (fun e => (e.2.queues.filter (fun q => decide (q.1 / 8 = out))).filterMap (fun q =>
    match q.2.head with
    | c :: _ => if s.cellOpen e.1 e.2 c then some ⟨c.charge, e.1, .cell c⟩ else none
    | [] => none))

/-- The heads of the internal queues for an output, one for each input and charge (R332): the oldest request queued. -/
def State.reqHeads (s : State) (out : Nat) : List Req :=
  (s.reqs.filter (fun r => decide (r.state = .queued) && decide (r.out = out))).foldl (fun (a : List Req) r =>
    if a.any (fun q => decide (q.inp = r.inp) && decide (q.charge = r.charge)) then a else a ++ [r]) []

/-- Whether an internal head is eligible. -/
def State.reqEligible (s : State) (r : Req) : Bool :=
  s.canSend r.out && s.bucketOk r.charge && (decide (r.tier = 3) || !s.hotFull r.handle r.line)

/-- The responses and snoops of the device at the heads of their queues for an output: the oldest of each input and class
(R305). One for a port that is lost is granted, to be discarded (R317). -/
def State.rspHeads (s : State) (out : Nat) : List Head :=
  if s.canSend out || s.outLost out then
    ((s.rsp.filter (fun r => decide (r.out = out))).foldl (fun (a : List Rsp) r =>
      if a.any (fun q => decide (q.inp = r.inp) && decide (q.cls = r.cls)) then a else a ++ [r]) []).map
      (fun r => (⟨deviceCharge r.cls, r.inp, .rsp r⟩ : Head))
  else []

/-! ### The capacity of the ports (R300, R308) -/

/-- The cells a crossbar port moves in an XBAR cycle, in each direction. -/
def portCells (n : Nat) : Nat :=
  if n < 256 then 2 else if n < 260 then 32 else if n = 260 then 1 else if n = 261 then 8 else if n < 270 then 16 else 2

/-- The cells an output can still be granted in this cycle. -/
def State.outRoom (s : State) (out : Nat) : Nat :=
  portCells out - (if s.grants.cycle = s.now then kvGet 0 s.grants.outs out else 0)

/-- The cells an input can still send in this cycle. -/
def State.inRoom (s : State) (inp : Nat) : Nat :=
  portCells inp - (if s.grants.cycle = s.now then kvGet 0 s.grants.ins inp else 0)

/-- A grant takes a cell of its output and of its input. -/
def State.countGrant (s : State) (out inp : Nat) : State :=
  let g : Grants := if s.grants.cycle = s.now then s.grants else ⟨s.now, [], []⟩
  { s with grants := { g with
      outs := kvSet g.outs out (kvGet 0 g.outs out + 1)
      ins := kvSet g.ins inp (kvGet 0 g.ins inp + 1) } }

/-- All eligible heads for an output, of the inputs that have capacity left. -/
def State.heads (s : State) (out : Nat) : List Head :=
  (s.rspHeads out ++ s.cellHeads out ++
    ((s.reqHeads out).filter s.reqEligible).map (fun r => (⟨r.charge, r.inp, .req r.id⟩ : Head))).filter
    (fun h => decide (0 < s.inRoom h.inp))

/-! ### Arbitration (R308, R326, R332) -/

/-- The heads of a list with the smallest key. -/
def smallest (l : List Head) (key : Head → Nat × Nat) : List Head :=
  match l with
  | [] => []
  | a :: r =>
    let m := r.foldl (fun (b : Nat × Nat) h =>
      if (key h).1 < b.1 ∨ ((key h).1 = b.1 ∧ (key h).2 < b.2) then key h else b) (key a)
    l.filter (fun h => decide (key h = m))

/-- The heads of classes 0 to 5 that a share point prefers (R326): of the outer contender of smallest start tag, within it
of the account of smallest start tag, ties to the lower number, and of those the highest class. -/
def State.shared (s : State) (out : Nat) (hs : List Head) : List Head :=
  let h := s.share out
  let l1 := smallest hs (fun e => (kvGet 0 h.s e.charge.outer, e.charge.outer))
  let l2 := smallest l1 (fun e => (kvGet 0 h.si (64 * e.charge.outer + e.charge.inner), e.charge.inner))
  smallest l2 (fun e => (7 - e.charge.cls, 0))

/-- The choice of an output (R308): class 7 first, then class 6, then by shares, and among inputs round-robin, starting
after the one it last granted in that class.
DESIGN CHOICE: assumption 35. -/
def State.choose (s : State) (out : Nat) : Option Head :=
  let hs := s.heads out
  let l := match hs.filter (fun e => decide (e.charge.cls = 7)), hs.filter (fun e => decide (e.charge.cls = 6)) with
    | a :: r, _ => a :: r
    | [], b :: r => b :: r
    | [], [] => s.shared out hs
  (smallest l (fun e =>
    ((e.inp + 271 - (match kvGet? (s.share out).rr e.charge.cls with
      | some i => i + 1
      | none => 0)) % 271, 0))).head?

/-! ### Acceptance (R308) -/

/-- The outputs that an input holds messages for. -/
def State.outsOf (s : State) (inp : Nat) : List Nat :=
  let cells := (kvKeys (s.xinOf inp).queues).map (fun k => k / 8)
  let reqs := (s.reqs.filter (fun r => decide (r.inp = inp) && decide (r.state = .queued))).map (fun r => r.out)
  let rsps := (s.rsp.filter (fun r => decide (r.inp = inp))).map (fun r => r.out)
  (cells ++ reqs ++ rsps).eraseDups

/-- The other outputs that grant an input a message it accepts before the one `out` grants: of a higher class, or of the same
class at a lower output (R308). -/
def State.preferred (s : State) (out : Nat) (h : Head) : List Nat :=
  (s.outsOf h.inp).filter (fun o => decide (o ≠ out) && decide (0 < s.outRoom o) && (match s.choose o with
    | some k => decide (k.inp = h.inp) && (decide (h.charge.cls < k.charge.cls) ||
        (decide (k.charge.cls = h.charge.cls) && decide (o < out)))
    | none => false))

/-- Whether an input accepts the message an output grants it, in its order and within the capacity of both (R308).
DESIGN CHOICE: assumption 35. -/
def State.accepted (s : State) (out : Nat) (h : Head) : Bool :=
  decide (0 < s.outRoom out) && decide ((s.preferred out h).length < s.inRoom h.inp)

/-! ### The grant -/

/-- The length L of a request, or of a message of a run (R324). -/
def State.reqLen (s : State) (r : Req) : Nat :=
  if r.tier = 3 then
    match s.workOf r.owner with
    | some (_, q) => (match q.op with
      | .message _ _ m => 16 + min 128 (64 + m.payload.length - 128 * r.line)
      | _ => 16)
    | none => 16
  else 80

/-- A fabric doorbell's store reaches the context block (R347, R348): a push to a queue pair that does not serve is
discarded, counted in APERTURE and recorded. -/
def State.fabricPush (s : State) (n src addr q : Nat) (desc : List Byte) : State :=
  if s.qpValid q && s.suppressed (s.qpPart q) then s.refuseAccess (RegName.QPDB_D.addr [q, 7])
  else if !s.qpValid q then
    (s.fsat Reg.XBAR_FAB_REFUSE_APERTURE [] 1).appendDev
      (Rec.noPart stAccess clsRefusal 2 0 0 addr (src + n * 2 ^ 16) s.now)
  else s.pushDesc q desc

/-- A response leaves through its output: it is discarded at a port whose link is down (R317). -/
def State.leave (s : State) (r : Rsp) : State := if s.canSend r.out then s.emit r.what else s

/-- The answer to an accelerator that a tray's response just granted at its port brings: it is that message, and crosses no
second time. -/
def State.passOn (s : State) (before out : Nat) : State :=
  match (s.rsp.drop before).find? (fun r => decide (r.out = out) && decide (r.cls = 6)) with
  | some r => ({ s with rsp := s.rsp.take before ++ (s.rsp.drop before).erase r } : State).leave r
  | none => s

/-- A tray's response comes to whom its request serves (R262, R263, R386). -/
def State.trayAnswers (s : State) (id out : Nat) (poison abort : Bool) : State :=
  match (s.req? id).filter (fun r => decide (r.state = .returning)) with
  | none => s
  | some r =>
    let s1 := (if poison || abort then s.failReq id poison else s.answerReq id none).finishAccs
    if r.owner.crossed then s1.passOn s.rsp.length out else s1

/-- A request of an accelerator comes to its home; `bad` tells that the tier-1 copy of its line failed uncorrectably, as it
does for a descriptor access (R277). -/
def State.requestHome (s : State) (id : Nat) (bad : Bool) : State :=
  let s1 := match s.accs.find? (fun a => decide (a.id = id)) with
    | some a => if bad && (s.hotLine a.handle a.line).isNone then s.lineErrors a.handle [a.line] [a.line] else s
    | none => s
  (s1.accHome id).finishAccs

/-- What a cell does at its output.
DESIGN CHOICE: assumption 35. -/
def State.deliverCell (s : State) (n : Nat) (c : Cell) (bad : Bool) : State :=
  match c.body with
  | .request id => s.requestHome id bad
  | .doorbell tag addr q desc => (s.fabricPush n c.src addr q desc).respond n 6 c.out (.cmp n tag)
  | .answer id poison abort _ => s.trayAnswers id c.out poison abort
  | .birsp h l keep => (match s.snoops.find? (fun q => q.back && decide (q.port = n) && decide (q.handle = h) &&
      decide (q.line = l)) with
    | some q => (s.snoopAnswered q keep).finishAccs
    | none => s)
  | .part => s
  | .ring r m => (match s.deliver (some n) r m with
    | (.written, t) => t.respond n 6 c.out (.ack n (field m.header 0 2) (field m.header 8 8))
    | (_, t) => t)
  | .transit pbr p ctx m =>
    let n := if s.outLost c.out then (s.transitPort pbr).1.getD c.out else c.out
    s.emit (.transit n pbr p ctx m)

/-- A request of the device for a line that a combiner holds joins its queue (R287). -/
def ReqOwner.hotJoins : ReqOwner → Bool
  | .instr _ _ => true
  | .comet _ _ => true
  | .accel _ => true
  | .nme _ => true
  | _ => false

/-- A read of a cached granule comes to the placement engine, which fills the granule and answers it then (R255). A granule
that has come to tier 1 since, or can be filled no more, is asked for where it now is. -/
def State.readThroughFill (s : State) (r : Req) : State :=
  let g := granuleOfLine r.line
  match s.obj? r.handle with
  | none => s.modReq r.id (fun q => { q with state := .answered })
  | some o =>
    if o.tier g = 2 then
      let s1 := (s.modReq r.id (fun q => { q with state := .sent })).issueFill r.handle g (some r.owner)
      if s1.filling r.handle g then s1
      else s1.modReq r.id (fun q => { q with state := .answered, final := some stPoison })
    else
      ({ s with reqs := s.reqs.filter (fun q => decide (q.id ≠ r.id)) } : State).requestLine r.owner r.handle r.line false

/-- What a request of the device does at its output (R255, R287, R318): it is at its stack; it joins the queue of a combined
line; it waits for a fill; or it is admitted to its port. The messages of a run before its last only pass.
DESIGN CHOICE: assumption 35. -/
def State.deliverReq (s : State) (r : Req) : State :=
  if decide (r.tier ≠ 3) && r.owner.hotJoins && (s.hotLine r.handle r.line).isSome then
    (s.dropLineReqs r.handle r.line [r.owner]).joinHot r.owner r.handle r.line
  else if r.tier = 1 then
    let (n, s0) := s.fresh
    let s1 := s0.modReq r.id (fun q => { q with state := .sent, seq := n })
    match s.obj? r.handle with
    | some o =>
      let pt := 1024 + s.channelOf o r.handle (granuleOfLine r.line)
      if s1.stackInService r.tray then s1.chargeTags pt r.charge 64
      else s1.modReq r.id (fun q => { q with state := .answered, final := some stPoison })
    | none => s1
  else if r.tier = 2 then s.reachPort r.id
  else if r.tier = 4 then s.readThroughFill r
  else if s.reqs.any (fun q => decide (q.owner = r.owner) && decide (q.state = .queued) && decide (q.id ≠ r.id)) then
    { s with reqs := s.reqs.filter (fun q => decide (q.id ≠ r.id)) }
  else if r.port = 256 then s.modReq r.id (fun q => { q with state := .sent })
  else s.reachPort r.id

/-- The heads that the grant of another account's message passes over (R339). -/
def State.passOver (s : State) (out : Nat) (c : Charge) : State :=
  let ids := ((s.reqHeads out).filter (fun r => s.reqEligible r &&
    !(decide (r.charge.outer = c.outer) && decide (r.charge.inner = c.inner)))).map (fun r => r.id)
  { s with reqs := s.reqs.map (fun r => if ids.contains r.id then { r with passedOver := true } else r) }

/-- A grant that an input accepts: the message is charged where it is of classes 0 to 5 (R321), leaves its queue and comes
to its output. -/
def State.grant (s : State) (out : Nat) (h : Head) (bad : Bool) : State :=
  let s0 := if h.charge.cls < 6 then s.passOver out h.charge else s
  let s1 := s0.modShare out (fun e => { e with rr := kvSet e.rr h.charge.cls h.inp })
  match h.what with
  | .rsp r => ({ s1 with rsp := s1.rsp.erase r } : State).leave r
  | .cell c =>
    let s2 := if c.charge.cls < 6 then s1.chargeOutput out c.charge c.len else s1
    (s2.modXin h.inp (fun x => x.modQueue c.key (fun q => { q with head := q.head.tail }))).deliverCell h.inp c bad
  | .req id => (match s1.req? id with
    | none => s1
    | some r => (s1.chargeOutput out h.charge (s1.reqLen r)).deliverReq r)

/-- CROSSBAR_GRANT: an output grants the message it chooses among the eligible heads, and where its input accepts it, it is
charged and comes to its output (R308, R324 to R332).
DESIGN CHOICE: assumptions 35 and 38. -/
def execCrossbarGrant (g : Grant) (s : State) : Outcome :=
  .next (match s.choose g.out with
    | none => s
    | some h => if s.accepted g.out h then (s.countGrant g.out h.inp).grant g.out h g.bad else s)

end Sys2Proof.Machine
end

