-- ==== Sys2Proof/Machine/Fabric.lean ====
section
/-!
DEFINITION. What arrives on fabric links (chapters Fabric semantics and CXL 3.1 support): the requests of accelerators and
their checks at ingress (R273, R275, R276, R382), answers to snoops (R291, R292), the answers of trays (R386), device
messages (R381) and CXL.io (R389).
-/
namespace Sys2Proof.Machine

/-! ### Links -/

/-- A flit other than DOE and link management comes in on a port (R379, R391): nothing where the port is not in ACTIVE,
discarded and counted before IDE is established, discarded on accelerator and peer links until the device and the port have
their PBR IDs (R379, R542), else what `body` makes of it. -/
def State.flit (s : State) (n : Nat) (body : State → State) : State :=
  if !s.active n then s
  else if !s.secure n then s.fsat Reg.LINK_IDE_STAT_DISCARDS [n] 1
  else if !s.addressed n then s
  else body s

/-- Something is counted in FOREIGN.
DEDUCED: assumption 40. -/
def State.foreign (s : State) : State := s.fsat Reg.XBAR_FAB_REFUSE_FOREIGN [] 1

/-! ### Checks at ingress (R275, R276) -/

/-- What an M2S request asks: its kind, source and destination PBR IDs, tag and address. -/
structure M2S where
  port : Nat
  spid : Nat
  dpid : Nat
  tag : Nat
  addr : Nat
  deriving DecidableEq, Repr

/-- What a request does with its line: a read, an end of the hold, or a write with its bytes and enables. -/
inductive AccKind where
  | read (excl : Bool)
  | inval
  | write (bytes : List Byte) (mask : List Bool)
  deriving DecidableEq, Repr

/-- Whether a request is answered with Cmp rather than data. -/
def AccKind.cmp : AccKind → Bool
  | .read _ => false
  | .inval => true
  | .write _ _ => true

/-- Whether a request writes. -/
def AccKind.writes : AccKind → Bool
  | .read _ => false
  | .inval => false
  | .write _ _ => true

/-- The channel a request comes on (R382). -/
def AccKind.channel (k : AccKind) : Channel := if k.writes then .m2sRwD else .m2sReq

/-- Where a check failed (R276). -/
inductive RefusalAt where
  | foreign | spid | window | aperture | key
  deriving DecidableEq, Repr

/-- The WORD_B of a REFUSAL record of code 2 (R480). -/
def M2S.who (m : M2S) : Nat := m.spid % 4096 + m.port * 2 ^ 16

/-- A refused request (R276): answered with poisoned data or Cmp, counted, and recorded in the queue of the partition
whose window matched, else in the device queue; one refused because its partition is resetting is not recorded. -/
def State.refuseM2S (s : State) (m : M2S) (k : AccKind) (w : RefusalAt) (p : Option Nat) (record : Bool) : State :=
  let s1 := match w with
    | .foreign => s.foreign
    | .spid => s.fsat Reg.XBAR_FAB_REFUSE_SPID [] 1
    | .window => s.fsat Reg.XBAR_FAB_REFUSE_WINDOW [] 1
    | .aperture => s.fsat Reg.XBAR_FAB_REFUSE_APERTURE [] 1
    | .key => s
  let st := if w = .key then stKeyRetired else stAccess
  let s2 := if !record then s1 else match p with
    | some q => s1.appendPart (Rec.ofPart q st clsRefusal 2 0 m.addr m.who s.now)
    | none => s1.appendDev (Rec.noPart st clsRefusal 2 0 0 m.addr m.who s.now)
  s2.answerEmpty m.port m.tag k.cmp

/-- The aperture or doorbell entry of a route map that covers an address. -/
def State.entryAt (s : State) (p a : Nat) : Option (List Byte) :=
  (kvVals (s.part p).routeCur.entries).find? (fun e =>
    (decide (reKind e = 1) || decide (reKind e = 2)) && reCovers e a)

/-- The partition-and-generation tag of a message of a partition (R314, R475). -/
def State.cellTag (s : State) (p : Nat) : Nat × Nat := (p, (s.part p).tagDraw)

/-- A store to a doorbell entry (R347, R366): it goes on to the context block. -/
def State.admitDoorbell (s : State) (m : M2S) (p : Nat) (e : List Byte) (bytes : List Byte) : State :=
  let q := reQp e
  let (seq, s1) := s.fresh
  s1.cellArrives m.port ⟨seq, 270, s1.chargeFor p (s1.qpTenant q) (reClass e), m.spid, 2 ^ 40 + q, 80,
    s1.cellTag p, .doorbell m.tag m.addr q bytes, .m2sRwD⟩

/-- A request that passed its checks enters the input buffer (R277, R305); the end of a hold acts at once and is
answered with Cmp (R382). -/
def State.admitAcc (s : State) (m : M2S) (k : AccKind) (p : Nat) (e : List Byte) (h : Nat) (o : Obj) (l : Nat) : State :=
  match k with
  | .inval =>
    let s1 := s.modDir h l (fun d => { d with holders := setDel d.holders m.port, excl := d.excl && !d.holders.contains m.port })
    let s2 : State := { s1 with dir := s1.dir.filter (fun d => d.wide || !d.holders.isEmpty) }
    s2.respond m.port 6 m.port (.cmp m.port m.tag)
  | _ =>
    let (id, s1) := s.fresh
    let ch := s1.chargeFor p o.tenant (reClass e)
    let (wr, ex, bs, en) : Bool × Bool × List Byte × List Bool := match k with
      | .write b q => (true, false, b, q)
      | .read x => (false, x && reCoh e, [], [])
      | .inval => (false, false, [], [])
    let a : AccReq :=
      { id := id, port := m.port, tag := m.tag, write := wr, excl := ex, coh := reCoh e, handle := h, line := l,
        bytes := bs, mask := en, part := p, job := reJob e, gen := (s.part p).routeCur.gen, src := m.who, addr := m.addr,
        charge := ch, home := false }
    ({ s1 with accs := s1.accs ++ [a] } : State).cellArrives m.port
      ⟨id, s1.homeOut o h l wr, ch, m.spid, h, 80, s1.cellTag p, .request id, k.channel⟩

/-- The checks of R273, R275 and R380 on a request of an accelerator, in order, and what becomes of it. -/
def State.ingress (s : State) (m : M2S) (k : AccKind) : State :=
  if s.viral.contains m.port then s.foreign.answerEmpty m.port m.tag k.cmp
  else if s.role m.port ≠ 1 ∨ s.ownPbr ≠ some m.dpid then s.refuseM2S m k .foreign none true
  else if s.pbrOfPort m.port ≠ some m.spid then s.refuseM2S m k .spid none true
  else match s.findWindow m.spid m.addr with
    | none => s.refuseM2S m k .window none true
    | some w =>
      let p := s.fget Reg.PART_WIN_A_PART [w]
      let right := fun (f : RField) => s.fget f [w] == 1
      let e := s.entryAt p m.addr
      let coh := match e with
        | some x => decide (reKind x = 1) && reCoh x
        | none => false
      if (s.part p).resetDue.isSome then s.refuseM2S m k .window (some p) false
      else if !(right (if k.writes then Reg.PART_WIN_A_WR else Reg.PART_WIN_A_RD)) || (coh && !right Reg.PART_WIN_A_COH) then
        s.refuseM2S m k .window (some p) true
      else
        let no := s.refuseM2S m k .aperture (some p) true
        match e with
        | none => no
        | some x =>
          if reKind x = 2 then
            match k with
            | .write bs mask =>
              if mask.all (fun b => b) && s.fget Reg.CTX_QP_A_DB_FABRIC [reQp x] == 1 && s.qpJob (reQp x) == reJob x then
                s.admitDoorbell m p x bs
              else no
            | _ => no
          else
            let off := reOffp x * 4096 + (m.addr - reAddr x) / 64 * 64
            match s.objOfRef (reRef x) with
            | none => no
            | some o =>
              if decide (handlePart (refHandle (reRef x)) = p) && (if k.writes then o.wr && !reReadOnly x else o.rd) &&
                  decide (off + 64 ≤ o.size) then
                if s.keyRetired o then s.refuseM2S m k .key (some p) true
                else s.admitAcc m k p x (refHandle (reRef x)) o (off / 64)
              else no

/-- A request on the M2S channels of a port: discarded from a crashed accelerator (R296), and not sent by an accelerator
where the pool has no cell for it, for want of a credit (R304). A partner that is none is given no such credits (R388), and its
request is refused (R273). -/
def State.m2s (s : State) (m : M2S) (k : AccKind) : State :=
  s.flit m.port (fun t =>
    if t.crashed.contains m.port || (decide (t.role m.port = 1) && !t.poolRoom m.port k.channel 1) then t else t.ingress m k)

/-! ### The M2S opcodes (R382) -/

/-- MEMRD: a read; on a coherent aperture the line is granted, exclusive where MetaValue is Any. -/
def execMemrd (port spid dpid tag addr : Nat) (any : Bool) (s : State) : Outcome :=
  .next (s.m2s ⟨port, spid, dpid, tag, addr⟩ (.read any))

/-- MEMRDDATA: a read, as MEMRD. -/
def execMemrddata (port spid dpid tag addr : Nat) (any : Bool) (s : State) : Outcome :=
  .next (s.m2s ⟨port, spid, dpid, tag, addr⟩ (.read any))

/-- MEMINV: ends the requester's hold on the line.
DEDUCED: assumption 40. -/
def execMeminv (port spid dpid tag addr : Nat) (s : State) : Outcome :=
  .next (s.m2s ⟨port, spid, dpid, tag, addr⟩ .inval)

/-- MEMINVNT: ends the requester's hold on the line. -/
def execMeminvnt (port spid dpid tag addr : Nat) (s : State) : Outcome :=
  .next (s.m2s ⟨port, spid, dpid, tag, addr⟩ .inval)

/-- MEMSPECRD: accepted and discarded, with no response. -/
def execMemspecrd (port : Nat) (s : State) : Outcome := .next (s.flit port (fun t => t))

/-- The first 64 bytes of some data, zeros where there are fewer. -/
def lineBytes (d : List Byte) : List Byte := (d ++ List.replicate 64 0).take 64

/-- MEMWR: a write of the full line, or a push through a doorbell entry (R347). -/
def execMemwr (port spid dpid tag addr : Nat) (data : List Byte) (s : State) : Outcome :=
  .next (s.m2s ⟨port, spid, dpid, tag, addr⟩ (.write (lineBytes data) (List.replicate 64 true)))

/-- MEMWRPTL: a write of the bytes whose enables, bit i for byte i, are set. -/
def execMemwrptl (port spid dpid tag addr : Nat) (data : List Byte) (enables : Nat) (s : State) : Outcome :=
  .next (s.m2s ⟨port, spid, dpid, tag, addr⟩
    (.write (lineBytes data) ((List.range 64).map (fun i => bitAt i enables))))

/-- The snoop of a line that is out at a port, its tag held (R318). -/
def State.snoopOut (s : State) (n h l : Nat) : Option Snoop :=
  s.snoops.find? (fun q => q.sent && !q.back && decide (q.port = n) && decide (q.handle = h) && decide (q.line = l))

/-- An answer to a snoop of a line from the accelerator at a port comes to the response pool, freeing the snoop's tag, and
crosses to the line's home (R302, R304, R318); one that answers none is discarded and counted (R291, R382). -/
def State.birsp (s : State) (n h l : Nat) (keep : Bool) : State :=
  s.flit n (fun t =>
    if t.crashed.contains n then t
    else match t.snoopOut n h l with
      | some q =>
        if !t.rspRoom n .birsp then t
        else ({ t with snoops := t.snoops.map (fun k => if k = q then { k with back := true } else k) } : State).rspArrives n
          (t.homePort h l) 7 (t.cellTag (handlePart h)) (.birsp h l keep) .birsp
      | none => t.foreign)

/-- BIRSPI: the accelerator at a port has invalidated a line it was snooped for. -/
def execBirspi (port h l : Nat) (s : State) : Outcome := .next (s.birsp port h l false)

/-- BIRSPS: the accelerator at a port keeps a line it was snooped for, shared. -/
def execBirsps (port h l : Nat) (s : State) : Outcome := .next (s.birsp port h l true)

/-- M2S_OTHER_OPCODE: any other M2S opcode is discarded and counted in FOREIGN; one that expects a response is answered
with poisoned data (`resp` 1) or Cmp (`resp` 2) (R276, R382). -/
def execM2sOtherOpcode (port tag resp : Nat) (s : State) : Outcome :=
  .next (s.flit port (fun t =>
    if t.crashed.contains port then t
    else if resp = 1 then t.foreign.answerEmpty port tag false
    else if resp = 2 then t.foreign.answerEmpty port tag true
    else t.foreign))

/-- BI_TIMEOUT: a snoop goes unanswered for BI_TIMEOUT cycles, 0 taken as 1,700, and its holder is crashed (R292,
R296).
DESIGN CHOICE: assumption 3. -/
def execBiTimeout (port h l : Nat) (s : State) : Outcome :=
  let t0 := s.fget Reg.XBAR_FAB_CTRL_BI_TIMEOUT []
  .next (match s.snoopOut port h l with
    | some q => if q.since + (if t0 = 0 then 1700 else t0) ≤ s.now then (s.crashAccel port).finishAccs else s
    | none => s)

/-! ### Trays (R273, R386) -/

/-- TRAY_ORIGINATED_REQUEST: a request a tray originates, other than a response, is discarded and counted (R273). -/
def execTrayOriginatedRequest (port : Nat) (s : State) : Outcome :=
  .next (s.flit port (fun t => if t.role port = 2 then t.foreign else t))

/-- TRAY_BISNP: a BISnp from a tray is discarded and counted (R386). -/
def execTrayBisnp (port : Nat) (s : State) : Outcome :=
  .next (s.flit port (fun t => if t.role port = 2 then t.foreign else t))

/-- The outstanding request a tray's response at a port names (R386).
DEDUCED: assumption 40. -/
def State.outstanding (s : State) (n id : Nat) : Option Req :=
  (s.req? id).filter (fun r => decide (r.port = n) && decide (r.tier = 2) && decide (r.state = .sent))

/-- A tray's response comes to the response pool of its port, freeing its request's tag, and crosses to whom it serves
(R302, R304, R318). -/
def State.answerArrives (s : State) (port : Nat) (r : Req) (poison abort data : Bool) : State :=
  (s.modReq r.id (fun q => { q with state := .returning })).rspArrives port r.inp 6 (s.cellTag r.part)
    (.answer r.id poison abort data) (if data then .drs else .ndr)

/-- The line that a tray's data response brings: `data` where the tray does not return what it was sent last (R471). -/
def State.fromTray? (s : State) (r : Req) (data : Option (List Byte)) : State :=
  match data with
  | some b => s.fromTray r.handle r.line b
  | none => s

/-- S2M_DRS: a tray's data response (R386): it answers a read, or the read of a partial store, whose full-line write
follows from the port NME (R385). Poison and a completer abort are failure events (R262, R263). A response that names no
outstanding tag is discarded and counted. -/
def execS2mDrs (port id : Nat) (data : TrayData) (abort : Bool) (s : State) : Outcome :=
  .next (s.flit port (fun t =>
    if t.role port ≠ 2 || !t.rspRoom port .drs then t
    else match t.outstanding port id with
      | none => t.foreign
      | some r =>
        if r.rdFirst && !(data.poison || abort) then
          ((t.fromTray? r data.line).modReq id (fun q => { q with rdFirst := false })).toTray { r with rdFirst := false }
        else if r.write && !(data.poison || abort) then t
        else (if data.poison || abort then t else t.fromTray? r data.line).answerArrives port r data.poison abort true))

/-- S2M_NDR: a tray's no-data response completes a write (R282, R386, R508); a completer abort is a failure event. -/
def execS2mNdr (port id : Nat) (abort : Bool) (s : State) : Outcome :=
  .next (s.flit port (fun t =>
    if t.role port ≠ 2 || !t.rspRoom port .ndr then t
    else match t.outstanding port id with
      | none => t.foreign
      | some r => if abort || (r.write && !r.rdFirst) then t.answerArrives port r false abort false else t))

/-- TRAY_IO_REQUEST: a CXL.io request of a tray goes to the management core where it is an error or vendor message, and
is discarded otherwise (R386). -/
def execTrayIoRequest (port : Nat) (messageTlp : Bool) (s : State) : Outcome :=
  .next (s.flit port (fun t => if decide (t.role port = 2) && messageTlp then t.emit (.toMgmt port) else t))

/-! ### Device messages (R278, R381) -/

/-- The messages of a run as cells: the last carries what `fin` says. -/
def runCells (seq out : Nat) (ch : Charge) (src dst : Nat) (tag : Nat × Nat) (bytes : Nat) (fin : CellBody) : List Cell :=
  let k := ceilDiv bytes 128
  (List.range k).map (fun i =>
    ⟨seq, out, ch, src, dst, 16 + min 128 (bytes - 128 * i), tag, if i + 1 = k then fin else .part, .posted⟩)

/-- The source of a device message as R271 names it: the sending context of the sending partition and device. -/
def msgSource (m : Msg) : Nat :=
  2 ^ 48 + field m.header 16 4 * 2 ^ 16 + field m.header 2 1 * 2 ^ 12 + field m.header 0 2 % 4096

/-- DEVICE_MESSAGE_RUN: a run of vendor-defined messages comes in on a peer port: for a ring of this device, checked and
queued for it, or forwarded unchanged (R278, R381). A run whose ring or input buffer has no room is held at its sender
(R146, R304). `cls` is the class it carries, `p` and `ctx` its destination partition and context.
DEDUCED: assumption 39. -/
def execDeviceMessageRun (port cls dpid p ctx : Nat) (header payload : List Byte) (s : State) : Outcome :=
  .next (s.flit port (fun t =>
    let m : Msg := ⟨header, payload⟩
    let bytes := 64 + m.payload.length
    let cl := min cls 5
    if t.role port ≠ 3 ∨ t.poolRoom port .posted (ceilDiv bytes 128) = false then t
    else
      let (seq, u) := t.fresh
      if t.ownPbr = some dpid then
        match t.judge (some port) ctx m with
        | .inr q => t.refuseMessage (some port) q m
        | .inl c =>
          match t.ctx? c with
          | none => t
          | some x =>
            if x.ringSlots ≤ x.ring.length then t
            else
              (runCells seq (256 + x.slot.getD 0 / 128) (u.chargeFor x.part x.tenant cl) (msgSource m) (2 ^ 41 + ctx)
                (u.cellTag x.part) bytes (.ring ctx m)).foldl (fun (v : State) k => v.cellArrives port k) u
      else
        match t.transitPort dpid with
        | (some n, _) =>
          (runCells seq n (deviceCharge cl) (msgSource m) (2 ^ 42 + dpid * 2 ^ 32 + ctx) (deviceOuter, 0) bytes
            (.transit dpid p ctx m)).foldl
            (fun (v : State) k => v.cellArrives port k) u
        | (none, true) => t
        | (none, false) => t.foreign))

/-- Whether a CXL.io TLP is one of those R389 lets a link of a role carry. -/
def ioAllowed (k : IoKind) (role : Nat) : Bool :=
  match k with
  | .doe => true
  | .errorMessage => true
  | .acknowledgement => decide (role = 3)
  | .enumeration => decide (role = 2)
  | .atomicOp => false
  | .other => false

/-- FABRIC_IO_TLP: a CXL.io TLP on a fabric link; one that R389 does not list is discarded, a non-posted one completed
with Unsupported Request, and an AtomicOp counted in FOREIGN (R383, R389). -/
def execFabricIoTlp (port tag : Nat) (kind : IoKind) (nonPosted : Bool) (s : State) : Outcome :=
  .next (if !s.active port then s
    else if kind = IoKind.doe then s
    else if !s.secure port then s.fsat Reg.LINK_IDE_STAT_DISCARDS [port] 1
    else if ioAllowed kind (s.role port) then s
    else
      let s1 := if kind = IoKind.atomicOp then s.foreign else s
      if nonPosted then s1.respond port 7 port (.unsupported port tag) else s1)

end Sys2Proof.Machine
end

