-- ==== Sys2Proof/Machine/Frames.lean ====
section
/-!
DEFINITION. Frames of the optical link (R408 to R410): the header of a codeword, the striping of a frame's payload over the
lanes of its port, and the slots that carry flits.
-/
namespace Sys2Proof

/-- LANE of a codeword header (R408). -/
def Codeword.lane (c : Codeword) : Nat := bitsOf 19 16 c.header.toNat
/-- FSEQ. -/
def Codeword.fseq (c : Codeword) : Nat := bitsOf 15 10 c.header.toNat
/-- TYPE: 0 data, 1 idle, 2 training, 3 control. -/
def Codeword.type (c : Codeword) : Nat := bitsOf 9 8 c.header.toNat
/-- LCW: 1 is DARK. -/
def Codeword.lcw (c : Codeword) : Nat := bitsOf 7 0 c.header.toNat

namespace Machine

/-- The most symbol errors of a codeword that the code corrects (R408). -/
def maxCorrected : Nat := 15

/-- The 8-byte words of a lane's codeword payload. -/
def laneWords : Nat := 80

/-- The payload of lane `i` of a frame `w` lanes wide: every word j of the frame with j mod w = i (R409). -/
def laneOf (w : Nat) (payload : List Byte) (i : Nat) : List Byte :=
  (List.range laneWords).flatMap (fun k => (payload.drop (8 * (k * w + i))).take 8)

/-- The codewords of a frame of a type (R408, R409): one on every lane, with the same FSEQ. -/
def stripe (w fseq type : Nat) (payload : List Byte) : List Codeword :=
  (List.range w).map (fun i => ⟨BitVec.ofNat 20 (i * 2 ^ 16 + fseq % 64 * 2 ^ 10 + type * 2 ^ 8), laneOf w payload i⟩)

/-- The codeword payload a receiver places at lane `i`: that whose LANE field names it, whichever fibre it came over
(R409). -/
def placed (cs : List Codeword) (i : Nat) : List Byte :=
  match cs.find? (fun c => decide (c.lane = i)) with
  | some c => c.payload
  | none => []

/-- The payload of a frame `w` lanes wide from its codewords: word j is carried by lane j mod w, at byte 8 × (j div w)
(R409). -/
def unstripe (w : Nat) (cs : List Codeword) : List Byte :=
  (List.range (laneWords * w)).flatMap (fun j => ((placed cs (j % w)).drop (8 * (j / w))).take 8)

/-- Whether the codewords of a frame name every lane once. -/
def wholeFrame (w : Nat) (cs : List Codeword) : Bool :=
  decide (cs.length = w) && (List.range w).all (fun i => cs.any (fun c => decide (c.lane = i)))

/-- The slots of a frame `w` lanes wide (R410). -/
def slotCount (w : Nat) : Nat := 5 * w / 2

/-- The 256 bytes of a slot (R410). -/
def slotBytes (payload : List Byte) (k : Nat) : List Byte := (payload.drop (256 * k)).take 256

/-- The IDLE flit. -/
def idleBytes : List Byte := (List.range 256).map Config.idleFlit

/-- The flits a data frame carries, in slot order (R410): those of `bad` slots failed their CRC (R411), and an IDLE flit
carries nothing. -/
def flitsOf (w : Nat) (payload : List Byte) (bad : List Nat) : List (List Byte) :=
  (((List.range (slotCount w)).filter (fun k => !bad.contains k)).map (slotBytes payload)).filter
    (fun f => decide (f ≠ idleBytes))

/-- The next frame a transmitter sends and the flits that still wait (R410): the flits that are ready, in order, in its first
slots, and IDLE flits in those that are left; an idle frame where none is ready. -/
def sendFrame (w fseq : Nat) (flits : List (List Byte)) : List Codeword × List (List Byte) :=
  if flits.isEmpty then (stripe w fseq 1 (List.replicate (640 * w) 0), [])
  else
    let k := slotCount w
    (stripe w fseq 0 ((List.range k).flatMap (fun i => flits.getD i idleBytes)), flits.drop k)

/-- What a receiver delivers of a data frame (R409, R410).
DESIGN CHOICE: assumption 73. -/
def receiveFrame (w : Nat) (cs : List Codeword) (bad : List Nat) : List (List Byte) :=
  if wholeFrame w cs then flitsOf w (unstripe w cs) bad else []

end Machine

end Sys2Proof
end

