-- ==== Sys2Proof/Machine/Shadow.lean ====
section
/-!
DEFINITION. Shadowing a device (R520 to R527): what each device does with what its peer sends, and what a boundary does
to a shadowed partition.
-/
namespace Sys2Proof.Machine

/-- The peer device and partition of a shadowed partition (R530). -/
def State.toPeer (s : State) (p : Nat) (what : ShadowMsg) : State :=
  s.emit (.shadow (s.fget Reg.GLB_SHD_CTRL_PEER_PBR [p]) (s.fget Reg.GLB_SHD_CTRL_PEER_PART [p]) what)

/-- Whether a PBR ID lies in a peer port group (R377, R520). -/
def State.peerGroup (s : State) (pbr : Nat) : Bool :=
  (List.range 64).any (fun g => s.fget Reg.PART_PGRP_VALID [g] == 1 && s.fget Reg.PART_PGRP_ROLE [g] == 3 &&
    decide (s.fget Reg.PART_PGRP_PBR_LO [g] ≤ pbr) && decide (pbr ≤ s.fget Reg.PART_PGRP_PBR_HI [g]))

/-- A shadowing that has just been set up. -/
def Shadow.start (leader : Bool) : Shadow := ⟨leader, false, 0, 0, 0, [], [], [], 0, [], false, none⟩

/-- A setting of GLB_SHD_CTRL takes effect (R520, R521): MODE 1 makes the partition a leader, MODE 2 a shadow that is held
until JOIN, and any other ends shadowing; a peer outside every peer group fails it with cause ROUTE. `same` tells that MODE
and the peer are as they were, where a shadowing in progress goes on under the new settings.
DEDUCED: assumption 47. -/
def State.shadowMode (s : State) (p : Nat) (same : Bool) : State :=
  let mode := s.fget Reg.GLB_SHD_CTRL_MODE [p]
  if same && (s.part p).shadow.isSome then s
  else if mode = 1 ∨ mode = 2 then
    let s1 := s.modPart p (fun x => { x with
      shadow := some (Shadow.start (decide (mode = 1)))
      held := decide (mode = 2)
      shadowState := 1
      shadowCause := 0 })
    if s.peerGroup (s.fget Reg.GLB_SHD_CTRL_PEER_PBR [p]) then s1 else s1.shadowFail p 1
  else s.modPart p (fun x => { x with
    shadow := none
    held := if x.shadow.isSome then false else x.held
    shadowState := 0
    shadowCause := 0 })

/-- A leader's first boundary in leader mode (R521): the forward buffer is reserved, the shadow key drawn, JOIN sent. Room
that a write-back still makes counts as found.
DESIGN CHOICE: assumption 72. -/
def State.joinSend (s : State) (p : Nat) : State :=
  match (s.part p).shadow with
  | none => s
  | some h =>
    if !h.leader || h.joined then s
    else if !s.pinnedRoom p (64 * 2 ^ 20) then s.shadowFail p 2
    else match s.makeRoom p (64 * 2 ^ 20) (s.extentCount p) with
      | (_, .wait) => s.shadowFail p 2
      | (t, _) =>
        let (d, s1) := t.draw
        let n0 := (s.part p).orbit
        (s1.modPart p (fun x => { x with
          shadow := some { h with joined := true, key := Config.random d, n0 := n0 }
          shadowState := 3 })).toPeer p (.join n0 (Config.random d))

/-- The digest of the closing orbit is captured and set to zero (R524); a leader sends it (R525). -/
def State.captureDigest (s : State) (p closing : Nat) : State :=
  match (s.part p).shadow with
  | none => s
  | some h =>
    if !h.joined then s
    else
      let s1 := s.modPart p (fun x => { x with
        shadow := some { h with
          captured := if h.leader then h.captured else kvSet h.captured closing h.digest
          digest := 0 } })
      if h.leader then s1.toPeer p (.digest closing h.digest (h.void.contains closing)) else s1

/-- The end of a promotion on either device (R526): MODE reads 0, STATE reads PROMOTED, and the MIRROR records of code 10
are appended. -/
def State.promoted (s : State) (p : Nat) : State :=
  let pbr := s.fget Reg.GLB_SHD_CTRL_PEER_PBR [p]
  let s1 := (s.modPart p (fun x => { x with shadow := none, shadowState := 4, shadowCause := 0 })).fset
    Reg.GLB_SHD_CTRL_MODE [p] 0
  s1.appendBoth (Rec.ofPart p stOk clsMirror 10 0 (s1.part p).orbit pbr s.now)

/-- A boundary of a partition being promoted (R526): a leader forwards what it still holds, names the boundary as m and stops
forwarding; a shadow that reaches m
with every forwarded input applied lifts its suppression. -/
def State.promoteAt (s : State) (p : Nat) : State :=
  match (s.part p).shadow with
  | none => s
  | some h =>
    if !h.promoting then s
    else if h.leader then
      ((h.backlog.foldl (fun (t : State) i => t.toPeer p (.input i)) s).toPeer p (.boundary (s.part p).orbit)).promoted p
    else match h.upTo with
      | some m => if m ≤ (s.part p).orbit then s.promoted p else s
      | none => s

/-- The comparison of the two digests of an orbit on the shadow, where both are known (R525). -/
def State.compareDigest (s : State) (p n : Nat) : State :=
  match (s.part p).shadow with
  | none => s
  | some h =>
    match kvGet? h.captured n, kvGet? h.received n with
    | some mine, some (theirs, v) =>
      let h1 := { h with captured := kvDel h.captured n, received := kvDel h.received n }
      if v || h.void.contains n then s.modPart p (fun x => { x with shadow := some h1 })
      else if mine ≠ theirs then s.shadowFail p 4
      else
        let c := satAdd 0xFFFF h.clean 1
        let done := decide (max 1 (s.fget Reg.GLB_SHD_CTRL_CLEAN_N [p]) ≤ c) && !h.promoting
        let s1 := s.modPart p (fun x => { x with shadow := some { h1 with clean := c, promoting := h.promoting || done } })
        if done then s1.toPeer p .promote else s1
    | _, _ => s

/-- The orbits a shadow trails its leader: those the leader has closed and it has not (R525).
DEDUCED: assumption 47. -/
def Shadow.lag (h : Shadow) (orbit : Nat) : Nat := h.received.foldl (fun a e => max a (e.1 + 1 - orbit)) 0

/-- SHADOW_JOIN: the shadow receives JOIN with n0 and the key: its ORBIT_NUM becomes n0 and its hold is lifted (R521). -/
def execShadowJoin (p n0 : Nat) (key : BitVec 256) (s : State) : Outcome :=
  .next (match (s.part p).shadow with
    | none => s
    | some h =>
      if h.leader || h.joined || decide (16 ≤ p) then s
      else s.modPart p (fun x => { x with
        orbit := n0 % 2 ^ 40
        held := false
        shadow := some { h with joined := true, n0 := n0 % 2 ^ 40, key := key }
        shadowState := 2 }))

/-- What a forwarded input does on the shadow; none where it names no registered DECL, or no queue pair with a bound
context (R522).
DEDUCED: assumption 39. -/
def State.applyForward (s : State) (p : Nat) (i : ShadowInput) : Option State :=
  match i with
  | .descriptor q d =>
    if s.qpValid q && decide (s.qpPart q = p) then some (s.pushDesc q d) else none
  | .store decl off bs =>
    (match s.objOfDecl p decl with
     | some (h, o) => if off + bs.length ≤ o.size then some (s.storeObj h off bs) else none
     | none => none)
  | .publish decl off expected new =>
    (match s.objOfDecl p decl with
     | some (h, o) =>
       if off + 8 ≤ o.size then
         some (if s.wordAt h off = expected then s.storeObj h off (natBytes 8 new) else s)
       else none
     | none => none)
  | .message q m =>
    (match (s.group q).head? with
     | some c => (match s.ctx? c with
       | some x =>
         let a := BitVec.ofNat 8 (field m.header 6 1)
         if x.part = p then some (s.setCtx c ({ x with ring := x.ring ++ [m] }.setAc a (x.getAc a + 1))) else none
       | none => none)
     | none => none)

/-- SHADOW_FORWARD: an input the leader forwards is applied on the shadow (R522). -/
def execShadowForward (p : Nat) (i : ShadowInput) (s : State) : Outcome :=
  .next (match (s.part p).shadow with
    | none => s
    | some h =>
      if h.leader || !h.joined then s
      else match s.applyForward p i with
        | some t => t
        | none => s.shadowFail p 7)

/-- SHADOW_DIGEST: the leader's digest of an orbit comes to the shadow, which compares it with its own, or fails where it
trails too far (R525).
DEDUCED: assumption 47. -/
def execShadowDigest (p n : Nat) (d : BitVec 256) (v : Bool) (s : State) : Outcome :=
  .next (match (s.part p).shadow with
    | none => s
    | some h =>
      if h.leader || !h.joined then s
      else
        let h1 := { h with received := kvSet h.received n (d, v) }
        let s1 := s.modPart p (fun x => { x with shadow := some h1 })
        if s.fget Reg.GLB_SHD_CTRL_LAG_MAX [p] < h1.lag (s.part p).orbit then s1.shadowFail p 3
        else s1.compareDigest p n)

/-- SHADOW_PROMOTE: on a leader, PROMOTE arrives, and its next boundary ends forwarding; on the shadow, the leader names
boundary m (R526). -/
def execShadowPromote (p m : Nat) (s : State) : Outcome :=
  .next (match (s.part p).shadow with
    | none => s
    | some h =>
      if !h.joined then s
      else if h.leader then s.modPart p (fun x => { x with shadow := some { h with promoting := true } })
      else if !h.promoting then s
      else (s.modPart p (fun x => { x with shadow := some { h with upTo := some m } })).promoteAt p)

/-- SHADOW_FAIL: a shadowing fails for a cause its device learns of: its peer's, or the loss of the peer link (R527). -/
def execShadowFail (p cause : Nat) (s : State) : Outcome :=
  .next (if 1 ≤ cause ∧ cause ≤ 7 then s.shadowFail p cause else s)

end Sys2Proof.Machine
end

