-- ==== Sys2Proof/Machine/Link.lean ====
section
/-!
DEFINITION. The optical link (R407 to R426), the IDE of links (R390 to R392), presence and admission (R387, R426, R542),
and viral from a partner (R394).
-/
namespace Sys2Proof.Machine

/-! ### Ports, lanes and fibres (R413, R423) -/

/-- The causes of LAST_CAUSE (R427). -/
inductive Cause where
  | los | laser | uncorr | skew | map | width | ide | command | cxl | oe | pstate | peer
  deriving DecidableEq, Repr

/-- The code of a cause (R427). -/
def causeCode : Cause → Nat
  | .los => 1 | .laser => 2 | .uncorr => 3 | .skew => 4 | .map => 5 | .width => 6 | .ide => 7 | .command => 8
  | .cxl => 9 | .oe => 10 | .pstate => 11 | .peer => 12

/-- The place of a cause's code in the order of R419, by which LAST_CAUSE takes one of several that apply in one cycle. -/
def causeRank : Nat → Nat
  | 10 => 0 | 11 => 1 | 2 => 2 | 1 => 3 | 7 => 4 | 3 => 5 | 4 => 6 | 5 => 7 | 6 => 8 | 8 => 9 | 12 => 10 | _ => 11

/-- The lanes of a WIDTH code (R427). -/
def widthLanes (c : Nat) : Nat := 2 ^ (c + 1)

/-- The lanes a port is bound to (R413). -/
def State.boundLanes (s : State) (n : Nat) : Nat := widthLanes (s.fget Reg.LINK_PORT_CFG_WIDTH [n])

/-- The engine of a unit: eight units each (R17). -/
def engineOf (n : Nat) : Nat := n / 8

/-- The laser fibres that feed a port: 2 × engine for A, which feeds the units 0 to 3 of the engine, and one more for B
(R423). -/
def State.fibresOf (s : State) (n : Nat) : List Nat :=
  let us := span n (n + s.boundLanes n / 2)
  (if us.any (fun u => decide (u % 8 < 4)) then [2 * engineOf n] else []) ++
  (if us.any (fun u => decide (4 ≤ u % 8)) then [2 * engineOf n + 1] else [])

/-- Whether a unit is the home of a port with a role. -/
def State.livePort (s : State) (n : Nat) : Bool :=
  decide (n < 256) && decide (s.role n ≠ 0) && s.fget Reg.LINK_PORT_CFG_HOME [n] == 1

/-- Whether the engine of a port is in service (R425). -/
def State.engineUp (s : State) (n : Nat) : Bool := bitAt (engineOf n) (s.fget Reg.GLB_UNIT_AVAIL_OE_IN_SERVICE [])

/-- The state with the link bookkeeping changed. -/
def State.modLink (s : State) (f : Links → Links) : State := { s with link := f s.link }

/-- The training state of a port (R415). -/
def State.portState (s : State) (n : Nat) : Nat := s.fget Reg.LINK_PORT_STAT_STATE [n]

/-- A port enters a training state. -/
def State.setPort (s : State) (n st : Nat) : State := s.fset Reg.LINK_PORT_STAT_STATE [n] st

/-- A LINK record of the device queue (R480). -/
def State.linkRec (s : State) (status code n : Nat) : State :=
  let w := if n = 256 then s.regW .LINK_PILOT_STAT [] else s.regW .LINK_PORT_STAT [n]
  s.appendDev ⟨status, clsLink, code, 16, 0, 0, n, w.toNat, (s.pbrOfPort n).getD 0, s.now⟩

/-- Whether LAST_CAUSE was set in this cycle by a cause that comes before another in the order of R419. -/
def State.outranked (s : State) (n : Nat) (c : Cause) : Bool :=
  decide (kvGet? s.link.exits n = some s.now) &&
  decide (causeRank (s.fget Reg.LINK_PORT_STAT_LAST_CAUSE [n]) ≤ causeRank (causeCode c))

/-- LAST_CAUSE takes the cause of an exit from ACTIVE or of a failed training, the first in order of those of one cycle
(R419). -/
def State.noteCause (s : State) (n : Nat) (c : Cause) : State :=
  if s.outranked n c then s
  else (s.fset Reg.LINK_PORT_STAT_LAST_CAUSE [n] (causeCode c)).modLink (fun l => { l with exits := kvSet l.exits n s.now })

/-- A port leaves ACTIVE for a state with a cause (R416, R419): the exit is counted, the link score falls, and the time
to its loss runs. A port that trains takes the state and the cause only. -/
def State.leaveActive (s : State) (n st : Nat) (c : Cause) : State :=
  let s1 := ((s.setPort n st).noteCause n c).modLink (fun l => { l with failed := setDel l.failed n })
  if s.portState n = 6 then
    ((s1.fset Reg.LINK_PORT_STAT_LANE_LOCK [n] 0).modLink (fun l => { l with away := setIns l.away n })).fsat
      Reg.LINK_PORT_ERR_RETRAINS [n] 1 |>.linkEvent n 8
  else s1

/-- A trigger of R416 takes a port out of ACTIVE; on a port that left it in this very cycle, the trigger's cause and state
stand where the trigger comes first in the order of R419. -/
def State.trigger (s : State) (n st : Nat) (c : Cause) : State :=
  if s.active n then s.leaveActive n st c
  else if decide (kvGet? s.link.exits n = some s.now) && s.link.away.contains n && !s.link.failed.contains n && !s.outranked n c then
    (s.setPort n st).noteCause n c
  else s

/-! ### IDE (R390 to R392) -/

/-- Whether the device is the key-management requester on a link (R391).
DEDUCED: assumption 46. -/
def State.ideRequester (s : State) (n : Nat) : Bool :=
  if n = 256 then true
  else match s.role n with
    | 2 => true
    | 3 => (match s.ownPbr, s.pbrOfPort n with
      | some a, some b => decide (a < b)
      | _, _ => false)
    | _ => false

/-- Key management of a link begins (R391, R392). -/
def State.startIde (s : State) (n : Nat) : State :=
  let r := s.ideRequester n
  let s1 := (s.fset Reg.LINK_IDE_STAT_STATE [n] 1).fset Reg.LINK_IDE_STAT_REQUESTER [n] (bit01 r)
  if r then s1.emit (.ideStart n) else s1

/-- IDE_KEY_MANAGEMENT: key management of a link, 256 being the pilot link, ends with both streams established (R390,
R391, R557). `root` is the hash of the root of the partner's certificate chain: where the device is requester and the
sealed manifest names anchors, it must be one of them (R462). -/
def execIdeKeyManagement (n : Nat) (root : BitVec 512) (s : State) : Outcome :=
  .next (
    let known := s.anchors.isEmpty || s.anchors.contains root || !s.ideRequester n
    if !known then s
    else if n = 256 then
      if s.fget Reg.LINK_PILOT_STAT_CXL_UP [] = 1 then s.fset Reg.LINK_PILOT_STAT_IDE_STATE [] 2 else s
    else if s.active n && decide (s.fget Reg.LINK_IDE_STAT_STATE [n] = 1) then
      (s.fset Reg.LINK_IDE_STAT_STATE [n] 2).fset Reg.LINK_IDE_STAT_REQUESTER [n] (bit01 (s.ideRequester n))
    else s)

/-- IDE_KEY_REFRESH: the keys of a link's streams are refreshed, switching key sets without losing a flit (R391). -/
def execIdeKeyRefresh (n : Nat) (s : State) : Outcome :=
  .next (if n < 256 ∧ s.secure n = true then
      (s.fset Reg.LINK_IDE_STAT_KEYSET [n] (1 - s.fget Reg.LINK_IDE_STAT_KEYSET [n])).fsat
        Reg.LINK_IDE_STAT_ROLLOVERS [n] 1
    else s)

/-! ### What a partner's loss does (R262, R296, R418) -/

/-- Every request outstanding on a tray's port meets a failure event (R262, R418). -/
def State.failPort (s : State) (n : Nat) : State :=
  ((s.reqs.filter (fun r => decide (r.port = n) && decide (r.tier = 2) && decide (r.state ≠ .answered) &&
      decide (r.state ≠ .returning))).foldl
    (fun (t : State) r => match t.req? r.id with
      | some q => if q.port = n ∧ q.state ≠ .answered then t.failReq r.id false else t
      | none => t) s).finishAccs

/-- The tray on a port, where one is admitted. -/
def State.trayOn (s : State) (n : Nat) : Option Nat :=
  if s.fget Reg.MGT_DISC_ADMITTED [n] = 1 then some (s.fget Reg.MGT_DISC_TRAY [n]) else none

/-- The parts of messages held for a peer port go to another port in ACTIVE that leads to their destination (R418). -/
def State.rerouteParts (s : State) (n : Nat) : State :=
  { s with reqs := s.reqs.map (fun (r : Req) =>
      if r.tier = 3 ∧ r.port = n ∧ r.state ≠ .sent then
        match s.workOf r.owner with
        | some (p, q) => (match q.op with
          | .message en _ _ =>
            let m := s.peerPort (rePbr (kvGet [] (s.mapOfGen p q.gen) en))
            { r with port := m, out := m }
          | _ => r)
        | none => r
      else r) }

/-- The shadowings whose peer only the lost port led to fail with cause LINK (R527). -/
def State.shadowLinkLoss (s : State) : State :=
  partIds.foldl (fun (t : State) p =>
    if (t.part p).shadow.isSome && decide (t.peerPort (t.fget Reg.GLB_SHD_CTRL_PEER_PBR [p]) = 271) then
      t.shadowFail p 5 else t) s

/-- What the loss of a port does by its role (R418): the accelerator there is crashed, the tray fails out, or partitions
and shadowings lose their peer. -/
def State.lossOfRole (s : State) (n : Nat) : State :=
  match s.role n with
  | 1 => ((s.crashAccel n).finishAccs.fset Reg.MGT_DISC_PBR_VALID [n] 0).fset Reg.MGT_DISC_PBR [n] 0
  | 2 =>
    let s3 := s.failPort n
    let s4 := match s3.trayOn n with
      | some t => s3.failOut t
      | none => s3
    s4.fset Reg.MGT_DISC_ADMITTED [n] 0
  | 3 => (s.rerouteParts n).shadowLinkLoss
  | _ => s

/-- A port that is lost trains on from DETECT, unless it is held DARK (R415, R418). -/
def State.fromDetect (s : State) (n : Nat) : State := if s.portState n = 0 then s else s.setPort n 1

/-- A port becomes lost (R418): its link layer and IDE streams end, LOSSES and LOST show it, a LINK record of code 2 is
appended, it trains on from DETECT, and its partner's role says what follows.
DEDUCED: assumption 43. -/
def State.losePort (s : State) (n : Nat) : State :=
  let s1 := ((s.fset Reg.LINK_IDE_STAT_STATE [n] 0).fsat Reg.LINK_PORT_ERR_LOSSES [n] 1).fset Reg.LINK_PORT_STAT_LOST [n] 1
  (((s1.modLink (fun l => { l with away := setDel l.away n })).linkRec stAborted 2 n).fromDetect n).lossOfRole n

/-- PORT_LOST: a port has been out of ACTIVE for RETRAIN_T (R418).
DESIGN CHOICE: assumption 3. DEDUCED: assumption 43. -/
def execPortLost (n : Nat) (s : State) : Outcome :=
  .next (if s.link.away.contains n && decide (s.portState n ≠ 6) then s.losePort n else s)

/-- IDE_INTEGRITY_FAILURE: a MAC fails on a link, 256 being the pilot link (R392): the stream fails, the failure is
recorded and lowers the link score (R517), the link retrains to be re-keyed, and requests in flight over it meet the
rule of the role. -/
def execIdeIntegrityFailure (n : Nat) (s : State) : Outcome :=
  .next (if n = 256 then
      if s.fget Reg.LINK_PILOT_STAT_IDE_STATE [] = 2 then
        (s.fset Reg.LINK_PILOT_STAT_IDE_STATE [] 3).linkRec stAccess 1 256
      else s
    else if !(s.active n && s.secure n) then s
    else
      let s1 := (((s.fset Reg.LINK_IDE_STAT_STATE [n] 3).fsat Reg.LINK_IDE_STAT_MAC_FAILS [n] 1).linkRec stAccess 1 n).linkEvent n 64
      let s2 := s1.leaveActive n 2 .ide
      match s.role n with
      | 1 => (s2.crashAccel n).finishAccs
      | 2 => s2.failPort n
      | 3 => s2.rerouteParts n
      | _ => s2)

/-- VIRAL_RECEIVED: a viral indication from a partner is recorded; the link stays in service (R394). -/
def execViralReceived (n : Nat) (s : State) : Outcome :=
  .next (if s.active n || (decide (n = 256) && s.fget Reg.LINK_PILOT_STAT_CXL_UP [] == 1) then s.linkRec stAborted 3 n else s)

/-! ### Frames (R408 to R412) -/

/-- The symbols corrected in the codeword of each port lane are counted (R408, R427). -/
def State.countCorrected (s : State) (n : Nat) (errors : List Nat) : State :=
  ((errors.take (s.boundLanes n)).zipIdx).foldl (fun (t : State) e =>
    if e.1 ≤ maxCorrected then t.fwrap Reg.LINK_LANE_MARGIN_CORR_SYM [2 * n + e.2] e.1 else t) s

/-- Link-layer retry asks again for the flits of a frame that failed their CRC (R411). -/
def State.askAgain (s : State) (n : Nat) (fails : List Nat) : State := if fails.isEmpty then s else s.emit (.retry n fails)

/-- A data frame whose codewords have all been decoded brings its flits to the CXL link layer; one that fails its CRC is
counted (R409 to R411). -/
def State.takeFrame (s : State) (n : Nat) (words : List Codeword) (bad : List Nat) : State :=
  let w := widthLanes (s.fget Reg.LINK_PORT_STAT_TRAINED_W [n])
  let fails := (List.range (slotCount w)).filter (fun k => bad.contains k)
  (s.modLink (fun l => { l with
    fseq := kvSet l.fseq n (words.headD ⟨0, []⟩).fseq
    flits := kvPut [] l.flits n (receiveFrame w words bad) })).fsat Reg.LINK_PORT_ERR_CRC_FAIL [n] fails.length |>.askAgain n fails

/-- DATA_FRAME: a frame of codewords is received on a port in ACTIVE (R408 to R412): `errors` symbols in error on each port
lane; one codeword with more than the code corrects discards the frame. `bad` are the slots whose flit fails its CRC. A frame
that carries LCW DARK, or a training frame, takes the port out of ACTIVE (R416, R422). -/
def execDataFrame (n : Nat) (words : List Codeword) (errors bad : List Nat) (s : State) : Outcome :=
  .next (if !s.active n then s
    else
      let s1 := s.countCorrected n errors
      if errors.any (fun e => decide (maxCorrected < e)) then (s1.fsat Reg.LINK_PORT_ERR_UNCORR [n] 1).emit (.retry n [])
      else if words.any (fun c => decide (c.lcw = 1)) || words.any (fun c => decide (c.type = 2)) then s1.leaveActive n 2 .peer
      else if (words.headD ⟨0, []⟩).type = 0 then s1.takeFrame n words bad
      else s1)

/-! ### Training (R414, R415) -/

/-- The lowest start of an aligned group of `w` lanes among `b` that a mask holds whole (R414). -/
def lowestGroup (mask w b : Nat) : Option Nat :=
  ((List.range (b / w)).map (fun i => i * w)).find? (fun a => (span a (a + w)).all (fun i => bitAt i mask))

/-- The code of the link width of R414: the largest width that neither end's binding exceeds and of which each end
reports lock on an aligned group of the other's lanes; with FALLBACK at 0 only the smaller bound width. -/
def trainedWidth (mine theirs myLock theirLock : Nat) (fallback : Bool) : Option Nat :=
  let top := min mine theirs
  let ok := fun c => (lowestGroup theirLock (widthLanes c) (widthLanes mine)).isSome &&
    (lowestGroup myLock (widthLanes c) (widthLanes theirs)).isSome
  let cs := if fallback then (List.range (top + 1)).reverse else [top]
  cs.find? ok

/-- A training fails with a cause (R415); it begins again at DETECT 1 ms later. -/
def State.failTraining (s : State) (n : Nat) (c : Cause) : State :=
  if s.link.failed.contains n && decide (kvGet? s.link.exits n ≠ some s.now) then s
  else (s.noteCause n c).modLink (fun l => { l with failed := setIns l.failed n })

/-- A port reaches ACTIVE (R415, R417, R418): a link kept within RETRAIN_T keeps its IDE streams; a new link, and one
whose stream failed, is keyed. The partner of a link that was lost is a new one (R296). -/
def State.enterActive (s : State) (n w : Nat) : State :=
  let fresh := s.fget Reg.LINK_PORT_STAT_LOST [n] == 1 || decide (s.fget Reg.LINK_IDE_STAT_STATE [n] ≠ 2)
  let s1 := (((s.setPort n 6).fset Reg.LINK_PORT_STAT_TRAINED_W [n] w).fset Reg.LINK_PORT_STAT_LOST [n] 0).modLink
    (fun l => { l with away := setDel l.away n })
  let lost := s.fget Reg.LINK_PORT_STAT_LOST [n] == 1
  let s2 := if lost || s.fget Reg.MGT_DISC_PRESENT [n] == 0 then s1.modLink (fun l => { l with anew := setIns l.anew n }) else s1
  let s3 := if lost then s2.renewPort n else s2
  if fresh then s3.startIde n else s3

/-- TRAINING_STATE_END: a port completes the work of its training state and enters the next (R415). `lock` is the mask of
port lanes that are lit or locked: two in DETECT, each lane with codeword lock in ALIGN. -/
def execTrainingStateEnd (n lock : Nat) (s : State) : Outcome :=
  .next (if !s.livePort n || s.link.failed.contains n then s
    else match s.portState n with
      | 1 =>
        if (s.fibresOf n).any (fun f => s.link.dim.contains f) || decide (popCount lock < 2) then s else s.setPort n 2
      | 2 => s.setPort n 3
      | 3 => (s.setPort n 4).fset Reg.LINK_PORT_STAT_LANE_LOCK [n] lock
      | 4 => s.setPort n 5
      | 5 =>
        (match kvGet? s.link.partner n with
         | none => s
         | some (w, theirs) =>
           let mine := s.fget Reg.LINK_PORT_CFG_WIDTH [n]
           let fb := s.fget Reg.LINK_PORT_CFG_FALLBACK [n] == 1
           (match (if 4 ≤ w then none
               else trainedWidth mine w (s.fget Reg.LINK_PORT_STAT_LANE_LOCK [n]) theirs fb) with
            | some c => s.enterActive n c
            | none => s.failTraining n .width))
      | _ => s)

/-- TRAINING_FRAME: a training frame of the partner (R415): its bound width and receive-lock mask are kept for NEGOTIATE;
`version` other than 1 fails there with WIDTH, and a repeated or out-of-range LANE value (`badLane`) with MAP. In ACTIVE
it starts a retrain (R416).
DEDUCED: assumption 43. -/
def execTrainingFrame (n width lock version : Nat) (badLane : Bool) (s : State) : Outcome :=
  .next (if !s.livePort n then s
    else
      let s1 := s.modLink (fun l => { l with partner := kvSet l.partner n (if version = 1 then width % 4 else 4, lock % 2 ^ 16) })
      if s.portState n = 5 ∧ badLane = true then s1.failTraining n .map else s1.trigger n 2 .peer)

/-- TRAINING_TIMEOUT: a training state exceeds its bound, and the training fails with the state's cause (R415).
DESIGN CHOICE: assumption 4. -/
def execTrainingTimeout (n : Nat) (s : State) : Outcome :=
  .next (if !s.livePort n then s
    else match s.portState n with
      | 2 => s.failTraining n .los
      | 3 => s.failTraining n .los
      | 4 => s.failTraining n .skew
      | 5 => s.failTraining n .width
      | _ => s)

/-- TRAINING_RESTART: 1 ms after it failed, a training begins again at DETECT (R415). -/
def execTrainingRestart (n : Nat) (s : State) : Outcome :=
  .next (if s.link.failed.contains n && s.livePort n then
      (s.setPort n 1).modLink (fun l => { l with failed := setDel l.failed n, partner := kvDel l.partner n })
    else s)

/-! ### What takes a port out of ACTIVE (R416, R422, R424) -/

/-- LOSS_OF_LIGHT: light is lost on an active lane for 1 µs (R416). -/
def execLossOfLight (n : Nat) (s : State) : Outcome := .next (if s.livePort n then s.trigger n 2 .los else s)

/-- UNCORR_LIMIT: a 1 ms window has brought more uncorrectable codewords than UNC_MAX, whose 0 is taken as 1 (R416,
R427). -/
def execUncorrLimit (w : UncorrWindow) (s : State) : Outcome :=
  .next (if s.livePort w.port && decide (max 1 (s.fget Reg.LINK_CFG_UNC_MAX []) < w.count) then s.trigger w.port 2 .uncorr else s)

/-- The reading of a laser fibre, in 10 µW. -/
def State.setLaser (s : State) (f v : Nat) : State :=
  if f % 2 = 0 then s.fset Reg.LINK_OE_STAT_LASER_A [f / 2] v else s.fset Reg.LINK_OE_STAT_LASER_B [f / 2] v

/-- LASER_LOW: a laser fibre has stayed below LASER_MIN, in 0.1 mW, for 10 µs at a reading in 10 µW: its ports leave
ACTIVE and wait in DETECT (R424). -/
def execLaserLow (f v : Nat) (s : State) : Outcome :=
  .next (if decide (64 ≤ f) || decide (10 * s.fget Reg.LINK_CFG_LASER_MIN [] ≤ v) then s
    else
      let s1 := (s.setLaser f v).modLink (fun l => { l with dim := setIns l.dim f })
      ((List.range 256).filter (fun n => s.livePort n && (s.fibresOf n).contains f)).foldl
        (fun (t : State) n => t.trigger n 1 .laser) s1)

/-- LASER_RESTORED: a laser fibre has held at or above LASER_MIN for 1 ms (R424). -/
def execLaserRestored (f v : Nat) (s : State) : Outcome :=
  .next (if decide (64 ≤ f) || decide (v < 10 * s.fget Reg.LINK_CFG_LASER_MIN []) then s
    else (s.setLaser f v).modLink (fun l => { l with dim := setDel l.dim f }))

/-- A P2 request (R422): sixteen control frames with LCW DARK, then no light; the port is DARK at once. -/
def State.goDark (s : State) (n : Nat) : State :=
  if s.portState n = 0 then s.fset Reg.LINK_PORT_STAT_PSTATE [n] 2
  else ((s.leaveActive n 0 .pstate).fset Reg.LINK_PORT_STAT_PSTATE [n] 2).emit (.dark n)

/-- A write of PSTATE_REQ (R422): 2 and 3 put the port into P2, and 0 and 1 return it to DETECT. -/
def State.writePstate (s : State) (n q : Nat) : State :=
  let s1 := s.fset Reg.LINK_PORT_CTRL_PSTATE_REQ [n] (min q 2)
  if !s.livePort n || !s.engineUp n then s1
  else if 2 ≤ q then s1.goDark n
  else if s.fget Reg.LINK_PORT_STAT_PSTATE [n] = 2 then (s1.setPort n 1).fset Reg.LINK_PORT_STAT_PSTATE [n] 0
  else s1

/-- A write of LINK_PORT_CTRL of a port (R416, R422). -/
def State.writePortCtrl (s : State) (n : Nat) (v : Word) : State :=
  let s1 := s.writePstate n (bitsOf 9 8 v.toNat)
  if bitAt 0 v.toNat then s1.trigger n 2 .command else s1

/-- DARK_RECEIVED: a receiver sees LCW DARK on a lane (R422).
DEDUCED: assumption 43. -/
def execDarkReceived (n : Nat) (s : State) : Outcome := .next (if s.livePort n then s.trigger n 2 .peer else s)

/-- P1_ENTRY: a transmitter in ACTIVE has had no flit to send for IDLE_T (R421). -/
def execP1Entry (n : Nat) (s : State) : Outcome :=
  .next (if s.active n && decide (s.fget Reg.LINK_CFG_IDLE_T [] ≠ 0) &&
      decide (s.fget Reg.LINK_PORT_CTRL_PSTATE_REQ [n] ≠ 1) && decide (s.fget Reg.LINK_PORT_STAT_PSTATE [n] = 0) then
      s.fset Reg.LINK_PORT_STAT_PSTATE [n] 1
    else s)

/-- P1_EXIT: a flit is ready, and the transmitter leaves P1 (R421). -/
def execP1Exit (n : Nat) (s : State) : Outcome :=
  .next (if s.active n && decide (s.fget Reg.LINK_PORT_STAT_PSTATE [n] = 1) then s.fset Reg.LINK_PORT_STAT_PSTATE [n] 0 else s)

/-! ### Engines (R425, R499) -/

/-- An optical engine leaves service for a fault: 1 over-temperature, 2 modulator driver, 3 control interface. Its UNIT
record of code 3 is appended, and its ports become DARK and lost at once. -/
def State.loseEngine (s : State) (j fault : Nat) : State :=
  let up := s.fget Reg.GLB_UNIT_AVAIL_OE_IN_SERVICE []
  if 32 ≤ j ∨ bitAt j up = false then s
  else
    let s1 := ((s.fset Reg.GLB_UNIT_AVAIL_OE_IN_SERVICE [] (up - 2 ^ j)).fset Reg.LINK_OE_STAT_IN_SERVICE [j] 0).fset
      Reg.LINK_OE_STAT_FAULT [j] fault
    let s2 := s1.appendDev ⟨stAborted, clsUnit, 3, 16, 0, 4, j, 0, 0, s.now⟩
    ((span (8 * j) (8 * j + 8)).filter (fun n => s.livePort n)).foldl (fun (t : State) n =>
      (t.leaveActive n 0 .oe).losePort n) s2

/-- OE_LEAVES_SERVICE: a modulator driver fails or the control interface stops answering (R425). -/
def execOeLeavesService (j fault : Nat) (s : State) : Outcome :=
  .next (if fault = 2 ∨ fault = 3 then s.loseEngine j fault else s)

/-! ### Presence and admission (R387, R426, R542) -/

/-- The tray number an arriving tray takes: that of the OUT tray its port holds, else the lowest ABSENT one (R542). -/
def State.trayNumber (s : State) (n : Nat) : Option Nat :=
  let t := s.fget Reg.MGT_DISC_TRAY [n]
  if t < 24 ∧ s.trayState t = 5 then some t else (List.range 24).find? (fun y => decide (s.trayState y = 0))

/-- The capacity of all admitted trays in GiB (R387). -/
def State.admittedGib (s : State) : Nat :=
  ((List.range 256).map (fun n => match s.trayOn n with
    | some t => s.trayCap t
    | none => 0)).sum

/-- A tray is admitted as SPARE with health 255, or the fabric manager is notified that it is not (R29, R387, R505,
R542). `fit` tells that it is a single-logical Type 3 device without dynamic capacity, in 256-byte standard flit mode,
that supports poison. -/
def State.admitTray (s : State) (n cap : Nat) (fit : Bool) : State :=
  match s.trayNumber n with
  | some t =>
    if fit && s.secure n && decide (s.admittedGib + cap ≤ 2 ^ 22) then
      let s1 := (((s.fset Reg.MGT_DISC_ADMITTED [n] 1).fset Reg.MGT_DISC_TRAY [n] t).fset Reg.PLACE_TRAY_STAT_CAP_GIB [t] cap).fset
        Reg.PLACE_TRAY_STAT_HEALTH [t] 255
      (((s1.setTray t 1 15).fset Reg.PLACE_MIR_STAT_HOLD [] 0)).settleMirrors
    else s.emit (.notAdmitted n)
  | none => s.emit (.notAdmitted n)

/-- PRESENCE_CHANGE: a port reports arrival or removal (R426, R542): MGT_DISC and PLUGS follow, an event record enters the
fabric-manager event log, an arriving tray of `cap` GiB is admitted where it can be, and the removal of an accelerator
makes it crashed (R544). The new link of a port that was lost is reported as an arrival too (R418).
DEDUCED: assumption 43. -/
def execPresenceChange (n : Nat) (arrive : Bool) (cap : Nat) (fit : Bool) (s : State) : Outcome :=
  .next (
    let ok := s.livePort n &&
      (if arrive then s.active n && decide (s.role n ≠ 3) && s.link.anew.contains n
       else !s.active n && (s.fget Reg.MGT_DISC_PRESENT [n] == 1 || decide (s.role n = 3)))
    if !ok then s
    else
      let s1 := ((s.fset Reg.MGT_DISC_PRESENT [n] (bit01 arrive)).fsat Reg.MGT_DISC_PLUGS [n] 1).modLink
        (fun l => { l with anew := setDel l.anew n })
      let s2 : State := { s1 with mgmt := { s1.mgmt with events := s1.mgmt.events ++ [(n, arrive)] } }
      if arrive then (if s.role n = 2 then s2.admitTray n cap fit else s2.renewPort n)
      else if s.role n = 1 then (s2.crashAccel n).finishAccs else s2)

end Sys2Proof.Machine
end

