-- ==== Sys2Proof/Machine/Power.lean ====
section
/-!
DEFINITION. Power, temperature and clocks (R430 to R449, R477): the start-up sequence up to boot, the held-off state, the
power cap, clock stretch, thermal limits, and the cycle counters with their snapshot.
-/
namespace Sys2Proof.Machine

/-- The state with the power side changed. -/
def State.modPwr (s : State) (f : Power → Power) : State := { s with pwr := f s.pwr }

/-- The state with the clocks changed. -/
def State.modClk (s : State) (f : Clocks → Clocks) : State := { s with clk := f s.clk }

/-! ### Cycle counters (R446 to R449) -/

/-- The count of a clock domain (R448). -/
def State.cycles (s : State) (d : Nat) : Nat := if d = 4 then s.now else kvGet 0 s.clk.count d

/-- A domain leaves reset: it counts from zero (R448). -/
def State.startClock (s : State) (d : Nat) : State :=
  if d = 4 then ({ s with now := 0 } : State).modClk (fun c => { c with up := setIns c.up 4, frac := kvDel c.frac 4 })
  else s.modClk (fun c => { c with
    up := setIns c.up d
    count := kvDel c.count d
    frac := kvDel c.frac d })

/-- The crossing latency of a counter's snapshot, in cycles of its own domain (R447). -/
def crossing (d : Nat) : Nat :=
  if d < 4 then 4 else if d = 5 ∨ d = 6 then 4 else if d = 7 ∨ d = 8 then 3 else 5

/-- A counter is latched (R449). -/
def State.latch (s : State) (d : Nat) : State :=
  (s.fset Reg.GLB_CYC_LATCH_COUNT [d] (s.cycles d)).modClk (fun c => { c with latching := kvDel c.latching d })

/-- DONE reads 1 when no snapshot is being latched. -/
def State.latchDone (s : State) : State := s.fset Reg.GLB_CYC_SNAP_DONE [] (bit01 s.clk.latching.isEmpty)

/-- A write of GLB_CYC_SNAP: SNAP starts a snapshot where none is being latched (R449). XBAR is latched at once, and so is
a domain that does not run. -/
def State.writeSnap (s : State) (v : Word) : State :=
  if bitAt 1 v.toNat && s.fget Reg.GLB_CYC_SNAP_DONE [] == 1 then
    ((List.range 17).foldl (fun (t : State) d =>
      if d = 4 ∨ t.clk.up.contains d = false then t.latch d
      else t.modClk (fun c => { c with latching := kvSet c.latching d (t.cycles d + crossing d) })) s).latchDone
  else s

/-- SNAP_LATCH_DONE: the crossing latencies have passed and the counters not yet latched are (R449). -/
def execSnapLatchDone (s : State) : Outcome :=
  .next ((kvKeys s.clk.latching).foldl (fun (t : State) d => t.latch d) s).latchDone

/-! ### Rails (R435, R437, R438) -/

/-- The groups in which rails 1 to 47 rise (R437). -/
def railGroup : Nat → List Nat
  | 0 => [1] | 1 => [2] | 2 => [3] | 3 => span 4 8 | 4 => span 8 16 | 5 => span 16 48 | _ => []

/-- The clock domains that leave reset with a rail (R435, R446). -/
def railDomains (r : Nat) : List Nat :=
  if r = 0 then [7, 8] else if r = 2 then [4] else if r = 3 then [5, 6]
  else if 4 ≤ r ∧ r < 8 then [r - 4] else if 8 ≤ r ∧ r < 16 then [r + 1] else []

/-- Whether a rail is good. -/
def State.railGood (s : State) (r : Nat) : Bool := s.fget Reg.MGT_RAIL_GOOD [r] == 1

/-- Whether rails 1 to 47 are down: before step 5 of R437 ends, in the held-off state, or in a boot halt (R551). -/
def State.railsDown (s : State) : Bool :=
  match s.pwr.phase with
  | .train => false
  | .ready => false
  | _ => true

/-- Whether VDD_AON is up (R437). -/
def State.aonUp (s : State) : Bool :=
  match s.pwr.phase with
  | .off => false
  | .debounce => false
  | .bus => false
  | .aon => false
  | .earlyFault => false
  | _ => true

/-- The level of LSENk (R432): its enable, and the good rails of both engines it feeds. -/
def State.lsen (s : State) (k : Nat) : Bool :=
  bitAt k (s.fget Reg.MGT_PWR_CTRL_LSEN []) && s.railGood (16 + 2 * k) && s.railGood (17 + 2 * k)

/-- The level of ALERT_N: true while driven low (R439, R445). -/
def State.alertLow (s : State) : Bool := s.pwr.alert || !s.pwr.hot.isEmpty

/-- The input is gone or out of range: every rail falls, and only what R459 and R536 keep outlives it (R433, R438). The
random source does not repeat its draws. -/
def State.powerDown (s : State) (p : PwrPhase) : State :=
  { State.reset with pending := s.pending, nv := s.nv, rng := s.rng, out := s.out, pwr := { State.reset.pwr with phase := p } }

/-- The register blocks on VDD_AON: PART, SEC, MGT and TELEM (R435).
DEDUCED: assumption 44. -/
def onAon (off : Nat) : Bool :=
  (decide (0x100000 ≤ off) && decide (off < 0x200000)) || (decide (0x1C00000 ≤ off) && decide (off < 0x2000000)) ||
  (decide (0x2400000 ≤ off) && decide (off < 0x3000000))

/-- Rails 47 down to 1 fall: what they fed is lost; the security island and the management core keep what they hold.
DEDUCED: assumption 44. -/
def State.dropRails (s : State) (p : PwrPhase) : State :=
  let s1 := s.powerDown p
  let s2 : State := { s1 with
    regs := s.regs.filter (fun e => onAon e.1)
    sl := s.sl
    manHash := s.manHash
    anchors := s.anchors
    running := s.running
    island := s.island
    tenantKeys := s.tenantKeys
    mgmt := { s.mgmt with bg := none }
    devq := s.devq
    tap := s.tap
    clk := { s.clk with up := s.clk.up.filter (fun d => d = 7 ∨ d = 8), latching := [] }
    pwr := { s1.pwr with pwrgd := s.pwr.pwrgd, perst := s.pwr.perst, seen := s.pwr.seen } }
  (span 1 48).foldl (fun (t : State) r => t.setRegW .MGT_RAIL [r] 0) s2

/-- The device enters the held-off state with a cause (R438): 1 rail fault, 2 thermal trip, 3 ILIMIT. -/
def State.holdOff (s : State) (cause rail sensor : Nat) : State :=
  if !s.aonUp || decide (s.pwr.phase = .heldOff) then s
  else
    let s1 := (s.dropRails .heldOff).modPwr (fun w => { w with thermtrip := decide (cause = 2) })
    ((s1.fset Reg.MGT_PWR_FAULT_CAUSE [] cause).fset Reg.MGT_PWR_FAULT_RAIL [] rail).fset Reg.MGT_PWR_FAULT_SENSOR [] sensor

/-- The input voltage, in 10 mV, as MGT_PWR_STAT shows it: DERATED reads 1 while it is below 46.0 V (R433, R450). -/
def State.showVin (s : State) (vin : Nat) : State :=
  (s.fset Reg.MGT_PWR_STAT_DERATED [] (bit01 (decide (vin < 4600)))).fset Reg.MGT_PWR_STAT_VIN [] vin

/-- VIN_RISE: VIN, in 10 mV, crosses 45.0 V and power-up starts with its debounce (R433, R437). -/
def execVinRise (vin : Nat) (s : State) : Outcome :=
  .next (if s.pwr.phase = .off ∧ 4500 < vin then
      (s.modPwr (fun w => { w with phase := .debounce })).showVin vin
    else s)

/-- DEBOUNCE_END: the debounce ends and BUS6 soft-starts (R437).
DESIGN CHOICE: assumption 4. -/
def execDebounceEnd (s : State) : Outcome :=
  .next (if s.pwr.phase = .debounce then s.modPwr (fun w => { w with phase := .bus }) else s)

/-- A rail that is good, with its readings (R450) and the domains it starts. -/
def State.raiseRail (s : State) (r mv cur pw : Nat) : State :=
  let s1 := (((s.fset Reg.MGT_RAIL_GOOD [r] 1).fset Reg.MGT_RAIL_MV [r] mv).fset Reg.MGT_RAIL_CUR [r] cur).fset Reg.MGT_RAIL_PWR [r] pw
  (railDomains r).foldl (fun (t : State) d => t.startClock d) s1

/-- RAIL_GOOD: a rail that is ramping becomes good, at a voltage in mV, a current in 0.1 A and a power in 0.1 W; when its
group is, the next step begins (R437).
DEDUCED: assumptions 44 and 48. -/
def execRailGood (r mv cur pw : Nat) (s : State) : Outcome :=
  .next (match s.pwr.phase with
    | .bus => if r = 48 then (s.raiseRail r mv cur pw).modPwr (fun w => { w with phase := .aon }) else s
    | .aon => if r = 0 then (s.raiseRail r mv cur pw).modPwr (fun w => { w with phase := .boot, pwrgd := true }) else s
    | .rails =>
      if (railGroup s.pwr.group).contains r && !s.railGood r && !s.tap.acted then
        let s1 := s.raiseRail r mv cur pw
        if (railGroup s.pwr.group).all (fun q => s1.railGood q) then
          s1.modPwr (fun w => if w.group = 5 then { w with phase := .train } else { w with group := w.group + 1 })
        else s1
      else s
    | _ => s)

/-- RAIL_FAULT: a rail is not good within 5 ms of its ramp, or leaves its good window for 10 µs once VDD_AON is good
(R437, R438). -/
def execRailFault (r : Nat) (s : State) : Outcome := .next (if r < 49 then s.holdOff 1 r 0 else s)

/-- EARLY_SUPPLY_FAULT: BUS6 or VDD_AON fails before VDD_AON is first good (R439). -/
def execEarlySupplyFault (s : State) : Outcome :=
  .next (if s.pwr.phase = .bus ∨ s.pwr.phase = .aon then
      (s.powerDown .earlyFault).modPwr (fun w => { w with alert := true })
    else s)

/-- VIN_OUT_OF_RANGE: VIN, in 10 mV, falls below 44.0 V or rises above 58.0 V (R433, R437).
DEDUCED: assumption 44. -/
def execVinOutOfRange (vin : Nat) (s : State) : Outcome :=
  .next (if ¬(vin < 4400 ∨ 5800 < vin) ∨ s.pwr.phase = .off then s
    else if s.pwr.phase = .debounce ∧ vin < 4400 then s
    else if s.pwr.phase = .earlyFault ∧ 5800 < vin then s
    else s.powerDown .off)

/-- DERATED: VIN, in 10 mV, moves into or out of the band from 44.0 V to 46.0 V (R433). -/
def execDerated (vin : Nat) (s : State) : Outcome :=
  .next (if s.aonUp && decide (4400 ≤ vin) && decide (vin ≤ 5800) then s.showVin vin else s)

/-- ILIMIT: the input current limit engages (R434). -/
def execIlimit (s : State) : Outcome := .next (if s.aonUp then s.fset Reg.MGT_PWR_STAT_ILIMIT [] 1 else s)

/-- ILIMIT_RELEASE: the limit stops holding (R434). -/
def execIlimitRelease (s : State) : Outcome := .next (if s.aonUp then s.fset Reg.MGT_PWR_STAT_ILIMIT [] 0 else s)

/-- ILIMIT_TIMEOUT: the limit has held for 10 ms without a break (R434, R438). -/
def execIlimitTimeout (s : State) : Outcome :=
  .next (if s.fget Reg.MGT_PWR_STAT_ILIMIT [] = 1 then s.holdOff 3 0 0 else s)

/-! ### Clock stretch (R441, R442) -/

/-- The demand of a cause on a stretched domain: 0 FULL, 1 HALF, 2 QUARTER. -/
def State.demand (s : State) (x c : Nat) : Nat := kvGet 0 s.pwr.demand (3 * x + c)

/-- The level in force of a domain: the deepest demand (R441). -/
def State.level (s : State) (x : Nat) : Nat := max (s.demand x 0) (max (s.demand x 1) (s.demand x 2))

/-- The cause of the level: 1 SAG, 2 THERM, 3 CAP, the first that demands it (R442). -/
def State.levelCause (s : State) (x : Nat) : Nat :=
  if s.level x = 0 then 0
  else if s.demand x 0 = s.level x then 1
  else if s.demand x 1 = s.level x then 2 else 3

/-- A cause demands a level of a domain: a change from FULL to a deeper level is an event (R442). -/
def State.setDemand (s : State) (x c l : Nat) : State :=
  let ev := [Reg.MGT_STRETCH_SAG_EVT, Reg.MGT_STRETCH_THERM_EVT, Reg.MGT_STRETCH_CAP_EVT].getD c Reg.MGT_STRETCH_CAP_EVT
  let s1 := if s.demand x c = 0 ∧ 0 < l then s.fsat ev [x] 1 else s
  let s2 := s1.modPwr (fun w => { w with demand := kvPut 0 w.demand (3 * x + c) l })
  (s2.fset Reg.MGT_STRETCH_LEVEL [x] (s2.level x)).fset Reg.MGT_STRETCH_CAUSE [x] (s2.levelCause x)

/-- L1 in force, in 0.1% below nominal: at least 20 (R450). -/
def State.sagL1 (s : State) : Nat := max 20 (s.fget Reg.MGT_SAG_CTRL_L1 [])

/-- L2 in force: at least L1 + 10 (R450). -/
def State.sagL2 (s : State) : Nat := max (s.sagL1 + 10) (s.fget Reg.MGT_SAG_CTRL_L2 [])

/-- SAG_DETECT: the rail of a domain falls `droop`, in 0.1%, below nominal: its detector demands HALF from L1, and QUARTER
from L2 (R441). -/
def execSagDetect (x droop : Nat) (s : State) : Outcome :=
  .next (if 5 ≤ x ∨ s.railsDown = true ∨ droop < s.sagL1 then s
    else s.setDemand x 0 (max (s.demand x 0) (if s.sagL2 ≤ droop then 2 else 1)))

/-- SAG_RECOVER: the rail has stayed above L1 for RECOVER cycles; the demand moves one level shallower (R441). -/
def execSagRecover (x : Nat) (s : State) : Outcome :=
  .next (if x < 5 ∧ 0 < s.demand x 0 then s.setDemand x 0 (s.demand x 0 - 1) else s)

/-- The temperature of a Hub or stack sensor: 0 to 5 Hub, 6 to 13 stacks (R450). -/
def State.temp (s : State) (i : Nat) : Nat :=
  if i < 6 then bitsOf (8 * i + 7) (8 * i) (s.regW .MGT_TEMP_HUB []).toNat
  else bitsOf (8 * (i - 6) + 7) (8 * (i - 6)) (s.regW .MGT_TEMP_HBM []).toNat

/-- A temperature is shown. -/
def State.setTemp (s : State) (i v : Nat) : State :=
  if i < 6 then s.setRegW .MGT_TEMP_HUB [] (BitVec.ofNat 64 (putBits (8 * i + 7) (8 * i) (s.regW .MGT_TEMP_HUB []).toNat v))
  else if i < 14 then s.setRegW .MGT_TEMP_HBM []
    (BitVec.ofNat 64 (putBits (8 * (i - 6) + 7) (8 * (i - 6)) (s.regW .MGT_TEMP_HBM []).toNat v))
  else s.fset Reg.LINK_OE_STAT_TEMP [i - 14] v

/-- Whether a stack's refresh interval is halved (R445). -/
def State.fastRefresh (s : State) (i : Nat) : Bool := decide (85 ≤ s.temp (6 + i))

/-- Whether a stack's controller issues at half its rate (R445). -/
def State.halfRate (s : State) (i : Nat) : Bool := decide (95 ≤ s.temp (6 + i))

/-- What a reading in °C does (R445): sensor 0 to 3 quadrants, 4 crossbar, 5 security island, 6 to 13 stacks, 14 on engines. -/
def State.thermal (s : State) (i v : Nat) : State :=
  let s1 := s.setTemp i v
  if i < 6 ∧ 110 ≤ v then s1.holdOff 2 0 i
  else if 6 ≤ i ∧ i < 14 ∧ 105 ≤ v then s1.holdOff 2 0 i
  else if i < 5 then
    if 102 ≤ v then s1.setDemand i 1 2
    else if 95 ≤ v then s1.setDemand i 1 (max 1 (s1.demand i 1)) else s1
  else if 14 ≤ i then
    let j := i - 14
    let s2 := s1.modPwr (fun w => { w with
      hot := if 75 ≤ v then setIns w.hot j else if v < 70 then setDel w.hot j else w.hot })
    if 85 ≤ v then s2.loseEngine j 1 else s2
  else s1

/-- THERMAL_READING: a sensor's reading is refreshed (R445). -/
def execThermalReading (i v : Nat) (s : State) : Outcome :=
  .next (if s.aonUp && decide (i < 46) && (decide (i < 6) || !s.railsDown) then s.thermal i (min v 255) else s)

/-- THERM_RECOVER: a domain's sensor has stayed below 90 °C for 1 ms; the demand moves one level shallower (R441). -/
def execThermRecover (x : Nat) (s : State) : Outcome :=
  .next (if x < 5 ∧ 0 < s.demand x 1 ∧ s.temp x < 90 then s.setDemand x 1 (s.demand x 1 - 1) else s)

/-! ### The power cap (R440) and what tenants see of power (R477) -/

/-- POWER_CAP_WINDOW: a 100 µs window ends with an average input power in W; VIN in 10 mV, IIN in 10 mA and PIN in W are
the readings it leaves (R440, R450). -/
def execPowerCapWindow (avg vin iin pin : Nat) (s : State) : Outcome :=
  .next (if s.railsDown then s
    else
      let s0 := ((s.showVin vin).fset Reg.MGT_PWR_STAT_IIN [] iin).fset Reg.MGT_PWR_STAT_PIN [] pin
      let lim := s.pwr.capLimit
      let d := s.demand 0 2
      let d' := if !s.pwr.capEn then 0 else if lim < avg then min 2 (d + 1) else if 100 * avg ≤ 95 * lim then d - 1 else d
      let s1 := (List.range 4).foldl (fun (t : State) x => t.setDemand x 2 d') s0
      let run := if s.pwr.capEn && decide (lim < avg) && decide (d = 2) then s.pwr.overRun + 1 else 0
      let s2 := (s1.fset Reg.MGT_PWR_STAT_CAPPING [] (bit01 (decide (0 < d')))).modPwr (fun w => { w with
        overRun := run
        capLimit := max 1000 (min 1800 (s.fget Reg.MGT_PWR_CTRL_PWR_LIMIT []))
        capEn := s.fget Reg.MGT_PWR_CTRL_CAP_EN [] == 1 })
      if avg ≤ lim then s2.fset Reg.MGT_PWR_STAT_OVER [] 0
      else if 10 ≤ run ∧ s.fget Reg.MGT_PWR_STAT_OVER [] = 0 then
        (s2.fset Reg.MGT_PWR_STAT_OVER [] 1).appendDev (Rec.noPart stBusy clsCapacity 2 0 0 pin 0 s.now)
      else s2)

/-- TENANT_POWER_WINDOW: at the end of a 20 ms window the power a tenant sees becomes its average, in W, rounded down to a
multiple of 10 W (R477). -/
def execTenantPowerWindow (avg : Nat) (s : State) : Outcome :=
  .next (if s.railsDown then s else s.modPwr (fun w => { w with seen := avg / 10 }))

/-! ### The pilot port (R401, R405, R437) -/

/-- The state with the pilot function changed. -/
def State.modPilot (s : State) (f : Pilot → Pilot) : State := { s with pilot := f s.pilot }

/-- PERST_N: the PERST_N land rises (R437). -/
def execPerstN (s : State) : Outcome := .next (s.modPwr (fun w => { w with perst := true }))

/-- PILOT_FUNCTION_READY: the pilot function stops answering Request Retry Status (R437). -/
def execPilotFunctionReady (s : State) : Outcome :=
  .next (if !s.railsDown && s.pwr.perst then s.modPilot (fun p => { p with ready := true }) else s)

/-- PILOT_LINK_TRAINING: the pilot link trains at a width and a rate, coded as LINK_PILOT_STAT codes them, with or without
CXL negotiation (R401). Too narrow, too slow or without CXL it is brought down, to train again after 1 s. A link that
comes up begins IDE key management (R557). -/
def execPilotLinkTraining (width rate : Nat) (cxl : Bool) (s : State) : Outcome :=
  .next (if s.railsDown then s
    else if (width = 1 ∨ width = 2) ∧ (rate = 1 ∨ rate = 2) ∧ cxl = true then
      let s1 := (((s.fset Reg.LINK_PILOT_STAT_WIDTH [] width).fset Reg.LINK_PILOT_STAT_RATE [] rate).fset
        Reg.LINK_PILOT_STAT_DEGRADED [] (bit01 (decide (width < 2) || decide (rate < 2)))).fset Reg.LINK_PILOT_STAT_CXL_UP [] 1
      (s1.fset Reg.LINK_PILOT_STAT_IDE_STATE [] 1).emit (.ideStart 256)
    else
      ((((s.fset Reg.LINK_PILOT_STAT_WIDTH [] 0).fset Reg.LINK_PILOT_STAT_RATE [] 0).fset Reg.LINK_PILOT_STAT_DEGRADED [] 0).fset
        Reg.LINK_PILOT_STAT_CXL_UP [] 0).fset Reg.LINK_PILOT_STAT_IDE_STATE [] 0)

/-- PILOT_D3HOT: the pilot function enters D3hot, or returns to D0 (R405).
DEDUCED: assumption 46. -/
def execPilotD3hot (enter : Bool) (s : State) : Outcome :=
  .next (if s.pilot.ready then s.modPilot (fun p => { p with d3hot := enter }) else s)

/-- PILOT_FLR: a function-level reset of the pilot function ends a mailbox command in progress with no response and
clears the MSI-X state; nothing else changes (R405).
DEDUCED: assumption 46. -/
def execPilotFlr (s : State) : Outcome :=
  .next (if s.pilot.ready then s.modPilot (fun p => { p with d3hot := false, msix := [] }) else s)

end Sys2Proof.Machine
end

