-- ==== Sys2Proof/Machine/Keys.lean ====
section
/-!
DEFINITION. Key slots (R464 to R474): the delivery of a key (R466, R467), the Keys step of a boundary (R468, R472), and
the retirement of a generation to the end of its scrub (R473, R474).
-/
namespace Sys2Proof.Machine

/-! ### Delivery (R466 to R467) -/

/-- The record in SEC_KD_BUF: 210 words. -/
def State.kdBytes (s : State) : List Byte :=
  (List.range 210).flatMap (fun i => natBytes 8 (s.regW .SEC_KD_BUF [i]).toNat)

/-- SEC_KD_BUF cleared. -/
def State.kdClear (s : State) : State :=
  (List.range 210).foldl (fun (t : State) i => t.setRegW .SEC_KD_BUF [i] 0) s

/-- SLOT of a delivery record (R466). -/
def kdSlot (d : List Byte) : Nat := field d 4 2
/-- TENANT of a delivery record. -/
def kdTenant (d : List Byte) : Nat := field d 8 4

/-- The first check of R467: the form of the record. -/
def kdForm (d : List Byte) : Bool :=
  decide (kdSlot d < 2048) && decide (field d 0 4 = 0x31444B54) && decide (field d 6 2 = 0) &&
  decide (field d 12 52 = 0) && decide (kdTenant d ≠ 0)

/-- The second: the pilot host controls the slot's partition. -/
def State.kdControl (s : State) (d : List Byte) : Bool :=
  match s.slotPart (kdSlot d) with
  | some p => s.controls p
  | none => false

/-- The third: the slot is EMPTY; the status where it is not. -/
def State.kdEmpty (s : State) (d : List Byte) : Option Nat :=
  match s.slotState (kdSlot d) with
  | 0 => none
  | 1 => some stAccess
  | 4 => some stAccess
  | _ => some stBusy

/-- The fourth: the tenant is bound to no slot of another partition that is not EMPTY. -/
def State.kdFree (s : State) (d : List Byte) : Bool :=
  (List.range 2048).all (fun k => decide (s.slotState k = 0) || decide (s.fget Reg.SEC_KS_A_TENANT [k] ≠ kdTenant d) ||
    decide (s.slotPart k = s.slotPart (kdSlot d)))

/-- A delivery ends with a status (R467): DONE, BUSY falls and the buffer is cleared. -/
def State.kdEnd (s : State) (st : Nat) : State :=
  (((({ s with kdRec := none } : State).fset Reg.SEC_KD_STAT_STATUS [] st).fset Reg.SEC_KD_STAT_DONE [] 1).fset
    Reg.SEC_KD_STAT_BUSY [] 0).kdClear

/-- The record in SEC_KD_BUF is submitted (R467): checks 1 to 4, in order, the first two with a REFUSAL record, then
its decapsulation begins. Dropped while BUSY.
DEDUCED: assumption 49. -/
def State.submitKey (s : State) : State :=
  if s.fget Reg.SEC_KD_STAT_BUSY [] = 1 then s
  else
    let d := s.kdBytes
    let s1 := s.fset Reg.SEC_KD_STAT_DONE [] 0
    if !(kdForm d && s1.kdControl d) then
      (s1.appendDev (Rec.noPart stAccess clsRefusal 4 0 0 (kdSlot d) 0 s.now)).kdEnd stAccess
    else match s1.kdEmpty d with
      | some st => s1.kdEnd st
      | none =>
        if !s1.kdFree d then s1.kdEnd stAccess
        else { s1.fset Reg.SEC_KD_STAT_BUSY [] 1 with kdRec := some d }

/-- The Moannis image that runs (R458, R540). -/
def State.image (s : State) : List Byte :=
  match s.running with
  | some k => (match kvGet? s.nv.slots k with
    | some f => memRead f.data 0 f.len
    | none => [])
  | none => []

/-- The label "WRAP". -/
def labelWrap : List Byte := [0x57, 0x52, 0x41, 0x50]

/-- The tenant key of a delivery record, opened under the key-delivery key of some seeds (step 5 of R467): KEM_CT gives the
secret K, KMAC256 of K the wrapping key, and AES-256-GCM under it the key that the device's first 64 bytes authenticate. -/
def deliveredKey (seeds : BitVec 512) (d : List Byte) : Option (BitVec 256) :=
  let k := Config.kemDecap seeds ((d.drop 64).take 1568)
  let kek := Config.kmac256 k (labelWrap ++ d.take 64) 256 Config.thorix
  (Config.gcmOpen kek (List.replicate 12 0) (d.take 64) ((d.drop 1632).take 32) ((d.drop 1664).take 16)).map (fun t =>
    BitVec.ofNat 256 (bytesNat (t.take 32)))

/-- KEY_DELIVERY_DONE: the security island has opened the record in progress (R467): it fails, or the next generation of
its slot is reserved and the binding staged (R468). -/
def execKeyDeliveryDone (s : State) : Outcome :=
  .next (match s.kdRec with
    | none => s
    | some d =>
      let k := kdSlot d
      let g := kvGet 0 s.nv.gens k + 1
      match deliveredKey s.kemSeed d with
      | none => s.kdEnd stAccess
      | some t =>
        if 2 ^ 32 ≤ g then s.kdEnd stAccess
        else
          let s1 : State := { s with
            nv := { s.nv with gens := kvSet s.nv.gens k g }
            kdStaged := kvSet s.kdStaged k (g, kdTenant d, t) }
          ((s1.fset Reg.SEC_KS_B_PENDING [k] 1).fset Reg.SEC_KD_STAT_GEN [] g).kdEnd stOk)

/-! ### The Keys step (R468, R472) -/

/-- Whether an object is held under the generation in force of a slot. -/
def State.underSlot (s : State) (k : Nat) (o : Obj) : Bool :=
  decide (o.keyslot = k) && decide (o.keyGen = s.fget Reg.SEC_KS_A_GEN [k])

/-- The handles of the objects under a slot's generation. -/
def State.underKey (s : State) (k : Nat) : List Nat := (s.objs.filter (fun e => s.underSlot k e.2)).map (fun e => e.1)

/-- A pending delivery of a slot is discarded. -/
def State.dropDelivery (s : State) (k : Nat) : State :=
  ({ s with kdStaged := kvDel s.kdStaged k } : State).fset Reg.SEC_KS_B_PENDING [k] 0

/-- A LIVE slot's generation retires (R472, R473): DRAINING; codebooks and SIT entries of its objects are dropped; their
fills, write-backs and moves are cancelled. -/
def State.retireSlot (s : State) (k : Nat) : State :=
  let hs := s.underKey k
  let s0 := (s.fset Reg.SEC_KS_B_STATE [k] 2).dropDelivery k
  let s1 := (s0.fills.filter (fun f => hs.contains f.handle)).foldl (fun (t : State) f => t.endFill f.handle f.granule none)
    (s0.dropViews hs.contains)
  { s1 with
    moons := kvMapV (fun _ m => { m with
      sit := m.sit.filter (fun e => !hs.contains (refHandle e.1))
      codebooks := m.codebooks.filter (fun e => !hs.contains (refHandle e.ref)) }) s1.moons
    reqs := s1.reqs.filter (fun r => match r.owner with
      | .wb h _ => !hs.contains h
      | .move h => !hs.contains h
      | _ => true)
    objs := kvMapV (fun h o => if hs.contains h then { o with
        move := none
        extents := kvMapV (fun _ x => { x with evict := false }) o.extents } else o) s1.objs }

/-- The Keys step for one slot: a retirement in force before a delivery that was pending at the freeze (R45).
DEDUCED: assumption 49. -/
def State.keyStep (p : Nat) (keys : NatSet) (s : State) (k : Nat) : State :=
  let s1 := s.applyClosed p .SEC_KS_B [k]
  if s1.slotState k = 1 ∧ s1.fget Reg.SEC_KS_B_RETIRE [k] = 1 then s1.retireSlot k
  else match kvGet? s1.kdStaged k with
    | some (g, t, key) =>
      if s1.slotState k = 0 ∧ keys.contains k = true then
        ((({ s1 with tenantKeys := kvSet s1.tenantKeys k key } : State).fset Reg.SEC_KS_B_STATE [k] 1).fset
          Reg.SEC_KS_A_GEN [k] g |>.fset Reg.SEC_KS_A_TENANT [k] t).dropDelivery k
      else s1
    | none => s1

/-- The Keys step of a boundary, over the partition's slots in ascending order. -/
def State.keysStep (s : State) (p : Nat) (keys : NatSet) : State := (s.slotsOf p).foldl (State.keyStep p keys) s

/-! ### The drain bound and the scrub (R473, R474) -/

/-- What an object under a retired generation still holds until it is scrubbed: tier-1 and tier-2 bytes. -/
def Obj.scrubs (o : Obj) : Nat × Nat :=
  let old := match o.old with
    | some v => (v.1, v.2.1)
    | none => (0, 0)
  ((if pinnedClass o.cls then o.size else o.extents.length * 2 ^ 21) + old.1,
   (if pinnedClass o.cls then 0 else o.size) + old.2)

/-- The granules of an object that a scrub writes, in tier 1 and on both partners in tier 2, but for LOST lines (R474). -/
def State.scrubItems (s : State) (h : Nat) (o : Obj) : List ScrubItem :=
  o.written.map (fun g =>
    ⟨(granuleLines g).filter (fun l => !o.lost.contains l),
     (if o.inTier1 g then [s.channelOf o h g] else []) ++
     (if pinnedClass o.cls then [] else match s.pairOf o h g with
      | some k => (s.writeTrays k).map (fun y => 1024 + y)
      | none => [])⟩)

/-- The outcome of a meaning where it is a next state. -/
def Outcome.orElse (o : Outcome) (s : State) : State :=
  match o with
  | .next t => t
  | .fault _ => s
  | .refused _ => s

/-- Every request under some handles ends with KEY_RETIRED, its tag is free, and no snoop of their lines is waited for. -/
def State.endRequests (s : State) (hs : List Nat) : State :=
  { s with
    reqs := s.reqs.map (fun r => if hs.contains r.handle && decide (r.tier ≠ 3) && decide (r.state ≠ .answered) then
      { r with state := .answered, final := some stKeyRetired } else r)
    snoops := s.snoops.filter (fun q => !hs.contains q.handle)
    hot := s.hot.filter (fun d => !hs.contains d.handle) }

/-- An NME operation ends with KEY_RETIRED. -/
def State.endNme (s : State) (n : NmeOp) : State :=
  if s.nmes.contains n then
    (({ s with nmes := s.nmes.filter (fun m => decide (m.id ≠ n.id)) } : State).dropReqs (.nme n.id)).modQp n.qp (fun q =>
      { q with service := q.service.map (fun v => if v.2 = .nme n.id then (v.1, .done stKeyRetired 0 0) else v) })
  else s

/-- The requests of accelerators under some handles that have not come to their homes are found in the input buffers and the
ring, and are refused as at step 5 (R276, R473). -/
def State.refuseWaiting (s : State) (hs : List Nat) : State :=
  (s.accs.filter (fun a => hs.contains a.handle)).foldl (fun (t : State) a =>
    ((t.appendPart (Rec.ofPart a.part stKeyRetired clsRefusal 2 0 a.addr a.src t.now)).answerEmpty a.port a.tag a.write).dropAcc
      a.id) s

/-- Every operation under some handles ends with KEY_RETIRED (R473). -/
def State.endUnder (s : State) (hs : List Nat) : State :=
  let s1 := s.endRequests hs
  let s2 := s1.ctxs.foldl (fun (t : State) e =>
    let t1 := match e.2.outst with
      | some q => if hs.contains q.handle then (execMemoryAnswer (e.2.slot.getD 0) [] t).orElse t else t
      | none => t
    e.2.comets.foldl (fun (u : State) q => match q.op with
      | .message _ _ _ => u
      | _ => if hs.contains q.handle then (execCometArrival e.1 q.id [] false u).orElse u else u) t1) s1
  let s3 := (s2.nmes.filter (fun n => n.arg.ranges.any (fun r => hs.contains r.1))).foldl (fun (t : State) n =>
    ((execNmeOperationEnd n.id none t).orElse t).endNme n) s2
  s3.finishAccs.refuseWaiting hs

/-- DRAIN_BOUND: the drain bound of a slot that is DRAINING passes (R473, R474): work under the generation ends, the slot
becomes SCRUBBING, and its objects are released. -/
def execDrainBound (k : Nat) (s : State) : Outcome :=
  .next (if s.slotState k ≠ 2 ∨ 2048 ≤ k then s
    else
      let hs := s.underKey k
      let s1 := s.endUnder hs
      let os := hs.filterMap (fun h => (s1.obj? h).map (fun o => (h, o)))
      let s2 := hs.foldl State.freeObject s1
      let s3 : State := { s2 with
        scrubs := s2.scrubs ++ [⟨k, (s.slotPart k).getD 0, (os.map (fun e => e.2.scrubs.1)).sum,
          (os.map (fun e => e.2.scrubs.2)).sum, 0, os.flatMap (fun e => s1.scrubItems e.1 e.2)⟩] }
      (s3.fset Reg.SEC_KS_B_STATE [k] 3).fset Reg.SEC_KS_B_SCRUB_GIB [k] 0)

/-- The scrub of a slot goes on (R474): the granule being written is done once its requests are answered, and SCRUB_GIB
follows; with none being written the next begins, as requests of class 0 charged to the device account, where a free value
says so.
DESIGN CHOICE: assumption 60. -/
def State.scrubCycle (s : State) (c : Scrub) (goes : Bool) : State :=
  let ow := ReqOwner.scrub c.slot
  match c.todo with
  | [] => s
  | i :: r =>
    if s.reqs.any (fun q => decide (q.owner = ow)) then
      if s.reqsAnswered ow then
        let n := c.bytes + 64 * i.lines.length
        ({ s.dropReqs ow with scrubs := s.scrubs.map (fun d => if d = c then { d with bytes := n, todo := r } else d) } : State).fset
          Reg.SEC_KS_B_SCRUB_GIB [c.slot] (n / 2 ^ 30)
      else s
    else if i.lines.isEmpty || i.units.isEmpty then
      { s with scrubs := s.scrubs.map (fun d => if d = c then { d with todo := r } else d) }
    else if goes then
      i.lines.foldl (fun (t : State) l => i.units.foldl (fun (u : State) y =>
        if y < 1024 then u.addStackReq ow c.part (2 ^ 32) l true y else u.addReq ow c.part (2 ^ 32) l true (y - 1024)) t) s
    else s

/-- SCRUB_COMPLETE: the scrub of a slot that is SCRUBBING has written every granule (R474): its space returns, the tenant key
is gone, and the slot is EMPTY, or EXHAUSTED after the last generation.
DEDUCED: assumption 49. -/
def execScrubComplete (k : Nat) (s : State) : Outcome :=
  .next (if s.slotState k ≠ 3 ∨ 2048 ≤ k ∨ s.scrubs.any (fun c => decide (c.slot = k) && !c.todo.isEmpty) = true then s
    else
      let last := decide (s.fget Reg.SEC_KS_A_GEN [k] = 2 ^ 32 - 1)
      let s1 : State := { s with
        scrubs := s.scrubs.filter (fun c => decide (c.slot ≠ k))
        tenantKeys := kvDel s.tenantKeys k
        nv := { s.nv with exhausted := if last then setIns s.nv.exhausted k else s.nv.exhausted }
        staged := kvDel s.staged (RegName.SEC_KS_B.addr [k]) }
      (((s1.fset Reg.SEC_KS_B_STATE [k] (if last then 4 else 0)).fset Reg.SEC_KS_B_RETIRE [k] 0).fset Reg.SEC_KS_A_GEN [k] 0).fset
        Reg.SEC_KS_A_TENANT [k] 0)

end Sys2Proof.Machine
end

