-- ==== Sys2Proof/Machine/Views.lean ====
section
/-!
DEFINITION. What a boundary records (R50): the slow-down index and engine times of contexts (R336, R340), engine virtual
time (R337), and the tenant views (R477, R547 to R549).
-/
namespace Sys2Proof.Machine

/-! ### Slow-down index (R340) -/

/-- Whether a context was resident in the closing orbit. -/
def Ctx.wasResident (x : Ctx) : Bool := decide (x.phase = .resident) || decide (x.used ≠ OrbitUse.none)

/-- Cycles of a class of R56 charged in the closing orbit. -/
def OrbitUse.cls (u : OrbitUse) (c : Nat) : Nat := u.cyc.getD c 0

/-- M of R340. -/
def OrbitUse.busy (u : OrbitUse) : Nat := u.cyc.sum - u.cls 3 - u.cls 2

/-- I of R340. -/
def OrbitUse.lost (u : OrbitUse) : Nat := u.cls 8 + u.cls 6 + u.interfered

/-- SDI (R340). -/
def OrbitUse.sdi (u : OrbitUse) : Nat :=
  if u.busy = 0 then 0
  else if u.busy ≤ u.lost then 0xFFFF
  else min 0xFFFF (256 * u.busy / (u.busy - u.lost))

/-- The registers of a context that was resident in the closing orbit (R340, R344). -/
def State.recordCtx (s : State) (closing c : Nat) (x : Ctx) : State :=
  let u := x.used
  let k := fun (f : RField) (n : Nat) (t : State) => t.fset f [c] (min f.top (n / 1024))
  k Reg.SCHED_CTX_ENG_MAC_K u.mac <| k Reg.SCHED_CTX_ENG_LAU_K u.lau <| k Reg.SCHED_CTX_ENG_ISSUE_K (u.cls 0) <|
    ((s.fset Reg.SCHED_CTX_SDI_SDI [c] u.sdi).fset Reg.SCHED_CTX_SDI_PEAK [c]
      (max u.sdi (s.fget Reg.SCHED_CTX_SDI_PEAK [c]))).fset Reg.SCHED_CTX_SDI_ORBIT [c] closing

/-- The engine virtual times of a partition's accounts at a boundary (R337). -/
def State.chargeEngines (s : State) (p : Nat) : State :=
  (List.range 64).foldl (fun (t : State) a =>
    let e := ((s.ofAcct p a).map (fun x => x.2.used.cls 0 + x.2.used.lau + x.2.used.mac)).sum
    if e = 0 then t
    else { t with ev := kvPut 0 t.ev (64 * p + a) (s.engineTime p a + e * 2 ^ 16 / s.innerWeight p a) }) s

/-! ### Tenant views (R547 to R549) -/

/-- Wall time in nanoseconds (R545): 0 where it has not been written. -/
def State.wallNs (s : State) : Nat :=
  match s.mgmt.wall with
  | some (w, c) => (w + 2 * (s.cycles 7 - c)) % 2 ^ 64
  | none => 0

/-- A view of a partition. -/
def State.view (s : State) (p v : Nat) : View := kvGet View.blank s.views (16 * p + v)

/-- The state with a view changed. -/
def State.modView (s : State) (p v : Nat) (f : View → View) : State :=
  { s with views := kvPut View.blank s.views (16 * p + v) (f (s.view p v)) }

/-- The reference a view is bound to (R547). -/
def State.viewRef (s : State) (p v : Nat) : Nat := s.fget Reg.TELEM_VIEW_REF [p, v] * 2 ^ 16

/-- The check of a binding that takes effect (R547). -/
def State.viewOk (s : State) (p ref : Nat) : Bool :=
  match s.objOfRef ref with
  | some o => decide (handlePart (refHandle ref) = p) && decide (o.cls = 0) && o.rd && o.wr && decide (4096 ≤ o.size) &&
      decide (o.size ≤ 2 ^ 20)
  | none => false

/-- A count as tenants see it (R477). -/
def coarse (n : Nat) : Nat := n / 1024 * 1024

/-- PLACE_EVT of a partition, each field coarsened. -/
def State.coarseEvt (s : State) (p : Nat) : List Byte :=
  [Reg.PLACE_EVT_STEEP_MISS, Reg.PLACE_EVT_FINAL, Reg.PLACE_EVT_FAIL, Reg.PLACE_EVT_LATE].flatMap
    (fun f => natBytes 2 (coarse (s.fget f [p])))

/-- An account entry of a view (R548). -/
def State.acctEntry (s : State) (p a : Nat) : List Byte :=
  natBytes 4 a ++ natBytes 4 (s.fget Reg.SCHED_ACCT_STAT_DEFERRED [p, a] / 1024) ++
  natBytes 8 (s.fget Reg.SCHED_ACCT_STAT_CHARGED [p, a] / 1024)

/-- A context entry of a view. -/
def Ctx.viewEntry (x : Ctx) (c : Nat) : List Byte :=
  natBytes 4 (x.ref c) ++ natBytes 2 (x.used.sdi / 32 * 32) ++ natBytes 2 0 ++
  (List.range 9).flatMap (fun k => natBytes 4 (x.used.cls k / 1024)) ++ natBytes 4 (x.used.lau / 1024) ++
  natBytes 4 (x.used.mac / 1024) ++ natBytes 12 0

/-- The bytes of a capture of a view on an object of `size` bytes, SEQ left at 0 (R548). -/
def State.captureBytes (s : State) (p closing size tenant skipped : Nat) : List Byte :=
  let accts := (span 1 64).filter (fun a => s.fget Reg.SCHED_ACCT_VALID [p, a] == 1 &&
    s.fget Reg.SCHED_ACCT_TENANT [p, a] == tenant)
  let ctxs := s.ctxs.filter (fun e => decide (e.2.part = p) && decide (e.2.tenant = tenant) && e.2.wasResident)
  let na := min accts.length ((size - 64) / 16)
  let nc := min ctxs.length ((size - 64 - 16 * na) / 64)
  let trunc := decide (na < accts.length) || decide (nc < ctxs.length)
  natBytes 4 0x31574956 ++ natBytes 2 1 ++ natBytes 2 0 ++ natBytes 8 0 ++ natBytes 8 closing ++ natBytes 8 s.wallNs ++
  natBytes 2 s.pwr.seen ++ natBytes 2 0 ++ natBytes 4 skipped ++ s.coarseEvt p ++ natBytes 2 na ++ natBytes 2 nc ++
  natBytes 1 (bit01 trunc) ++ natBytes 11 0 ++ (accts.take na).flatMap (s.acctEntry p) ++
  (ctxs.take nc).flatMap (fun e => e.2.viewEntry e.1)

/-- The capture of a view (R548, R549): of an active one; an earlier capture that still waits is replaced. -/
def State.captureView (s : State) (p closing v : Nat) : State :=
  if s.fget Reg.TELEM_VIEW_ACTIVE [p, v] = 0 then s
  else
    let ref := s.viewRef p v
    match s.objOfRef ref with
    | none => s.fset Reg.TELEM_VIEW_ACTIVE [p, v] 0
    | some o =>
      if s.keyRetired o then s.fset Reg.TELEM_VIEW_ACTIVE [p, v] 0
      else
        let w := s.view p v
        let k := if w.capture.isSome then w.skipped + 1 else w.skipped
        s.modView p v (fun x => { x with
          capture := some (ref, s.captureBytes p closing o.size o.tenant k)
          skipped := k })

/-- A binding takes effect in the Release step (R547). -/
def State.bindView (s : State) (p v : Nat) : State :=
  let s1 := s.applyClosed p .TELEM_VIEW [p, v]
  s1.fset Reg.TELEM_VIEW_ACTIVE [p, v] (bit01 (s1.viewOk p (s1.viewRef p v)))

/-- A view whose object has gone or whose key has retired is bound to nothing until TELEM_VIEW is written again; its writes
end (R549). -/
def State.unbindView (s : State) (p v ref : Nat) : State :=
  let k := 16 * p + v
  let s1 := (s.dropReqs (.view k)).modView p v (fun x => { x with
    capture := x.capture.filter (fun c => decide (c.1 ≠ ref))
    writing := none })
  if s.viewRef p v = ref then s1.fset Reg.TELEM_VIEW_ACTIVE [p, v] 0 else s1

/-- The object a capture goes to, where the reference is in force and its key has not retired. -/
def State.viewTarget (s : State) (ref : Nat) : Option Obj := (s.objOfRef ref).filter (fun o => !s.keyRetired o)

/-- A capture begins to be written: SEQ becomes odd, and its lines become requests of class 0, charged to the device account
(R549). -/
def State.startView (s : State) (p v ref : Nat) (bs : List Byte) : State :=
  let h := refHandle ref
  ((s.modView p v (fun x => { x with
    capture := none
    writing := some (ref, bs.take 8 ++ natBytes 8 ((s.view p v).seq + 2) ++ bs.drop 16) })).storeObj h 8 (natBytes 8 ((s.view p v).seq + 1))).requestLines (.view (16 * p + v)) h
      (blocksOf 64 0 bs.length) true

/-- A write of a view ends: the header and the entries stand in the object under the next even SEQ, or, where a line's final
status is a failure, SEQ stays odd (R549). -/
def State.endView (s : State) (p v ref : Nat) (bs : List Byte) (o : Obj) : State :=
  let ow := ReqOwner.view (16 * p + v)
  let h := refHandle ref
  let seq := (s.view p v).seq + 2
  let st := worst (s.reqFinals ow ++ (blocksOf 64 0 bs.length).map (fun l => s.writeStatus o h l true (s.sentLine ow h l)))
  let t := (s.dropReqs ow).modView p v (fun x => { x with writing := none })
  if st.isSome then t
  else ((t.modView p v (fun x => { x with seq := seq })).storeObj h 0 bs).fset
    Reg.TELEM_VIEW_TRUNC [p, v] (field bs 52 1 % 2)

/-- VIEW_WRITE: after the release step, the capture that waits of a view begins to be written to its object; a write in
progress ends once its requests are answered (R549). -/
def execViewWrite (p v : Nat) (s : State) : Outcome :=
  .next (if 16 ≤ p ∨ 16 ≤ v then s
    else match (s.view p v).writing, (s.view p v).capture with
      | some (ref, bs), _ =>
        (match s.viewTarget ref with
         | none => s.unbindView p v ref
         | some o =>
           if s.ready (.view (16 * p + v)) (refHandle ref) (blocksOf 64 0 bs.length) true then s.endView p v ref bs o else s)
      | none, some (ref, bs) =>
        (match s.viewTarget ref with
         | none => s.unbindView p v ref
         | some _ => if s.inSwap p then s else s.startView p v ref bs)
      | none, none => s)

end Sys2Proof.Machine
end

