-- ==== Sys2Proof/Machine/Orbit.lean ====
section
/-!
DEFINITION. The orbit boundary (R35 to R51): its steps in the order of R40, with the staged fields of R41, parking and
resumption (R361), the parking and resume copies (R362), and the overdue check (R48).
-/
namespace Sys2Proof.Machine

/-! ### Freeze and snapshot (R40, R50) -/

/-- The staged register fields of a partition. -/
def State.stagedRegs (s : State) (p : Nat) : KV Word :=
  s.staged.filter (fun e => match regAt e.1 with
    | some (r, ix) => s.regPart r ix == some p
    | none => false)

/-- What closes at the freeze of a swap of a partition (R45). -/
def State.newSwap (s : State) (p : Nat) : Swap :=
  { start := s.now
    closing := (s.part p).orbit
    next := .snapshot
    regs := s.stagedRegs p
    route := (s.part p).routeStaged
    keys := (kvKeys s.kdStaged).filter (fun k => s.slotPart k == some p)
    moves := ((s.objsOf p).filter (fun e => e.2.move.isSome)).map (fun e => e.1)
    views := (List.range 16).filter (fun v => (s.view p v).rebind)
    heldBack := false }

/-- The Freeze step (R40, R45): the staged copies close, ORBIT_NUM increments, the request flags and the counts since the
previous boundary clear (R36, R374), and every strand of the partition is held. -/
def State.freeze (s : State) (p : Nat) : State :=
  let s1 := s.modPart p (fun x => { x with
    orbit := (x.orbit + 1) % 2 ^ 40
    hostFlag := false
    devFlag := false
    raisedAt := none
    overdue := false
    reported := false
    executed := false
    idleEvent := false
    faults := 0
    routeStaged := none
    swap := some (s.newSwap p) })
  let s2 : State := { s1 with
    ctxs := kvMapV (fun _ x => if x.part = p ∧ x.phase = .resident then { x with held := true } else x) s1.ctxs }
  (List.range 16).foldl (fun (t : State) v => t.modView p v (fun x => { x with rebind := false })) s2

/-- The Snapshot step (R50): what the closing orbit counted is recorded, and its counts begin again. -/
def State.snapshot (s : State) (p : Nat) (w : Swap) : State :=
  let s1 := (s.setRegW .GLB_ORB_TIME [p] (BitVec.ofNat 64 w.start)).modPart p (fun x => { x with
    imbC := s.chanLoad
    imbT := s.trayLoad })
  let mine := s1.ctxs.filter (fun e => decide (e.2.part = p) && e.2.wasResident)
  let s2 := mine.foldl (fun (t : State) e => t.recordCtx w.closing e.1 e.2) s1
  let s3 := ((s2.chargeEngines p).captureDigest p w.closing).compareDigest p w.closing
  let s4 := (List.range 16).foldl (fun (t : State) v => t.captureView p w.closing v) s3
  { s4 with ctxs := kvMapV (fun _ x => if x.part = p then { x with used := OrbitUse.none } else x) s4.ctxs }

/-! ### Route maps (R41, R364, R365) -/

/-- The settings of a queue pair take effect (R345, R376): setting VALID empties both rings and zeroes the counts. -/
def State.applyQp (p : Nat) (s : State) (q : Nat) : State :=
  let was := s.fget Reg.CTX_QP_A_VALID [q]
  let s1 := ((s.applyClosed p .CTX_QP_A [q]).applyClosed p .CTX_QP_B [q]).applyClosed p .CTX_QP_C [q]
  if was = 0 ∧ s1.fget Reg.CTX_QP_A_VALID [q] = 1 then
    s1.modQp q (fun x => { Qp.init with bell := x.bell, service := x.service })
  else s1

/-- The queue pairs with a setting among some staged fields. -/
def qpsIn (l : KV Word) : List Nat :=
  (l.filterMap (fun e => match regAt e.1 with
    | some (.CTX_QP_A, ix) => ix.head?
    | some (.CTX_QP_B, ix) => ix.head?
    | some (.CTX_QP_C, ix) => ix.head?
    | _ => none)).eraseDups

/-- Whether work admitted or issued under a generation of a partition's route map has not completed (R365). -/
def State.genUsed (s : State) (p g : Nat) : Bool :=
  s.accs.any (fun a => decide (a.part = p) && decide (a.gen = g)) ||
  s.ctxs.any (fun e => decide (e.2.part = p) && (e.2.comets.any (fun q => decide (q.gen = g)) || (match e.2.outst with
    | some q => (match q.op with
      | .message _ _ _ => decide (q.gen = g)
      | _ => false)
    | none => false)))

/-- An older generation nothing uses any more is no longer live (R365). -/
def State.drainMap (s : State) (p : Nat) : State :=
  match (s.part p).routeOld with
  | some m => if s.genUsed p m.gen then s else s.modPart p (fun x => { x with routeOld := none })
  | none => s

/-- The state with the swap in progress of a partition changed. -/
def State.modSwap (s : State) (p : Nat) (f : Swap → Swap) : State := s.modPart p (fun x => { x with swap := x.swap.map f })

/-- The Route maps step: the map that closed becomes the current generation, or, while two are live, goes back to the
staged copy, where a later MAP_STAGE has not replaced it (R35, R45). -/
def State.routeStep (s : State) (p : Nat) (w : Swap) : State :=
  let s1 := ((qpsIn w.regs).foldl (State.applyQp p) s).drainMap p
  match w.route with
  | none => s1
  | some m =>
    let s2 := s1.modSwap p (fun v => { v with route := none })
    if (s1.part p).routeOld.isSome then
      (s2.modPart p (fun x => { x with routeStaged := some (x.routeStaged.getD m) })).modSwap p (fun v => { v with heldBack := true })
    else
      (s2.modPart p (fun x => { x with
        routeOld := some x.routeCur
        routeCur := ⟨x.routeCur.gen + 1, m⟩ })).drainMap p

/-! ### Shares and rates (R333) -/

/-- The tags of an account at every share point set to the V of its level. -/
def State.retag (s : State) (p a : Nat) : State :=
  (kvKeys s.shares).foldl (fun (t : State) pt => t.modShare pt (fun h =>
    let v := kvGet 0 h.vi p
    { h with
      si := kvPut 0 h.si (64 * p + a) v
      fi := kvPut 0 h.fi (64 * p + a) v })) s

/-- SCHED_ACCT and SCHED_BKT of one account take effect (R333). -/
def State.applyAcct (s : State) (p a : Nat) : State :=
  let level := s.bucketLevel p a
  let rate := s.fget Reg.SCHED_BKT_RATE_MBS [p, a]
  let tenant := s.fget Reg.SCHED_ACCT_TENANT [p, a]
  let valid := s.fget Reg.SCHED_ACCT_VALID [p, a]
  let s1 := (s.applyClosed p .SCHED_ACCT [p, a]).applyClosed p .SCHED_BKT [p, a]
  let rebound := decide (s1.fget Reg.SCHED_ACCT_TENANT [p, a] ≠ tenant) || decide (s1.fget Reg.SCHED_ACCT_VALID [p, a] ≠ valid)
  let s2 := if rebound then s1.retag p a else s1
  let full := rebound || (decide (rate = 0) && decide (s2.fget Reg.SCHED_BKT_RATE_MBS [p, a] ≠ 0))
  s2.setBucket p a (if full then s2.bucketDepth p a else min level (s2.bucketDepth p a))

/-- The accounts of a partition with a setting among some staged fields. -/
def acctsIn (p : Nat) (l : KV Word) : List Nat :=
  (List.range 64).filter (fun a => (kvGet? l (RegName.SCHED_ACCT.addr [p, a])).isSome ||
    (kvGet? l (RegName.SCHED_BKT.addr [p, a])).isSome)

/-- The Shares and rates step. -/
def State.sharesStep (s : State) (p : Nat) (w : Swap) : State :=
  (acctsIn p w.regs).foldl (fun (t : State) a => t.applyAcct p a) s

/-! ### Placement (R248, R260, R509) -/

/-- The granules of an object that were homed on a dead pair. -/
def State.deadGranules (s : State) (h : Nat) (o : Obj) : List Nat :=
  o.written.filter (fun g => decide (o.tier g = 2) && s.homeDead o h g false)

/-- A finished move switches to its new layout (R248): the old one is held until its requests have completed, and what
was homed on a dead pair is LOST (R509). A line in a combiner holds the move back (R289). -/
def State.switchMove (s : State) (h : Nat) : State :=
  match s.obj? h with
  | none => s
  | some o =>
    match o.move with
    | none => s
    | some m =>
      if !m.copied || s.hot.any (fun d => decide (d.handle = h)) then s
      else
        let dead := s.deadGranules h o
        let b := o.old.getD (0, 0, 0)
        let t1 := b.1 + (if pinnedClass o.cls then o.size else o.extents.length * 2 ^ 21)
        let t2 := b.2.1 + (if pinnedClass o.cls then 0 else o.size)
        let s1 := s.modObj h (fun q => { q with
          cls := m.cls
          salt := m.salt
          pairs := m.pairs
          extents := if cacheClass m.cls && cacheClass q.cls then q.extents else []
          move := none
          old := some (t1, t2, s.nextId) })
        if dead.isEmpty then s1 else s1.markAllLost (dead.map (fun g => (h, g)))

/-- Unprotected extents whose age reaches AGE_MAX are written back and dropped (R260). -/
def State.ageOut (s : State) (p : Nat) : State :=
  let amax := s.fget Reg.PLACE_AGE_AGE_MAX [p]
  if amax = 0 then s
  else ((s.objsOf p).flatMap (fun e => e.2.extents.map (fun x => (e.1, x.1, s.extentAge e.1 x.2)))).foldl
    (fun (t : State) x => if amax ≤ x.2.2 ∧ t.isProtected x.1 x.2.1 = false then (t.evictExtent x.1 x.2.1).1 else t) s

/-- Whether a move that was staged at the freeze has not switched (R35). -/
def State.moveHeld (s : State) (moves : NatSet) : Bool :=
  moves.any (fun h => match s.obj? h with
    | some o => o.move.isSome
    | none => false)

/-- The Placement step; what was held back under R35 in this boundary is counted in HELD once. -/
def State.placementStep (s : State) (p : Nat) (w : Swap) : State :=
  let s1 := (s.applyClosed p .PLACE_AGE [p]).applyClosed p .PLACE_LOSS_LOG [p]
  let s2 := w.moves.foldl State.switchMove s1
  (if w.heldBack || s2.moveHeld w.moves then s2.fsat Reg.GLB_ORB_PAUSE_HELD [p] 1 else s2).ageOut p

/-! ### Parking (R358, R361) -/

/-- The contexts of a partition that hold slots. -/
def State.residents (s : State) (p : Nat) : List (Nat × Ctx) :=
  s.ctxs.filter (fun e => decide (e.2.part = p) && e.2.holdsSlot)

/-- Contexts of a job that hold slots of a Moon. -/
def State.jobOn (s : State) (x : Ctx) (m : Nat) : Nat :=
  ((s.onMoon false m).filter (fun y => decide (y.part = x.part) && decide (y.job = x.job))).length

/-- The Moon that placement chooses for a context (R361). -/
def State.bestMoon (s : State) (x : Ctx) : Option Nat :=
  ((List.range 64).filter (s.canHold x)).foldl (fun (a : Option Nat) m => match a with
    | some b => if s.jobOn x m < s.jobOn x b then some m else some b
    | none => some m) none

/-- Whether a context fits: a slot within RES_SLOTS is free and a Moon can hold it. -/
def State.fits (s : State) (x : Ctx) : Bool :=
  decide ((s.residents x.part).length < s.fget Reg.CTX_PART_CFG_RES_SLOTS [x.part]) && (s.bestMoon x).isSome

/-- The cycle counts of a context carry on from its parked totals on the strand it occupies (R60). -/
def State.loadCounts (s : State) (x : Ctx) (sl : Nat) : State :=
  (List.range 9).foldl (fun (t : State) k =>
    t.setRegW .MOON_CYC [sl / 8, sl % 8, k] (BitVec.ofNat 64 (x.cycles.getD k 0))) s

/-- A context is placed: it is resumed by a copy, or, with STAY, resident at once (R358). -/
def State.placeCtx (s : State) (c : Nat) : State :=
  match s.ctx? c with
  | none => s
  | some x =>
    match s.bestMoon x with
    | none => s
    | some m =>
      match s.freeSlot x.stay m with
      | none => s
      | some sl =>
        let (tag, s1) := s.drawTag
        let y := { x with
          slot := some sl
          residentOrbits := 0
          held := x.stay
          tag := tag
          phase := if x.stay then .resident else .resuming }
        if x.stay then (s1.setCtx c y).loadCounts y sl else s1.setCtx c y

/-- A context is chosen for parking: it is held, and its claims are released (R142, R150). -/
def State.parkCtx (s : State) (c : Nat) : State :=
  match s.ctx? c with
  | none => s
  | some x => (s.releaseClaims x.part c).modCtx c (fun y => { y with phase := .parking })

/-- The engine virtual time of a context's account. -/
def State.ctxTime (s : State) (x : Ctx) : Nat := s.engineTime x.part (s.acctOf x.part x.tenant)

/-- A context put in its place of a list kept in order by a key, after those of an equal key. -/
def insertBy (key : Nat × Ctx → Nat) (e : Nat × Ctx) : List (Nat × Ctx) → List (Nat × Ctx)
  | [] => [e]
  | y :: r => if key e < key y then e :: y :: r else y :: insertBy key e r

/-- Contexts in ascending order of a key; equal keys keep their order. -/
def sortBy (key : Nat × Ctx → Nat) (l : List (Nat × Ctx)) : List (Nat × Ctx) := l.foldl (fun a e => insertBy key e a) []

/-- The candidates for parking, in order (R361): idle contexts, then those resident for QUANTUM orbits. One whose abort is
due ends at release instead (R45). -/
def State.candidates (s : State) (p : Nat) : List Nat :=
  let ok := s.ctxs.filter (fun e => decide (e.2.part = p) && decide (e.2.phase = .resident) && !e.2.stay && e.2.chain.isNone &&
    !e.2.abortPending)
  let quantum := s.fget Reg.CTX_PART_CFG_QUANTUM [p]
  let idle := (ok.filter (fun e => !e.2.running)).reverse
  let old := ok.filter (fun e => e.2.running && decide (quantum ≠ 0) && decide (quantum ≤ e.2.residentOrbits))
  (idle ++ (sortBy (fun e => s.ctxTime e.2) old).reverse).map (fun e => e.1)

/-- One context of the resume order: placed, after a candidate is parked where that makes room; none where it cannot be
placed, which ends resumption. -/
def State.resumeCtx (s : State) (p c : Nat) : Option State :=
  match s.ctx? c with
  | none => none
  | some x =>
    if s.fits x then some (s.placeCtx c)
    else match (s.candidates p).find? (fun d => (s.parkCtx d).fits x) with
      | some d => some ((s.parkCtx d).placeCtx c)
      | none => none

/-- Resumption, to the first context that cannot be placed. -/
def State.resumeAll (s : State) (p : Nat) : List Nat → State
  | [] => s
  | c :: r =>
    match s.resumeCtx p c with
    | some t => t.resumeAll p r
    | none => s

/-- The Parking step.
DEDUCED: assumption 50. -/
def State.parkingStep (s : State) (p : Nat) : State :=
  let s1 := s.applyClosed p .CTX_PART_CFG [p]
  let s2 : State := { s1 with ctxs := kvMapV (fun _ x =>
    if x.part = p ∧ x.phase = .resident then { x with residentOrbits := x.residentOrbits + 1 } else x) s1.ctxs }
  let stay := s2.ctxs.filter (fun e => decide (e.2.part = p) && decide (e.2.phase = .parked) && e.2.stay && !e.2.abortPending)
  let s3 := stay.foldl (fun (t : State) e => if t.fits e.2 then t.placeCtx e.1 else t) s2
  let run := s3.ctxs.filter (fun e => decide (e.2.part = p) && !e.2.stay && !e.2.abortPending && s3.runnable e.1 e.2)
  s3.resumeAll p ((sortBy (fun e => s3.ctxTime e.2) run).map (fun e => e.1))

/-! ### Release (R37, R40, R41, R140, R151) -/

/-- A context that waits at ORBIT goes on with the new ORBIT_NUM (R140). -/
def Ctx.releaseOrbit (x : Ctx) (orbit : Nat) : Ctx :=
  match x.atOrbit with
  | some d => { x.setS (BitVec.ofNat 5 d) (BitVec.ofNat 64 orbit) with
      atOrbit := none
      pc := wrapPc (x.pc + 16)
      wait := .none }
  | none => x

/-- A setting of GLB_SHD_CTRL takes effect, where one was staged. -/
def State.applyShadow (s : State) (p : Nat) (w : Swap) : State :=
  if (kvGet? w.regs (RegName.GLB_SHD_CTRL.addr [p])).isSome then
    let t := s.applyClosed p .GLB_SHD_CTRL [p]
    let keeps := fun (f : RField) => decide (s.fget f [p] = t.fget f [p])
    t.shadowMode p (keeps Reg.GLB_SHD_CTRL_MODE && keeps Reg.GLB_SHD_CTRL_PEER_PART && keeps Reg.GLB_SHD_CTRL_PEER_PBR)
  else s

/-- The Release step: the hold is lifted but from contexts being parked, members whose RUN came during it start (R359), and
the pause is recorded (R42). -/
def State.release (s : State) (p : Nat) (w : Swap) : State :=
  let n := (s.part p).orbit
  let s1 : State := { s with ctxs := kvMapV (fun _ x =>
    if x.part = p then { x.releaseOrbit n with held := decide (x.phase = .parking) } else x) s.ctxs }
  let s2 := ((s1.joinSend p).promoteAt p).applyShadow p w
  let s3 := w.views.foldl (fun (t : State) v => t.bindView p v) s2
  let s4 := s3.modPart p (fun x => { x with
    swap := none
    steps := x.steps.filter (fun t => !t.finished) })
  let s5 := (s4.residents p).foldl (fun (t : State) e => t.startMember e.1) s4
  let pause := s.now + 1 - w.start
  (s5.fset Reg.GLB_ORB_PAUSE_LAST_PAUSE [p] pause).fset Reg.GLB_ORB_PAUSE_MAX_PAUSE [p]
    (max pause (s5.fget Reg.GLB_ORB_PAUSE_MAX_PAUSE [p]))

/-! ### The sequencer (R40, R42, R45) -/

/-- Whether a boundary of a partition may form now (R36, R39, R485, R494). -/
def State.boundaryMay (s : State) (p : Nat) : Bool :=
  s.partValid p && s.boundaryDue p && !(s.part p).fenced && !(s.part p).held && (s.part p).resetDue.isNone && !s.inSwap p

/-- The step after a step of the swap. -/
def SwapStep.after : SwapStep → SwapStep
  | .snapshot => .keys
  | .keys => .maps
  | .maps => .shares
  | .shares => .placement
  | .placement => .visibility
  | .visibility => .parking
  | .parking => .release
  | .release => .release

/-- The last XBAR cycle of a step, counted from the freeze cycle (R40). -/
def SwapStep.bound : SwapStep → Nat
  | .snapshot => 257
  | .keys => 321
  | .maps => 449
  | .shares => 513
  | .placement => 769
  | .visibility => 801
  | .parking => 865
  | .release => 889

/-- The effect of a step of the swap (R40, R41). -/
def State.swapEffect (s : State) (p : Nat) (w : Swap) : State :=
  match w.next with
  | .snapshot => s.snapshot p w
  | .keys => s.keysStep p w.keys
  | .maps => s.routeStep p w
  | .shares => s.sharesStep p w
  | .placement => s.placementStep p w
  | .visibility => s.modPart p (fun x => { x with visibility := x.orbit })
  | .parking => s.parkingStep p
  | .release => s.release p w

/-- The sequencer performs the next step of the swap in progress, and comes to the step after it. A partition reset that is
due ends the swap instead (R45). -/
def State.swapStep (s : State) (p : Nat) : State :=
  match (s.part p).swap with
  | some w =>
    if (s.part p).resetDue.isSome then s
    else (s.swapEffect p w).modSwap p (fun v => { v with next := w.next.after })
  | none => s

/-- A step of the swap has come to the end of its cycles, and is performed (R40). -/
def State.swapTick (s : State) (p : Nat) : State :=
  match (s.part p).swap with
  | some w => if w.start + w.next.bound ≤ s.now then s.swapStep p else s
  | none => s

/-- ORBIT_BOUNDARY: a boundary of a partition that is due begins with its freeze (R40); in a swap, the sequencer performs its
next step, at the latest in the last cycle R40 gives it.
DESIGN CHOICE: assumption 12. -/
def execOrbitBoundary (p : Nat) (s : State) : Outcome :=
  .next (if s.inSwap p then s.swapStep p else if s.boundaryMay p then s.freeze p else s)

/-- The value of GLB_ORB_STAT (R51). -/
def State.orbStat (s : State) (p : Nat) : Nat :=
  let x := s.part p
  let e := s.enrolled p
  x.orbit * 2 ^ 24 + e.length * 2 ^ 14 + (e.filter (fun c => c.2.atOrbit.isSome)).length * 2 ^ 4 +
  8 * bit01 (s.stagedAny p) + 4 * bit01 x.swap.isSome + 2 * bit01 x.overdue +
  bit01 (s.ctxs.all (fun c => decide (c.2.part ≠ p) || decide (c.2.phase ≠ .resident)))

/-- OVERDUE: a request flag of a partition has been raised for more than ORB_LIMIT cycles without a boundary (R48): one
BUSY record, with MSI-X vector 2 (R404).
DESIGN CHOICE: assumption 3. -/
def execOverdue (p : Nat) (s : State) : Outcome :=
  .next (match (s.part p).raisedAt with
    | none => s
    | some c =>
      let lim := s.fget Reg.GLB_ORB_LIMIT_ORB_LIMIT []
      if lim = 0 ∨ s.now ≤ c + lim ∨ (s.part p).reported = true ∨ s.partValid p = false then s
      else
        let s1 := s.modPart p (fun x => { x with
          overdue := true
          reported := true })
        (s1.appendPart (Rec.ofPart p stBusy clsOrbit 1 0 (s1.part p).orbit (s1.orbStat p) s1.now)).emit (.msix 2))

/-- The parking or resume copy of a context fails finally: the partition is reset, trigger code 2 (R362, R375). -/
def State.copyFailed (s : State) (x : Ctx) : State := s.triggerReset x.part 2

/-- CONTEXT_PARK_COPY_DONE: the parking copy of a context ends, after its comets have arrived and its issued instruction has
run to its end (R96, R142, R362); its cycle counts leave its strand (R60).
DEDUCED: assumption 50. -/
def execContextParkCopyDone (c : Nat) (fails : Bool) (s : State) : Outcome :=
  .next (match s.ctx? c with
    | none => s
    | some x =>
      if x.phase ≠ .parking ∨ x.comets ≠ [] ∨ x.outst ≠ none then s
      else if fails then s.copyFailed x
      else match x.slot with
        | none => s
        | some sl =>
          let counts := (List.range 9).map (fun k => (s.regW .MOON_CYC [sl / 8, sl % 8, k]).toNat)
          let s1 := (List.range 9).foldl (fun (t : State) k => t.setRegW .MOON_CYC [sl / 8, sl % 8, k] 0) s
          let y := { x with
            phase := .parked
            held := false
            code := none
            slot := none
            cycles := (List.range 9).map (fun k => (counts.getD k 0) % 2 ^ 64) }
          let s2 := s1.setCtx c y
          if s2.runnable c y then s2.idleEvent x.part else s2)

/-- Whether a context that is being parked still leaves a Moon. -/
def State.leaving (s : State) (m : Nat) : Bool :=
  s.ctxs.any (fun e => decide (e.2.phase = .parking) && (match e.2.slot with
    | some sl => decide (sl / 8 = m)
    | none => false))

/-- CONTEXT_RESUME_COPY_DONE: the resume copy of a context ends, once what it replaces has left its Moon, and its strand
starts (R44, R362). -/
def execContextResumeCopyDone (c : Nat) (fails : Bool) (s : State) : Outcome :=
  .next (match s.ctx? c with
    | none => s
    | some x =>
      match x.slot with
      | none => s
      | some sl =>
        if x.phase ≠ .resuming ∨ x.abortPending = true ∨ s.leaving (sl / 8) = true then s
        else if fails then s.copyFailed x
        else
          let y := { x with
            phase := .resident
            held := s.inSwap x.part }
          ((s.setCtx c y).loadCounts y sl).startMember c)

end Sys2Proof.Machine
end

