-- ==== Sys2Proof/Machine/Reset.lean ====
section
/-!
DEFINITION. Partition reset (R493 to R498) and the writes of the ERR block (R482, R485, R490, R493, R502, R504).
-/
namespace Sys2Proof.Machine

/-! ### The ERR block (R504) -/

/-- HEAD of a queue of `size` records advances, where it lies within TAIL − size to TAIL (R482). -/
def ErrQ.setHead (size : Nat) (q : ErrQ) (h : Nat) : ErrQ :=
  if (q.tail + 2 ^ 32 - h % 2 ^ 32) % 2 ^ 32 ≤ size then { q with head := h % 2 ^ 32 } else q

/-- HEAD of the device queue (`p` 16) or of a partition's; records of the loss of granules may then go (R516). -/
def State.setErrHead (s : State) (p h : Nat) : State :=
  if p = 16 then { s with devq := s.devq.setHead 1024 h }
  else (s.modPart p (fun x => { x with errq := x.errq.setHead 128 h })).flushLost

/-- A write of 1 to FENCED ends the fence of a partition, unless its queue is full or the device is in device fault
(R485). -/
def State.endFence (s : State) (p : Nat) : State :=
  if (s.part p).errq.used = 128 ∨ s.devFault = true then s else s.modPart p (fun x => { x with fenced := false })

/-- A write of a context reference to ERR_CTX_ABORT (R490): ignored where the reference is not in force, refused without
control privilege over the context's partition. -/
def State.writeCtxAbort (s : State) (ref : Nat) : State :=
  match s.ctxOfRef ref with
  | none => s
  | some c =>
    match s.ctx? c with
    | none => s
    | some x => if s.controls x.part then s.markAbort c else s.refuseAccess (RegName.ERR_CTX_ABORT.addr [])

/-- A write of ERR_PART_RESET (R493): the partitions named under control are reset, one refusal for the others. -/
def State.writePartReset (s : State) (bits : Nat) : State :=
  let named := partIds.filter (fun p => bitAt p bits)
  let s1 := (named.filter s.controls).foldl (fun (t : State) p => t.triggerReset p 4) s
  if named.all s.controls then s1 else s1.refuseAccess (RegName.ERR_PART_RESET.addr [])

/-- A write of ERR_DEV_RESET (R502): with its key and the management privilege a device reset is due. -/
def State.writeDevReset (s : State) (key : Nat) : State :=
  if s.manages && key == 0x54535244 then { s with devResetDue := true }
  else s.refuseAccess (RegName.ERR_DEV_RESET.addr [])

/-! ### Partition reset, step by step (R494) -/

/-- A RESET record of a partition, to its queue with a copy to the device queue (R480). -/
def State.resetRec (s : State) (p code scope a b : Nat) : State :=
  s.appendBoth (Rec.ofPart p stAborted clsReset code scope a b s.now)

/-- Every staged copy of a partition is set equal to what is in force (R45, R468, R494).
DEDUCED: assumption 49. -/
def State.dropStaged (s : State) (p : Nat) : State :=
  let s1 : State := { s with
    staged := s.staged.filter (fun e => match regAt e.1 with
      | some (r, ix) => decide (s.regPart r ix ≠ some p)
      | none => true)
    objs := kvMapV (fun h o => if handlePart h = p then { o with move := none } else o) s.objs
    reqs := s.reqs.filter (fun r => match r.owner with
      | .move h => decide (handlePart h ≠ p)
      | .view k => decide (k / 16 ≠ p)
      | _ => true)
    views := kvMapV (fun k v => if k / 16 = p then { v with capture := none, writing := none, rebind := false } else v) s.views }
  (s1.slotsOf p).foldl State.dropDelivery (s1.modPart p (fun x => { x with
    routeStaged := none
    swap := none }))

/-- The ports whose accelerators are attached to a job of a partition (R295). -/
def State.attachedPorts (s : State) (p : Nat) : List Nat :=
  (List.range 256).filter (fun n => s.role n == 1 && !s.crashed.contains n && (match s.pbrOfPort n with
    | some b => (s.attachedJobs b).any (fun j => decide (j.1 = p))
    | none => false))

/-- Viral is sent on the link of an accelerator, with its LINK record of code 4 (R497). -/
def State.sendViral (s : State) (n : Nat) : State :=
  ({ s with viral := setIns s.viral n } : State).emit (.viral n) |>.linkRec stAborted 4 n

/-- Whether a cell carries a message of a partition. -/
def Cell.isOf (p : Nat) (c : Cell) : Bool := decide (c.tag.1 = p)

/-- A queue with the messages of a partition removed, and the pairs of its hold table that have no record left. -/
def XQueue.purge (p : Nat) (q : XQueue) : XQueue :=
  let keep := fun (l : List Cell) => l.filter (fun c => !c.isOf p)
  let sp := keep q.spill
  let bk := keep q.back
  if sp.isEmpty && bk.isEmpty then
    { q with head := keep q.head ++ keep q.tail, spill := [], back := [], tail := [], off := 0, since := 0, pairs := [] }
  else
    { q with
      head := keep q.head
      spill := sp
      back := bk
      tail := keep q.tail
      pairs := q.pairs.filter (fun k => (bk ++ sp).any (fun c => decide (c.src = k.1) && decide (c.dst = k.2))) }

/-- The cells of a partition in the input buffers, with their ports. -/
def State.cellsOf (s : State) (p : Nat) : List (Nat × Cell) :=
  s.xin.flatMap (fun e => (e.2.queues.flatMap (fun q =>
    (q.2.head ++ q.2.back ++ q.2.spill ++ q.2.tail).filter (Cell.isOf p))).map (fun c => (e.1, c)))

/-- The messages of a partition leave the input buffers and the spill ring. -/
def State.purgeCells (s : State) (p : Nat) : State :=
  let cs := s.cellsOf p
  let s1 : State := { s with xin := kvMapV (fun _ x => { x with queues := kvMapV (fun _ q => q.purge p) x.queues }) s.xin }
  (cs.foldl (fun (t : State) e => t.purgeCell e.1 e.2) s1).noteRing

/-- A request of an accelerator at its home: a write admitted before the freeze completes, a read is answered with poison
(R494, R498). -/
def State.endAcc (s : State) (a : AccReq) : State :=
  if a.write && (s.accStatus a).isNone then
    ((s.storePieces a.handle [] a.pieces).answerEmpty a.port a.tag true).dropAcc a.id
  else (s.answerEmpty a.port a.tag a.write).dropAcc a.id

/-- An NME operation ends and reports the bytes it has done (R495), a free value; a PUBLISH has or has not been applied
by a combiner.
DESIGN CHOICE: assumption 27. -/
def State.abortNme (s : State) (n : NmeOp) : State :=
  let (d, s0) := s.draw
  let (s1, r0, r1) := match n.arg with
    | .publish _ _ _ _ => (s0, 0, 0)
    | a => s0.nmeEffect a ((Config.random d).toNat % (a.len + 1))
  (({ s1 with nmes := s1.nmes.filter (fun m => decide (m.id ≠ n.id)) } : State).dropReqs (.nme n.id)).modQp n.qp (fun q =>
    { q with service := q.service.map (fun v => if v.2 = .nme n.id then (v.1, .done stAborted r0 r1) else v) })

/-- The descriptor in service of a queue pair ends ABORTED where it has not ended (R495): a registry command not yet
applied is not applied. -/
def State.endService (s : State) (q : Nat) : State :=
  match (s.qp q).service with
  | none => s
  | some (d, v) =>
    match v with
    | .done _ _ _ => s
    | .validate h => (s.modObj h (fun o => { o with validating := false })).setService q d (.done stAborted 0 0)
    | .release h => (s.modObj h (fun o => { o with releasing := false })).setService q d (.done stAborted 0 0)
    | .run _ _ _ => s.setService q d (.done stAborted 0 0)
    | .close _ => s.setService q d (.done stAborted 0 0)
    | .register => s.setService q d (.done stAborted 0 0)
    | .steep _ _ _ => s.setService q d (.done stAborted 0 0)
    | .nme _ => s.setService q d (.done stAborted 0 0)

/-- A queue pair is closed out (R495): descriptors that wait are discarded and counted in DROPPED. -/
def State.closeOut (s : State) (q : Nat) : State :=
  (s.endService q).modQp q (fun x => { x with
    dropped := satAdd 0xFFFF x.dropped x.ring.length
    taken := x.taken + x.ring.length
    ring := [] })

/-- The ownership records of a partition at its reset (R375): ORPHAN, with no pending offer. -/
def State.orphanPart (s : State) (p : Nat) : State :=
  { s with own := s.own.map (fun r => if handlePart (refHandle r.ref) = p then { r with orphan := true, offer := none } else r) }

/-- The tags and buckets of a partition are set as R334 gives. -/
def State.resetShares (s : State) (p : Nat) : State :=
  let s1 := (kvKeys s.shares).foldl (fun (t : State) pt => t.modShare pt (fun h => { h with
    s := kvPut 0 h.s p h.v
    f := kvPut 0 h.f p h.v })) s
  (List.range 64).foldl (fun (t : State) a =>
    let t1 := t.retag p a
    { t1 with buckets := kvDel t1.buckets (64 * p + a) }) s1

/-- The partition draws a new tag (R475): what its internal buffers hold reads as zero. -/
def State.newTag (s : State) (p : Nat) : State :=
  let (g, s1) := s.drawTag
  let s2 := s1.modPart p (fun x => { x with
    tagDraw := g
    steps := []
    routeOld := none })
  { s2 with
    hot := s2.hot.filter (fun d => decide (handlePart d.handle ≠ p))
    moons := kvMapV (fun _ m => { m with
      sit := m.sit.filter (fun e => decide (handlePart (refHandle e.1) ≠ p))
      codebooks := m.codebooks.filter (fun e => decide (handlePart (refHandle e.ref) ≠ p)) }) s2.moons }

/-- The steps of R494 between its two records. -/
def State.resetSteps (s : State) (p : Nat) : State :=
  let ports := s.attachedPorts p
  let s1 := ports.foldl State.sendViral ((s.dropStaged p).orphanPart p)
  let s2 := (s1.ctxsOf p).foldl State.abortCtx s1
  let s3 := s2.purgeCells p
  let s4 := (s3.accs.filter (fun a => decide (a.part = p))).foldl State.endAcc s3
  let s5 := (s4.nmes.filter (fun n => decide (n.part = p))).foldl State.abortNme s4
  let s6 := ((kvKeys s5.qps).filter (fun q => decide (s5.qpPart q = p))).foldl State.closeOut s5
  (s6.newTag p).resetShares p

/-- PARTITION_RESET: a reset of a partition that is due runs from its first record to its second (R494): a shadowing of
the partition fails (R527), the steps run, the hold is lifted, and a fence ends except in device fault (R485, R501).
DESIGN CHOICE: assumption 12. -/
def execPartitionReset (p : Nat) (s : State) : Outcome :=
  .next (match (s.part p).resetDue with
    | none => s
    | some code =>
      if s.partValid p = false then s
      else
        let ended := (s.ctxs.filter (fun e => decide (e.2.part = p) && !e.2.abortPending)).length
        let s1 := (s.resetRec p 1 3 code 0).openWindow p .partition
        let s2 := (s1.shadowFail p 6).resetSteps p
        let s3 := s2.resetRec p 2 0 code ended
        s3.modPart p (fun x => { x with
          windows := []
          resetDue := none
          executed := false
          fenced := s3.devFault
          resets := satAdd 0xFFFF x.resets 1 }))

end Sys2Proof.Machine
end

