-- ==== Sys2Proof/Machine/Seal.lean ====
section
/-!
DEFINITION. The manifest (R452, R453) and its seal: the checks of R454, the choice of a slot (R455), and what sealing
writes.
-/
namespace Sys2Proof.Machine

/-! ### The manifest (R452, R453) -/

/-- A 64-bit word of a manifest. -/
def manWord (m : Memory) (off : Nat) : Word := BitVec.ofNat 64 (memNat m off 8)

/-- The registers that take a word of a partition record, with the word's offset in it. -/
def partRegs : List (RegName × Nat) :=
  [(.PART_CFG_A, 0), (.PART_CFG_B, 8), (.SCHED_PART_WT, 16), (.SCHED_CARVE_CH, 24), (.SCHED_CARVE_SP, 32), (.CTX_PART_CFG, 40)]

/-- The offset of a partition record. -/
def partRecord (p : Nat) : Nat := 2848 + 64 * p

/-- SVN of a manifest. -/
def manSvn (m : Memory) : Nat := memNat m 8 4

/-- COMMIT of a manifest. -/
def manCommit (m : Memory) : Bool := bitAt 0 (memNat m 6 2)

/-- A 64-byte hash of a manifest. -/
def manHash64 (m : Memory) (off : Nat) : BitVec 512 := BitVec.ofNat 512 (memNat m off 64)

/-- Whether some bytes of a manifest are zero. -/
def manZero (m : Memory) (off n : Nat) : Bool := decide (memNat m off n = 0)

/-- Whether a word of a manifest sets only bits that its register takes from it. -/
def manClean (m : Memory) (r : RegName) (off : Nat) : Bool := (manWord m off &&& ~~~ r.mask .sl) == 0

/-- A field of a word of a manifest. -/
def manField (m : Memory) (f : RField) (off : Nat) : Nat := bitsOf f.hi f.lo (memNat m off 8)

/-- The valid partitions of a manifest. -/
def manParts (m : Memory) : List Nat :=
  partIds.filter (fun p => manField m Reg.PART_CFG_A_VALID (partRecord p) == 1)

/-- Whether the numbers of two closed ranges have none in common. -/
def rangesApart (a b c d : Nat) : Bool := decide (min b d < max a c)

/-- Whether every two different members of a list pass a symmetric test. -/
def pairwise {α : Type} (f : α → α → Bool) : List α → Bool
  | [] => true
  | a :: r => r.all (f a) && pairwise f r

/-! ### The seal checks (R454) -/

/-- Form. -/
def sealForm (m : Memory) : Bool :=
  decide (memNat m 0 4 = 0x314E414D) && decide (memNat m 4 2 = 1) && decide (memNat m 6 2 < 2) && manZero m 12 52 &&
  manClean m .PART_PRIV 2656 && manZero m 2664 56 &&
  partIds.all (fun p => partRegs.all (fun e => manClean m e.1 (partRecord p + e.2)) && manZero m (partRecord p + 48) 16) &&
  (List.range 4096).all (fun w => manClean m .PART_WIN_A (3872 + 16 * w) && manClean m .PART_WIN_B (3880 + 16 * w)) &&
  (List.range 256).all (fun n => manClean m .LINK_PORT_CFG (69408 + 8 * n)) &&
  (List.range 64).all (fun g => manClean m .PART_PGRP (71456 + 8 * g)) &&
  (List.range 8192).all (fun q => decide (memNat m (71968 + q) 1 < 16))

/-- Binding. -/
def sealBinding (m : Memory) : Bool := manHash64 m 2720 == 0 || manHash64 m 2720 == idKeyHash

/-- Signature, and the owner check of R459. -/
def sealSigned (nv : Nv) (m : Memory) : Bool :=
  Config.manifestSigned (memRead m 0 85811) && (match nv.owner with
    | some h => h == Config.sha3 (memRead m 64 2592)
    | none => true)

/-- HBM, merge space, slots and trays. -/
def sealSums (m : Memory) : Bool :=
  let ps := manParts m
  let a := fun (f : RField) (p : Nat) => manField m f (partRecord p)
  let b := fun (f : RField) (p : Nat) => manField m f (partRecord p + 8)
  let c := fun (f : RField) (p : Nat) => manField m f (partRecord p + 40)
  decide ((ps.map (a Reg.PART_CFG_A_HBM_GIB)).sum ≤ 500) &&
  ps.all (fun p => a Reg.PART_CFG_A_MERGE_MIB p % 4 == 0) && decide ((ps.map (a Reg.PART_CFG_A_MERGE_MIB)).sum ≤ 96) &&
  decide ((ps.map (c Reg.CTX_PART_CFG_RES_SLOTS)).sum ≤ 512) &&
  ps.all (fun p => decide (b Reg.PART_CFG_B_KS_BASE p + b Reg.PART_CFG_B_KS_COUNT p ≤ 2048)) &&
  pairwise (fun p q => decide (b Reg.PART_CFG_B_KS_COUNT p = 0) || decide (b Reg.PART_CFG_B_KS_COUNT q = 0) ||
    rangesApart (b Reg.PART_CFG_B_KS_BASE p) (b Reg.PART_CFG_B_KS_BASE p + b Reg.PART_CFG_B_KS_COUNT p - 1)
      (b Reg.PART_CFG_B_KS_BASE q) (b Reg.PART_CFG_B_KS_BASE q + b Reg.PART_CFG_B_KS_COUNT q - 1)) ps &&
  decide ((ps.map (a Reg.PART_CFG_A_TRAY_GIB)).sum ≤ 2 ^ 21)

/-- Windows (R274). -/
def sealWindows (m : Memory) : Bool :=
  (List.range 4096).all (fun w =>
    let a := 3872 + 16 * w
    let size := manField m Reg.PART_WIN_B_SIZE_GIB (a + 8)
    manField m Reg.PART_WIN_A_VALID a == 0 || ((manParts m).contains (manField m Reg.PART_WIN_A_PART a) &&
      decide (1 ≤ size) && decide (size ≤ 2 ^ 22) && decide (manField m Reg.PART_WIN_B_BASE (a + 8) + size ≤ 2 ^ 22)))

/-- Carve mode (R341). -/
def sealCarve (m : Memory) : Bool :=
  let ps := manParts m
  let ch := fun (p : Nat) => memNat m (partRecord p + 24) 8
  let sp := fun (p : Nat) => memNat m (partRecord p + 32) 8
  pairwise (fun p q => decide (ch p &&& ch q = 0) && decide (sp p &&& sp q = 0)) ps &&
  decide ((ps.map (fun p => popCount (ch p))).sum ≤ 56) && decide ((ps.map (fun p => popCount (sp p))).sum ≤ 24) &&
  ps.all (fun p => (decide (ch p = 0) == decide (sp p = 0)) &&
    (decide (ch p = 0) || manField m Reg.PART_CFG_A_HBM_GIB (partRecord p) == 125 * popCount (ch p) / 16))

/-- A field of the port table. -/
def manPort (m : Memory) (f : RField) (n : Nat) : Nat := manField m f (69408 + 8 * n)
/-- A field of the port groups. -/
def manGroup (m : Memory) (f : RField) (g : Nat) : Nat := manField m f (71456 + 8 * g)

/-- Ports (R413, R453). -/
def sealPorts (m : Memory) : Bool :=
  let home := fun (n : Nat) => manPort m Reg.LINK_PORT_CFG_HOME n == 1
  let units := fun (n : Nat) => 2 ^ manPort m Reg.LINK_PORT_CFG_WIDTH n
  let gs := (List.range 64).filter (fun g => manGroup m Reg.PART_PGRP_VALID g == 1)
  let at_ := fun (f : RField) (g : Nat) => manGroup m f g
  (List.range 256).all (fun n =>
    let role := manPort m Reg.LINK_PORT_CFG_ROLE n
    (if home n then n % units n == 0 && (span (n + 1) (n + units n)).all (fun k => !home k) else role == 0) &&
    (role == 0 || (match gs.filter (fun g => decide (at_ Reg.PART_PGRP_PORT_LO g ≤ n) && decide (n ≤ at_ Reg.PART_PGRP_PORT_HI g)) with
      | [g] => at_ Reg.PART_PGRP_ROLE g == role
      | _ => false))) &&
  gs.all (fun g => decide (at_ Reg.PART_PGRP_ROLE g ≠ 0)) &&
  pairwise (fun g k =>
    rangesApart (at_ Reg.PART_PGRP_PORT_LO g) (at_ Reg.PART_PGRP_PORT_HI g) (at_ Reg.PART_PGRP_PORT_LO k) (at_ Reg.PART_PGRP_PORT_HI k) &&
    rangesApart (at_ Reg.PART_PGRP_PBR_LO g) (at_ Reg.PART_PGRP_PBR_HI g) (at_ Reg.PART_PGRP_PBR_LO k) (at_ Reg.PART_PGRP_PBR_HI k)) gs

/-- Queue pairs. -/
def sealQps (m : Memory) : Bool :=
  let ps := manParts m
  (List.range 8192).all (fun q =>
    let p := memNat m (71968 + q) 1
    ps.contains p || (ps.isEmpty && decide (p = 0)))

/-- The cause of SEC_BOOT_STAT of the first check of R454, in its table's order, that a manifest fails.
DEDUCED: assumption 52. -/
def manifestCause (nv : Nv) (m : Memory) : Option Nat :=
  if !(sealForm m && sealBinding m) then some 7
  else if !sealSigned nv m then some 5
  else if manSvn m < nv.manFloor then some 6
  else if !(sealSums m && sealWindows m && sealCarve m && sealPorts m && sealQps m) then some 7
  else none

/-! ### Slots of the boot flash (R455, R536, R540) -/

/-- The committed slots among some, that of the higher security version first. -/
def Nv.committed (nv : Nv) (ks : List Nat) : List (Nat × FlashSlot) :=
  let l := ks.filterMap (fun k => (kvGet? nv.slots k).bind (fun f => if f.st = 2 then some (k, f) else none))
  match l with
  | [a, b] => if a.2.svn < b.2.svn then [b, a] else [a, b]
  | _ => l

/-- The cause for which a Moannis image fails steps 3 and 4 of R460. -/
def firmwareCause (nv : Nv) (f : FlashSlot) : Option Nat :=
  if Config.firmwareSigned (memRead f.data 0 f.len) = false then some 3
  else if f.svn < nv.fwFloor then some 4
  else none

/-! ### Sealing -/

/-- Boot code writes the SL fields from a manifest (R453, R454). -/
def State.writeSl (s : State) (m : Memory) : State :=
  let s1 := s.setSlW .PART_PRIV [] (manWord m 2656)
  let s2 := (manParts m).foldl (fun (t : State) p =>
    partRegs.foldl (fun (u : State) e => u.setSlW e.1 [p] (manWord m (partRecord p + e.2))) t) s1
  let s3 := (List.range 4096).foldl (fun (t : State) w =>
    (t.setSlW .PART_WIN_A [w] (manWord m (3872 + 16 * w))).setSlW .PART_WIN_B [w] (manWord m (3880 + 16 * w))) s2
  let s4 := (List.range 256).foldl (fun (t : State) n => (t.setSlW .LINK_PORT_CFG [n] (manWord m (69408 + 8 * n))).fset
    Reg.MGT_DISC_ROLE [n] (manPort m Reg.LINK_PORT_CFG_ROLE n)) s3
  let s5 := (List.range 64).foldl (fun (t : State) g => t.setSlW .PART_PGRP [g] (manWord m (71456 + 8 * g))) s4
  (List.range 8192).foldl (fun (t : State) q => t.setSlW .CTX_QP_A [q] (BitVec.ofNat 64 (memNat m (71968 + q) 1 * 2 ^ 52))) s5

/-- The valid window entries whose source range holds an accelerator's PBR ID, in entry order (R384). -/
def State.extentsOf (s : State) (pbr : Nat) : List Nat := (List.range 4096).filter (fun w => s.winAdmits w pbr)

/-- The PBR IDs of the valid accelerator groups. -/
def State.accelIds (s : State) : List Nat :=
  (List.range 64).flatMap (fun g =>
    if s.fget Reg.PART_PGRP_VALID [g] = 1 ∧ s.fget Reg.PART_PGRP_ROLE [g] = 1 then
      span (s.fget Reg.PART_PGRP_PBR_LO [g]) (s.fget Reg.PART_PGRP_PBR_HI [g] + 1) else [])

/-- What sealing from a manifest does (R454): the SL fields, the anchors, the tag of each partition (R475), and PART_SEAL.
DEDUCED: assumption 52. -/
def State.sealFrom (s : State) (m : Memory) : State :=
  let s1 := s.writeSl m
  let anchors := ((List.range 16).map (fun i => manHash64 m (80160 + 64 * i))).filter (fun a => decide (a ≠ 0))
  let s2 : State := { s1 with anchors := anchors, manHash := Config.sha3 (memRead m 0 81184) }
  let s3 := (manParts m).foldl (fun (t : State) p => t.newTag p) s2
  let omitted := (s3.accelIds.map (fun i => (s3.extentsOf i).length - 256)).sum
  ((s3.fset Reg.LINK_PILOT_STAT_OMITTED [] (min 0xFFFF omitted)).fset Reg.PART_SEAL_MAN_SVN [] (manSvn m)).fset
    Reg.PART_SEAL_SEALED [] 1

/-- A recovery seal (R455). -/
def State.sealRecovery (s : State) (cause : Nat) : State :=
  let s1 := (s.setSlW .PART_PRIV [] 3).fset Reg.LINK_PILOT_STAT_OMITTED [] 0
  ((s1.fset Reg.SEC_BOOT_STAT_CAUSE [] cause).fset Reg.PART_SEAL_RECOVERY [] 1).fset Reg.PART_SEAL_SEALED [] 1

/-- The owner key hash and the TOFU flag after a manifest seals (R459). -/
def State.adoptOwner (s : State) (m : Memory) : State :=
  match s.nv.owner with
  | some _ => s
  | none => { s with nv := { s.nv with owner := some (Config.sha3 (memRead m 64 2592)), tofu := true } }

/-- Step 6 of R460 (R454, R455): the sealed manifest, where there is one. -/
def State.sealStep (s : State) : State × Option Memory :=
  let cs := s.nv.committed [2, 3]
  match cs.find? (fun c => (manifestCause s.nv c.2.data).isNone) with
  | some c => ((s.sealFrom c.2.data).adoptOwner c.2.data, some c.2.data)
  | none =>
    match cs with
    | c :: _ => (s.sealRecovery ((manifestCause s.nv c.2.data).getD 7), none)
    | [] => (s.sealRecovery 8, none)

/-- Step 7 of R460: COMMIT raises both floors, that of Moannis to its security version, and applies NEXT_OWNER. -/
def State.commitStep (s : State) (svn : Nat) (m : Memory) : State :=
  if manCommit m then
    let next := manHash64 m 2784
    { s with nv := { s.nv with
        fwFloor := svn
        manFloor := manSvn m
        owner := if next = 0 then s.nv.owner else some next } }
  else s

/-- SEC_FLOOR and OWNER_TOFU show the replay-protected region. -/
def State.showRpr (s : State) : State :=
  ((s.fset Reg.SEC_FLOOR_FW_FLOOR [] s.nv.fwFloor).fset Reg.SEC_FLOOR_MAN_FLOOR [] s.nv.manFloor).fset
    Reg.PART_SEAL_OWNER_TOFU [] (bit01 s.nv.tofu)

end Sys2Proof.Machine
end

