-- ==== Sys2Proof/Machine/Boot.lean ====
section
/-!
DEFINITION. Boot (R460), the end of stack training (R553 to R555), SYS_RST_N (R438) and the device reset (R456, R502).
-/
namespace Sys2Proof.Machine

/-- A boot halt (R460): rails 1 to 47 are down, and SEC_BOOT_STAT holds the cause and the last step completed. -/
def State.bootHalt (s : State) (cause stage : Nat) : State :=
  ((((s.dropRails .halted).setRegW .PART_SEAL [] 0).fset Reg.SEC_BOOT_STAT_CAUSE [] cause).fset Reg.SEC_BOOT_STAT_STAGE [] stage)

/-- Steps 1 to 7 of R460; and whether boot code ends them without a halt. `puf` tells that the device secret is
reconstructed, `rpr` that the replay-protected region authenticates, `write` that its write succeeds. The island holds the
derived keys of R458 from there on.
DEDUCED: assumption 52. -/
def State.bootCode (s : State) (puf rpr write : Bool) : State × Bool :=
  if !puf then (s.bootHalt 1 0, false)
  else if !rpr then (s.bootHalt 2 1, false)
  else
    let fs := s.nv.committed [0, 1]
    match fs.find? (fun f => (firmwareCause s.nv f.2).isNone) with
    | none =>
      let c := match fs with
        | f :: _ => (firmwareCause s.nv f.2).getD 3
        | [] => 3
      (s.bootHalt c (c - 1), false)
    | some f =>
      let keys := devKeys (memRead f.2.data 0 f.2.len)
      let s1 := ({ s with running := some f.1, island := some keys } : State).fset Reg.SEC_BOOT_STAT_FW_SVN [] f.2.svn
      let (s2, man) := s1.sealStep
      let commits := match man with
        | some m => manCommit m
        | none => false
      if commits && !write then (s.bootHalt 2 6, false)
      else
        let s3 := match man with
          | some m => s2.commitStep f.2.svn m
          | none => s2
        let s4 := s3.nv.exhausted.foldl (fun (t : State) k => t.fset Reg.SEC_KS_B_STATE [k] 4) s3
        (s4.showRpr.fset Reg.SEC_BOOT_STAT_STAGE [] 7, true)

/-- BOOT: boot code runs in the security island from step 4 of R437: steps 1 to 7 of R460, then step 8, which commands the
rails and releases the management core. A device on which a scan or self-test has acted goes no further (R551).
DESIGN CHOICE: assumption 12. DEDUCED: assumptions 48 and 52. -/
def execBoot (puf rpr write : Bool) (s : State) : Outcome :=
  .next (if s.pwr.phase ≠ .boot ∨ s.tap.acted = true then s
    else
      let (t, ok) := s.bootCode puf rpr write
      if ok then (t.fset Reg.SEC_BOOT_STAT_STAGE [] 8).modPwr (fun w => { w with phase := .rails, group := 0 }) else t)

/-- The laser modules whose engines carry a port with a role (R554). -/
def State.neededLasers (s : State) : List Nat :=
  (List.range 16).filter (fun k => (List.range 256).any (fun n => s.livePort n && decide (engineOf n / 2 = k)))

/-- HBM_TRAINING_END: the training of the stacks ends, at start-up or in a device reset; those that have not trained
leave service (R555), and a failure of both copies of a registry or placement-map line is device fault (R501, R553). The
placement and spill keys are drawn (R246, R314), the lasers are enabled and ports with a role enter DETECT (R553, R554). -/
def execHbmTrainingEnd (found : Training) (s : State) : Outcome :=
  .next (if s.pwr.phase ≠ .train then s
    else
      let (d, s0) := s.draw
      let (e, s1) := s0.draw
      let lsen := (s1.neededLasers.map (fun k => 2 ^ k)).sum
      let s2 := ({ s1 with placeKey := d, spillKey := e } : State).fset Reg.MGT_PWR_CTRL_LSEN [] lsen
      let s3 := ((List.range 256).filter s2.livePort).foldl (fun (t : State) n => t.setPort n 1) s2
      let s4 := (found.untrained.filter (fun i => decide (i < 8))).foldl (fun (t : State) i => t.loseStack i) s3
      (if found.maps then s4.enterDeviceFault 2 0 else s4).modPwr (fun w => { w with phase := .ready }))

/-! ### Resets -/

/-- What a reset keeps beside the replay-protected region and the flash: the commands that wait, what has left, the random
source, MGT_PWR_FAULT (R438), the rails' readings, and the I3C address and endpoint ID (R532).
DEDUCED: assumption 51. -/
def State.resetBase (s : State) (rails : List Nat) (p : PwrPhase) : State :=
  let s0 : State := { State.reset with
    pending := s.pending
    nv := s.nv
    rng := s.rng
    out := s.out
    tap := { s.tap with acted := false }
    mgmt := { State.reset.mgmt with i3c := s.mgmt.i3c, eid := s.mgmt.eid }
    pwr := { State.reset.pwr with phase := p, pwrgd := s.pwr.pwrgd, perst := s.pwr.perst } }
  rails.foldl (fun (t : State) r => t.setRegW .MGT_RAIL [r] (s.regW .MGT_RAIL [r]))
    (s0.setRegW .MGT_PWR_FAULT [] (s.regW .MGT_PWR_FAULT []))

/-- SYS_RST_N: the land is driven low once VDD_AON is up (R438, R502): rails 47 down to 1 fall, the held-off state ends,
and the device resumes at step 4 of R437.
DEDUCED: assumption 51. -/
def execSysRstN (s : State) : Outcome :=
  .next (if !s.aonUp then s
    else (s.resetBase [0, 48] .boot).modClk (fun c => { c with up := [7, 8] }))

/-- DEVICE_RESET: a device reset that is due runs to the retraining of the stacks (R502): viral on every accelerator link,
DARK on every port with a role, all work ends, registers outside the PILOT domain return to their reset values, counters
but PILOT's restart, and boot code seals again from the flash (R456, R468). A boot halt ends it.
DESIGN CHOICE: assumption 12. DEDUCED: assumption 51. -/
def execDeviceReset (puf rpr write : Bool) (s : State) : Outcome :=
  .next (if !s.devResetDue || decide (s.pwr.phase ≠ .ready) then s
    else
      let ports := (List.range 256).filter s.livePort
      let s1 := (ports.filter (fun n => decide (s.role n = 1))).foldl (fun (t : State) n => t.emit (.viral n)) s
      let s2 := ports.foldl (fun (t : State) n => t.emit (.dark n)) s1
      let s3 := (s2.resetBase (List.range 49) .train).modClk (fun c => { c with
        up := s.clk.up
        count := kvFilter (fun d _ => decide (d = 6)) s.clk.count
        frac := kvFilter (fun d _ => decide (d = 6)) s.clk.frac })
      let s4 := ({ s3 with pilot := s.pilot } : State).setRegW .LINK_PILOT_STAT [] (s.regW .LINK_PILOT_STAT [])
      (s4.bootCode puf rpr write).1)

end Sys2Proof.Machine
end

