-- ==== Sys2Proof/Machine/Show.lean ====
section
/-!
DEFINITION. What BAR0 registers read as (R4 to R7, R561, R562): a register that shows state kept elsewhere is computed
from it, and every other one reads its fields in force.
-/
namespace Sys2Proof.Machine

/-- The 32 bytes of an error record (R479). -/
def Rec.bytes (r : Rec) : List Byte :=
  natBytes 1 r.status ++ natBytes 1 r.cls ++ natBytes 1 r.code ++ natBytes 1 r.flags ++ natBytes 1 (r.part % 16) ++
  natBytes 1 r.scope ++ natBytes 2 r.unit ++ natBytes 8 r.wordA ++ natBytes 8 r.wordB ++ natBytes 8 r.time

/-- Word `w` of slot `i` of an error queue; 0 where no record has stood there. -/
def ErrQ.word (q : ErrQ) (i w : Nat) : Nat :=
  match kvGet? q.recs i with
  | some r => field r.bytes (8 * w) 8
  | none => 0

/-- HEAD and TAIL as the PTR registers show them (R482). -/
def ErrQ.ptr (q : ErrQ) : Nat := q.head * 2 ^ 32 + q.tail

/-- ENROLLED, ARRIVED and the other bits of one bit per partition, as a word. -/
def bitsWhere (n : Nat) (f : Nat → Bool) : Nat := ((List.range n).map (fun i => bit01 (f i) * 2 ^ i)).sum

/-- CTX_QP_STAT (R376). -/
def State.qpStat (s : State) (q : Nat) : Nat :=
  let x := s.qp q
  let full := match x.service with
    | some (_, .done _ _ _) => decide (x.consumed + s.cqSize q ≤ x.written)
    | _ => false
  x.dropped * 2 ^ 48 + (s.group q).length * 2 ^ 27 + x.ring.length * 2 ^ 16 + 2 * bit01 full + bit01 x.service.isSome

/-- CTX_QP_C: JOB, and the lowest-numbered context of the group (R376). -/
def State.qpC (s : State) (q : Nat) : Nat :=
  let low := match s.group q with
    | c :: _ => (match s.ctx? c with
      | some x => x.ref c
      | none => 0)
    | [] => 0
  s.fget Reg.CTX_QP_C_JOB [q] * 2 ^ 32 + low

/-- CTX_STATE of a context number (R376). -/
def State.ctxState (s : State) (c : Nat) : Nat :=
  match s.ctx? c with
  | none => 0
  | some x =>
    let st := if x.closing then 6 else match x.phase with
      | .parked => if s.runnable c x then 1 else 0
      | .resuming => 2
      | .resident => if x.running then 3 else 4
      | .parking => 5
    2 ^ 63 + st * 2 ^ 60 + x.part * 2 ^ 56 + x.gen * 2 ^ 28 + bit01 x.enroll * 2 ^ 27 + bit01 x.stay * 2 ^ 26 + x.qp * 2 ^ 13

/-- CTX_PART_STAT (R376). -/
def State.partStat (s : State) (p : Nat) : Nat :=
  let l := s.ctxs.filter (fun e => decide (e.2.part = p))
  (s.part p).faults * 2 ^ 48 + (l.filter (fun e => s.runnable e.1 e.2)).length * 2 ^ 32 + l.length * 2 ^ 16 +
  (l.filter (fun e => decide (e.2.phase = .resident))).length

/-- MOON_STAT (R58). -/
def State.moonStat (s : State) (m : Nat) : Nat :=
  let at' := fun (i : Nat) => (s.occupant (8 * m + i)).bind s.ctx?
  (bitsWhere 8 (fun i => match at' i with
    | some x => x.held
    | none => false)) * 2 ^ 16 + (bitsWhere 8 (fun i => (at' i).isSome)) * 2 ^ 8 + bit01 (s.moonInService m)

/-- MOON_EXP_OCC (R181): the codebook slots that streams hold, and the streams. -/
def State.expOcc (s : State) (m : Nat) : Nat := bookSlots (s.moon m).held * 2 ^ 8 + (s.moon m).streams.length

/-- XBAR_QUAD_OCC of a quadrant (R307, R320): the slot of node n lies in quadrant n mod 4. -/
def State.quadOcc (s : State) (q : Nat) : Nat :=
  let used := (partIds.map (fun p => ((s.part p).steps.map (fun t =>
    (t.slots.filter (fun e => decide (e.1 % 4 = q))).length * t.units)).sum)).sum
  used * 2 ^ 32 + queueUnits (s.quadQueued q) % 2 ^ 18

/-- XBAR_PORT_OCC (R320). -/
def State.portOcc (s : State) (n : Nat) : Nat :=
  let x := s.xinOf n
  let top := match s.topClass n with
    | some c => 2 ^ 31 + c * 2 ^ 28
    | none => 0
  x.chunks * 2 ^ 32 + top + x.rspUsed * 2 ^ 12 + x.used

/-- ERR_PQ_STAT (R504). -/
def State.pqStat (s : State) (p : Nat) : Nat :=
  let x := s.part p
  let st := if s.devFault then 3 else if x.resetDue.isSome then 1 else if x.fenced then 2 else 0
  x.errq.dropped * 2 ^ 48 + x.resets * 2 ^ 32 + x.windows.length * 2 ^ 16 + st * 4 + 2 * bit01 x.fenced + bit01 x.errq.gap

/-- GLB_SHD_STAT (R530). -/
def State.shdStat (s : State) (p : Nat) : Nat :=
  let x := s.part p
  let (clean, lag, back) := match x.shadow with
    | some h => (h.clean, min 255 (h.lag x.orbit), ceilDiv h.unsent 1024)
    | none => (0, 0, 0)
  x.shadowState * 2 ^ 61 + x.shadowCause * 2 ^ 52 + clean * 2 ^ 32 + lag * 2 ^ 24 + back % 2 ^ 24

/-- SEC_KS_B (R478): PART and OWNED come from the sealed ranges. -/
def State.ksB (s : State) (k : Nat) : Nat :=
  let low := bitsOf 55 0 (s.regW .SEC_KS_B [k]).toNat
  match s.slotPart k with
  | some p => p * 2 ^ 60 + 2 ^ 59 + low
  | none => low

/-- LINK_LANE_MARGIN of a lane (R427): the lanes of a port begin at those of its home unit (R413). -/
def State.laneMargin (s : State) (l : Nat) : Nat :=
  let lock := match (List.range 256).find? (fun n => s.livePort n && decide (2 * n ≤ l) && decide (l < 2 * n + s.boundLanes n)) with
    | some n => bit01 (bitAt (l - 2 * n) (s.fget Reg.LINK_PORT_STAT_LANE_LOCK [n]))
    | none => 0
  s.fget Reg.LINK_LANE_MARGIN_CORR_SYM [l] * 2 ^ 32 + Config.laneReading l s.now % 2 ^ 22 * 2 ^ 10 + lock

/-- GiB, rounded up. -/
def inGib (n : Nat) : Nat := ceilDiv n (2 ^ 30)

/-- The value of a register that shows state kept elsewhere; none of any other. -/
def State.computed (s : State) (r : RegName) (ix : List Nat) : Option Nat :=
  let i := ix.headD 0
  let j := (ix.drop 1).headD 0
  match r with
  | .GLB_ORB_PEND => some (bitsWhere 16 (fun p => (s.part p).devFlag) * 2 ^ 16 + bitsWhere 16 (fun p => (s.part p).hostFlag))
  | .GLB_ORB_STAT => some (s.orbStat i)
  | .GLB_CYC => some (s.cycles i % 2 ^ 64)
  | .GLB_SHD_STAT => some (s.shdStat i)
  | .CTX_QP_C => some (s.qpC i)
  | .CTX_QP_STAT => some (s.qpStat i)
  | .CTX_STATE => some (s.ctxState i)
  | .CTX_PART_STAT => some (s.partStat i)
  | .XBAR_SPILL_STAT => some (putBits 20 0 (s.regW r ix).toNat s.ringUsed)
  | .XBAR_TAG_STAT => some (putBits 33 0 (s.regW r ix).toNat
      (s.minSum * 2 ^ 17 + ((List.range 256).map (fun n => s.tagsOf n)).sum))
  | .XBAR_QUAD_OCC => some (s.quadOcc i)
  | .XBAR_PORT_OCC => some (s.portOcc i)
  | .XBAR_TAG_BUDGET => some (putBits 62 46 (s.regW r ix).toNat (s.tagsOf i))
  | .XBAR_COMB_STAT => some (putBits 10 0 (s.regW r ix).toNat s.hot.length)
  | .XBAR_BI_STAT => some (putBits 63 43 (s.regW r ix).toNat s.dir.length)
  | .PLACE_HBM_USE => some (s.fget Reg.PART_CFG_A_HBM_GIB [i] * 2 ^ 48 + inGib (s.pinnedBytes i) * 2 ^ 32 +
      inGib (s.cachedBytes i) * 2 ^ 16)
  | .PLACE_TRAY_USE => some (s.fget Reg.PART_CFG_A_TRAY_GIB [i] * 2 ^ 32 + inGib (s.tier2Bytes i))
  | .MOON_STAT => some (s.moonStat i)
  | .MOON_EXP_OCC => some (s.expOcc i)
  | .LINK_LANE_MARGIN => some (s.laneMargin i)
  | .SEC_KS_B => some (s.ksB i)
  | .ERR_DQ_REC => some (s.devq.word i j)
  | .ERR_PQ_REC => some ((s.part i).errq.word j ((ix.drop 2).headD 0))
  | .ERR_DQ_PTR => some s.devq.ptr
  | .ERR_DQ_STAT => some (s.devq.dropped * 2 ^ 48 + 2 * bit01 s.devFault + bit01 s.devq.gap)
  | .ERR_PQ_PTR => some (s.part i).errq.ptr
  | .ERR_PQ_STAT => some (s.pqStat i)
  | .TELEM_WALL => some s.wallNs
  | _ => none

/-- What a read of a register returns, privilege apart (R7, R562).
DEDUCED: assumption 8. DESIGN CHOICE: assumption 57. -/
def State.readReg (s : State) (r : RegName) (ix : List Nat) : Word :=
  if r.desc.owner = .first && !s.partValid (ix.headD 0) then r.resetW
  else match s.computed r ix with
    | some n => BitVec.ofNat 64 n
    | none => s.regW r ix &&& ~~~ r.mask .wo

end Sys2Proof.Machine
end

