-- ==== Sys2Proof/Machine/Services.lean ====
section
/-!
DEFINITION. The services of the management core (R531 to R541, R546): the service mailbox, the services over MCTP, the
boot flash, and the counter sets.
-/
namespace Sys2Proof.Machine

/-! ### Messages (R533) -/

/-- OP of a request. -/
def svcOp (q : List Byte) : Nat := field q 0 1
/-- The payload a request gives. -/
def svcPayload (q : List Byte) : List Byte := (q.drop 8).take (field q 2 2)

/-- A response to a request (R533). -/
def svcResponse (q : List Byte) (st : Nat) (pay : List Byte) : List Byte :=
  natBytes 1 (svcOp q) ++ natBytes 1 st ++ natBytes 2 pay.length ++ natBytes 4 (field q 4 4) ++ pay

/-- Whether a payload has the length and the zero bytes its service asks for (R533, R534). -/
def svcForm (op : Nat) (p : List Byte) : Bool :=
  match op with
  | 1 => p.isEmpty
  | 2 => p.isEmpty
  | 3 => decide (72 ≤ p.length) && decide (p.length ≤ 4040) && decide (p.length % 64 = 8) && decide (field p 1 3 = 0) &&
      decide (field p 4 4 % 64 = 0)
  | 4 => decide (p.length = 8) && decide (field p 1 3 = 0)
  | 5 => decide (p.length = 1)
  | 6 => decide (p.length = 10) && decide (field p 2 2 = 0)
  | 7 => decide (p.length = 4)
  | _ => false

/-- Whether a request of `n` bytes is well formed.
DEDUCED: assumption 54. -/
def svcOk (q : List Byte) : Bool :=
  decide (field q 1 1 = 0) && decide (field q 2 2 ≤ 4088) && decide (8 + field q 2 2 ≤ q.length) && svcForm (svcOp q) (svcPayload q)

/-! ### The boot flash (R536 to R540) -/

/-- A slot of the boot flash. -/
def State.flash (s : State) (k : Nat) : FlashSlot := kvGet ⟨0, 0, 0, 0, 0, []⟩ s.nv.slots k

/-- The state with a flash slot changed. -/
def State.setFlash (s : State) (k : Nat) (f : FlashSlot) : State :=
  { s with nv := { s.nv with slots := kvPut ⟨0, 0, 0, 0, 0, []⟩ s.nv.slots k f } }

/-- An empty slot. -/
def emptySlot : FlashSlot := ⟨0, 0, 0, 0, 0, []⟩

/-- The largest image of a slot (R536), to the end of its last 64 bytes.
DEDUCED: assumption 53. -/
def flashRoom (k : Nat) : Nat := if k < 2 then 8 * 2 ^ 20 else 64 * ceilDiv 85811 64

/-- Whether a slot is open and owned by another transport than `tr`, 1 the mailbox and 2 MCTP (R537). -/
def FlashSlot.foreign (f : FlashSlot) (tr : Nat) : Bool := decide (f.st = 1) && decide (f.owner ≠ tr)

/-- Whether the rule that keeps one firmware slot committed stops a write or erase of a slot (R537, R541). -/
def State.flashGuard (s : State) (k : Nat) : Bool :=
  decide (k < 2) && decide (s.pwr.phase ≠ .halted) && decide ((s.flash (1 - k)).st ≠ 2)

/-- FLASH_WRITE (R537); of two statuses that apply, ACCESS comes before BUSY (R10).
DESIGN CHOICE: assumption 9. -/
def State.flashWrite (s : State) (tr k off : Nat) (bs : List Byte) : State × Nat :=
  if decide (4 ≤ k) || s.flashGuard k || decide (flashRoom k < off + bs.length) then (s, stAccess)
  else if (s.flash k).foreign tr then (s, stBusy)
  else (s.setFlash k ⟨1, tr, 0, 0, 0, memWrite (s.flash k).data off bs⟩, stOk)

/-- The security version an image carries. -/
def imageSvn (k : Nat) (m : Memory) (len : Nat) : Nat :=
  if k < 2 then Config.firmwareSvn (memRead m 0 len) else manSvn m

/-- The image of a slot up to a length: bytes beyond it read as nothing written.
DESIGN CHOICE: assumption 9. -/
def imageTo (m : Memory) (len : Nat) : Memory := m.filter (fun c => decide (c.1 < len))

/-- Whether an image of a slot passes the checks of FLASH_COMMIT (R536, R538). -/
def State.commitOk (s : State) (k len : Nat) (m : Memory) : Bool :=
  let other := s.flash (if k % 2 = 0 then k + 1 else k - 1)
  let svn := imageSvn k m len
  (if k < 2 then decide (4096 ≤ len) && decide (len ≤ 8 * 2 ^ 20) && (firmwareCause s.nv ⟨1, 0, len, svn, 0, m⟩).isNone
   else decide (len = 85811) && (manifestCause s.nv m).isNone) &&
  (decide (other.st ≠ 2) || decide (other.svn ≠ svn))

/-- FLASH_COMMIT (R538).
DEDUCED: assumption 53. -/
def State.flashCommit (s : State) (tr k len : Nat) : State × Nat :=
  let f := s.flash k
  let m := imageTo f.data len
  if decide (4 ≤ k) || decide (f.st ≠ 1) || !s.commitOk k len m then (s, stAccess)
  else if f.foreign tr then (s, stBusy)
  else
    let n := s.nv.commits + 1
    ((({ s with nv := { s.nv with commits := n } } : State).setFlash k ⟨2, 0, len, imageSvn k m len, n, m⟩), stOk)

/-- FLASH_ERASE (R537, R539). -/
def State.flashErase (s : State) (tr k : Nat) : State × Nat :=
  if decide (4 ≤ k) || s.flashGuard k then (s, stAccess)
  else if (s.flash k).foreign tr then (s, stBusy)
  else (s.setFlash k emptySlot, stOk)

/-- The 16 bytes of a slot in FLASH_INFO (R534).
DEDUCED: assumption 53. -/
def FlashSlot.info (f : FlashSlot) : List Byte :=
  natBytes 1 f.st ++ natBytes 3 0 ++ natBytes 4 f.svn ++ natBytes 4 f.len ++ natBytes 4 f.seq

/-! ### Counter sets (R546) -/

/-- How many values a register has. -/
def RegName.count (r : RegName) : Nat := (r.desc.dims.map (fun d => d.2)).foldl (fun a b => a * b) 1

/-- The indices of the value number `i` of a register in ascending BAR0 offset. -/
def unflatten : List (Nat × Nat) → Nat → List Nat
  | [], _ => []
  | _ :: r, i => (i / (r.map (fun d => d.2)).foldl (fun a b => a * b) 1) ::
      unflatten r (i % (r.map (fun d => d.2)).foldl (fun a b => a * b) 1)

/-- The registers of a counter set, in ascending BAR0 offset; those of set 1 follow one another in each Moon's window. -/
def telemRegs : Nat → List RegName
  | 0 => [.MOON_CYC]
  | 1 => [.MOON_EXP_CODED, .MOON_EXP_RAW, .MOON_EXP_LOADS, .MOON_EXP_OCC]
  | 2 => [.PLACE_IMBAL_STAT, .PLACE_HBM_USE, .PLACE_TRAY_USE, .PLACE_EVT, .PLACE_CHAN_LOAD, .PLACE_TRAY_LOAD]
  | 3 => [.NME_ECC]
  | 4 => [.XBAR_FAB_REFUSE, .XBAR_COMB_STAT, .XBAR_BI_STAT]
  | 5 => [.XBAR_SPILL_STAT, .XBAR_TAG_STAT, .XBAR_QUAD_OCC, .XBAR_PORT_OCC, .XBAR_PORT_EVT, .XBAR_TAG_BUDGET]
  | 6 => [.SCHED_ACCT_STAT, .SCHED_CTX_SDI, .SCHED_CTX_ENG]
  | 7 => [.LINK_PORT_STAT, .LINK_PORT_ERR, .LINK_LANE_MARGIN, .LINK_IDE_STAT, .LINK_PILOT_STAT, .LINK_OE_STAT,
      .LINK_PORT_HEALTH]
  | 8 => [.MGT_PWR_STAT, .MGT_PWR_FAULT, .MGT_TEMP_HUB, .MGT_TEMP_HBM, .MGT_STRETCH, .MGT_STRETCH_CYC, .MGT_RAIL]
  | 9 => [.PLACE_MIR_STAT, .PLACE_TRAY_STAT, .PLACE_PAIR_STAT]
  | 10 => [.GLB_ORB_STAT, .GLB_ORB_PAUSE, .ERR_DQ_STAT, .ERR_PQ_STAT]
  | 11 => [.CTX_STATE, .CTX_PART_STAT]
  | 12 => [.GLB_CYC]
  | _ => []

/-- How many values a set holds. -/
def telemSize (set : Nat) : Nat := ((telemRegs set).map RegName.count).sum

/-- The register of value `i` among registers whose values follow one another. -/
def telemWalk : List RegName → Nat → Option (RegName × List Nat)
  | [], _ => none
  | r :: rs, i => if i < r.count then some (r, unflatten r.desc.dims i) else telemWalk rs (i - r.count)

/-- The register of value `i` of a set. -/
def telemAt (set i : Nat) : Option (RegName × List Nat) :=
  if set = 1 then ((telemRegs 1)[i % 4]?).map (fun r => (r, [i / 4])) else telemWalk (telemRegs set) i

/-- TELEM_READ: `count` values of a set from an index on.
DEDUCED: assumption 8. -/
def State.telemRead (s : State) (set first count : Nat) : Nat × List Byte :=
  if 13 ≤ set ∨ count = 0 ∨ 511 < count ∨ telemSize set < first + count then (stAccess, [])
  else (stOk, (span first (first + count)).flatMap (fun i => match telemAt set i with
    | some (r, ix) => natBytes 8 (s.readReg r ix).toNat
    | none => natBytes 8 0))

/-! ### The services (R534) -/

/-- A service that is well formed, performed for a transport (1 the mailbox, 2 MCTP): the state, the status and the
response payload. During a boot halt only what R541 names is served. -/
def State.serveMgmt (s : State) (tr op : Nat) (p : List Byte) : State × Nat × List Byte :=
  let halted := decide (s.pwr.phase = .halted)
  let shut := halted && (decide (6 ≤ op) || (decide (3 ≤ op) && decide (2 ≤ field p 0 1)))
  let plain := fun (r : State × Nat) => (r.1, r.2, ([] : List Byte))
  if shut then (s, stAccess, [])
  else match op with
    | 1 => (s, stOk, natBytes 8 (s.regW .SEC_BOOT_STAT []).toNat ++
        natBytes 8 (if halted then 0 else (s.regW .PART_SEAL []).toNat) ++ natBytes 8 (s.regW .SEC_FLOOR []).toNat ++
        natBytes 8 (s.regW .MGT_PWR_FAULT []).toNat ++ natBytes 8 (s.cycles 7))
    | 2 => (s, stOk, (List.range 4).flatMap (fun k => (s.flash k).info))
    | 3 => plain (s.flashWrite tr (field p 0 1) (field p 4 4) (p.drop 8))
    | 4 => plain (s.flashCommit tr (field p 0 1) (field p 4 4))
    | 5 => plain (s.flashErase tr (field p 0 1))
    | 6 =>
      if tr = 1 ∧ s.telemeters = false then (s, stAccess, [])
      else
        let r := s.telemRead (field p 0 2) (field p 4 4) (field p 8 2)
        (s, r.1, r.2)
    | 7 =>
      let a := field p 0 2
      let n := field p 2 2
      if n = 0 ∨ 256 < a + n then (s, stAccess, [])
      else (s, stOk, (span a (a + n)).flatMap (fun i => natBytes 8 (s.regW .MGT_DISC [i]).toNat))
    | _ => (s, stAccess, [])

/-- A request performed, or answered with ACCESS where it is malformed: the state and the response. -/
def State.answerSvc (s : State) (tr : Nat) (q : List Byte) : State × Nat × List Byte :=
  if svcOk q then
    let r := s.serveMgmt tr (svcOp q) (svcPayload q)
    (r.1, r.2.1, svcResponse q r.2.1 r.2.2)
  else (s, stAccess, svcResponse q stAccess [])

/-! ### The service mailbox (R552) -/

/-- The bytes in MGT_SVC_BUF. -/
def State.svcBuf (s : State) : List Byte := (List.range 512).flatMap (fun i => natBytes 8 (s.regW .MGT_SVC_BUF [i]).toNat)

/-- A response is put into MGT_SVC_BUF; the bytes after it stay as they are. -/
def State.putSvcBuf (s : State) (bs : List Byte) : State :=
  (List.range (ceilDiv bs.length 8)).foldl (fun (t : State) i =>
    t.setRegW .MGT_SVC_BUF [i] (BitVec.ofNat 64 (bytesNat (((bs ++ (s.svcBuf).drop bs.length).drop (8 * i)).take 8)))) s

/-- The response of the request in the mailbox: DONE with MSI-X vector 0 (R404, R552). -/
def State.finishSvc (s : State) : State :=
  let r := s.answerSvc 1 s.svcBuf
  ((((r.1.putSvcBuf r.2.2).fset Reg.MGT_SVC_STAT_STATUS [] r.2.1).fset Reg.MGT_SVC_STAT_DONE [] 1).fset
    Reg.MGT_SVC_STAT_BUSY [] 0).emit (.msix 0)

/-- A write of 1 to GO: the message in MGT_SVC_BUF is submitted, and dropped while BUSY. A malformed one is answered at
once; any other waits for its service.
DEDUCED: assumption 54. -/
def State.submitSvc (s : State) : State :=
  if s.fget Reg.MGT_SVC_STAT_BUSY [] = 1 then s
  else
    let s1 := (s.fset Reg.MGT_SVC_STAT_DONE [] 0).fset Reg.MGT_SVC_STAT_BUSY [] 1
    if svcOk s1.svcBuf then s1 else s1.finishSvc

/-- Whether the management core takes MCTP requests: VDD_AON is up, and no device reset runs (R398, R437, R531).
DEDUCED: assumption 54. -/
def State.mctpUp (s : State) : Bool := s.aonUp && !s.devResetDue

/-- A service comes to be performed: the request in the mailbox where `req` is none and it names the service, else a
request over MCTP, discarded whole where it exceeds 4,096 bytes (R532). One that is malformed is answered with ACCESS.
DEDUCED: assumption 54. -/
def State.service (s : State) (op : Nat) (req : Option (List Byte)) : State :=
  match req with
  | none =>
    if s.fget Reg.MGT_SVC_STAT_BUSY [] = 1 ∧ svcOp s.svcBuf = op then s.finishSvc else s
  | some q =>
    if !s.mctpUp || decide (4096 < q.length) || (decide (svcOp q ≠ op) && svcOk q) then s
    else
      let r := s.answerSvc 2 q
      r.1.emit (.service r.2.2)

/-- STATUS (R534). -/
def execStatus (req : Option (List Byte)) (s : State) : Outcome := .next (s.service 1 req)
/-- FLASH_INFO (R534). -/
def execFlashInfo (req : Option (List Byte)) (s : State) : Outcome := .next (s.service 2 req)
/-- FLASH_WRITE (R534, R537). -/
def execFlashWrite (req : Option (List Byte)) (s : State) : Outcome := .next (s.service 3 req)
/-- FLASH_COMMIT (R534, R538). -/
def execFlashCommit (req : Option (List Byte)) (s : State) : Outcome := .next (s.service 4 req)
/-- FLASH_ERASE (R534, R539). -/
def execFlashErase (req : Option (List Byte)) (s : State) : Outcome := .next (s.service 5 req)
/-- TELEM_READ (R534, R546). -/
def execTelemRead (req : Option (List Byte)) (s : State) : Outcome := .next (s.service 6 req)
/-- DISC_READ (R534). -/
def execDiscRead (req : Option (List Byte)) (s : State) : Outcome := .next (s.service 7 req)

/-- FLASH_SLOT_TIMEOUT: a slot has stayed open with no write for 60 s; it returns to empty and loses its owner (R537). -/
def execFlashSlotTimeout (k : Nat) (s : State) : Outcome :=
  .next (if k < 4 ∧ (s.flash k).st = 1 then s.setFlash k emptySlot else s)

end Sys2Proof.Machine
end

