-- ==== Sys2Proof/Machine/Bar0.lean ====
section
/-!
DEFINITION. BAR0 (R4 to R7, R47, R59, R556, R557, R562, R564): writes of registers under their access codes and
privileges, the registers whose write does more than store, and reads.
-/
namespace Sys2Proof.Machine

/-- Whether BAR0 is open: start-up and every device reset have ended, the pilot function is ready and in D0, and IDE of the
pilot link is secure (R405, R502, R556, R557).
DEDUCED: assumption 56. -/
def State.bar0Open (s : State) : Bool :=
  decide (s.pwr.phase = .ready) && !s.devResetDue && s.pilot.ready && !s.pilot.d3hot &&
  s.fget Reg.LINK_PILOT_STAT_IDE_STATE [] == 2

/-- Whether the pilot host holds a privilege for a register of a partition, where it belongs to one (R457, R564). -/
def State.holdsPriv (s : State) (v : Priv) (part : Option Nat) : Bool :=
  let own := match part with
    | some p => s.controls p
    | none => false
  match v with
  | .none => true
  | .telemetry => s.telemeters
  | .management => s.manages
  | .control => own
  | .controlOrTelemetry => own || s.telemeters
  | .telemetryOrManagement => s.telemeters || s.manages
  | .anyControl => partIds.any s.controls

/-- A word with the bits of a mask taken from another. -/
def takeBits (mask old new : Word) : Word := (old &&& ~~~ mask) ||| (new &&& mask)

/-- A write acts on each field under its access code (R7): RW fields take the value, W1C bits written 1 clear, ST fields go
to the staged copy, SL fields take the value before seal; and whether an SL field refused it. -/
def State.writeFields (s : State) (r : RegName) (ix : List Nat) (v : Word) : State × Bool :=
  let old := s.regW r ix
  let s1 := s.setRegW r ix (takeBits (r.mask .rw) old v &&& ~~~ (v &&& r.mask .w1c))
  let s2 := if r.mask .st = 0 then s1 else s1.setStagedW r ix v
  if (v ^^^ old) &&& r.mask .sl = 0 then (s2, false)
  else if s.fget Reg.PART_SEAL_SEALED [] = 1 then (s2, true)
  else (s2.setSlW r ix v, false)

/-- A write of GLB_ORB_RAISE (R46, R47): the host flag of each named partition under control rises. -/
def State.writeRaise (s : State) (bits : Nat) : State :=
  let named := partIds.filter (fun p => bitAt p bits)
  let s1 := (named.filter s.controls).foldl State.raiseHost s
  if named.all s.controls then s1 else s1.refuseAccess (RegName.GLB_ORB_RAISE.addr [])

/-- A write of a port's tag budget (R319): dropped with a record where TAG_MIN would exceed TAG_MAX, or the sum of all
TAG_MIN 65,536. -/
def State.writeTagBudget (s : State) (n : Nat) (v : Word) : State :=
  let lo := bitsOf 16 0 v.toNat
  let sum := s.minSum - s.fget Reg.XBAR_TAG_BUDGET_TAG_MIN [n] + lo
  if 65536 < sum ∨ min 65536 (bitsOf 45 29 v.toNat) < lo then s.refuseAccess (RegName.XBAR_TAG_BUDGET.addr [n])
  else (s.writeFields .XBAR_TAG_BUDGET [n] v).1

/-- A staged write of TELEM_VIEW: its binding takes effect at the next boundary (R547). -/
def State.writeView (s : State) (p v : Nat) (w : Word) : State :=
  ((s.writeFields .TELEM_VIEW [p, v] w).1).modView p v (fun x => { x with rebind := true })

/-- What a write does to a register where it does more than R7 gives; none for any other. -/
def State.writeSpecial (s : State) (r : RegName) (ix : List Nat) (v : Word) : Option State :=
  let i := ix.headD 0
  let j := (ix.drop 1).headD 0
  let n := v.toNat
  match r with
  | .GLB_ORB_RAISE => some (s.writeRaise (bitsOf 15 0 n))
  | .GLB_CYC_SNAP => some (s.writeSnap v)
  | .QPDB_D => some (s.ringBell i j v)
  | .XBAR_TAG_BUDGET => some (s.writeTagBudget i v)
  | .PLACE_TRAY_CTRL => some (s.writeTrayCtrl i v)
  | .LINK_PORT_CTRL => some (s.writePortCtrl i v)
  | .SEC_KD_CTRL => some (if bitAt 0 n then s.submitKey else s)
  | .SEC_KD_BUF => some (if s.fget Reg.SEC_KD_STAT_BUSY [] = 1 then s else s.setRegW r ix v)
  | .SEC_KS_B => some (if s.slotState i = 1 then (s.writeFields r ix v).1 else s)
  | .ERR_DQ_PTR => some (s.setErrHead 16 (bitsOf 63 32 n))
  | .ERR_PQ_PTR => some (s.setErrHead i (bitsOf 63 32 n))
  | .ERR_PQ_STAT => some (if bitAt 1 n then s.endFence i else s)
  | .ERR_CTX_ABORT => some (s.writeCtxAbort (bitsOf 31 0 n))
  | .ERR_PART_RESET => some (s.writePartReset (bitsOf 15 0 n))
  | .ERR_DEV_RESET => some (s.writeDevReset (bitsOf 63 32 n))
  | .MGT_SVC_CTRL => some (if bitAt 0 n then s.submitSvc else s)
  | .MGT_SVC_BUF => some (if s.fget Reg.MGT_SVC_STAT_BUSY [] = 1 then s else (s.writeFields r ix v).1)
  | .TELEM_VIEW => some (s.writeView i j v)
  | _ => none

/-- The first offset of the MSI-X table: four entries of 16 bytes (R404). -/
def msixTable : Nat := 0x27F0000

/-- A write of an aligned 64-bit word at a BAR0 offset (R5 to R7, R47, R59, R562). -/
def State.bar0Write (s : State) (off : Nat) (v : Word) : State :=
  if !s.bar0Open then s
  else match regAt off with
    | none =>
      if msixTable ≤ off ∧ off < msixTable + 64 ∧ off % 8 = 0 then
        s.modPilot (fun p => { p with msix := kvPut 0 p.msix ((off - msixTable) / 8) v })
      else s
    | some (r, ix) =>
      if decide (r.desc.owner = .first) && !s.partValid (ix.headD 0) then s.refuseAccess off
      else if !s.holdsPriv r.desc.wpriv (s.regPart r ix) then s.refuseAccess off
      else match s.writeSpecial r ix v with
        | some t => t
        | none =>
          let (t, refused) := s.writeFields r ix v
          if refused then t.refuseAccess off else t

/-- A read of an aligned 64-bit word at a BAR0 offset: its value and the state after it (R6, R7, R59, R502, R556). -/
def State.bar0Read (s : State) (off : Nat) : Word × State :=
  match regAt off with
  | none =>
    if s.bar0Open ∧ msixTable ≤ off ∧ off < msixTable + 64 ∧ off % 8 = 0 then
      (kvGet 0 s.pilot.msix ((off - msixTable) / 8), s)
    else (0, s)
  | some (r, ix) =>
    if !s.bar0Open then (if r = .GLB_ID ∨ r = .GLB_TOPO then s.regW r ix else 0, s)
    else if s.holdsPriv r.desc.rpriv (s.regPart r ix) then (s.readReg r ix, s)
    else (0, s.refuseAccess off)

/-! ### The rows -/

/-- BAR0_UNALIGNED_ACCESS: an access that is not an aligned 64-bit one is dropped with a record;
a read returns zero (R5), or Unsupported Request in D3hot (R405). -/
def execBar0UnalignedAccess (off : Nat) (a : BarAccess) (s : State) : Outcome :=
  let bad := !(decide (a.bytes = 8) && decide (off % 8 = 0))
  let s1 := if s.bar0Open && bad then s.refuseAccess off else s
  .next (if !(bad && !a.write) then s1
    else if s.pilot.ready && s.pilot.d3hot then s1.emit (.bar0Unsupported off)
    else s1.emit (.bar0 off 0))

/-- The management core stages a value for a health-driven change: only the staged copy of a register takes it, and the
device flag of its partition rises (R31, R46); any other access is refused. -/
def State.stageHealth (s : State) (off : Nat) (v : Word) : State :=
  if s.pwr.phase ≠ .ready then s
  else match regAt off with
    | some (r, ix) =>
      (match s.regPart r ix with
       | some p => if r.mask .st = 0 ∨ s.partValid p = false then s.refuseAccess off else (s.setStagedW r ix v).raiseDev p
       | none => s.refuseAccess off)
    | none => s.refuseAccess off

/-- A read of an aligned 64-bit word: it emits what it returns, Unsupported Request in D3hot (R405). -/
def State.readOut (s : State) (off : Nat) : State :=
  if s.pilot.ready && s.pilot.d3hot then s.emit (.bar0Unsupported off)
  else
    let (v, t) := s.bar0Read off
    t.emit (.bar0 off v)

/-- A read of an item of the pilot function's configuration (R402), in D3hot as well (R405): answered with Request Retry
Status until the function is ready (R437), while the pilot link is up. -/
def State.configOut (s : State) (i : ConfigItem) : State :=
  if s.fget Reg.LINK_PILOT_STAT_CXL_UP [] = 0 then s
  else s.emit (if s.pilot.ready then .config i (pilotConfig i) else .configRetry i)

/-- REGISTER_WRITE: an aligned access to a BAR0 register (R7, R59); a read emits what it returns.
DEDUCED: assumption 56. DESIGN CHOICE: assumption 8. -/
def execRegisterWrite (off : Nat) (a : Access) (s : State) : Outcome :=
  .next (match a with
    | .write v => s.bar0Write off v
    | .read => s.readOut off
    | .health v => s.stageHealth off v
    | .config i => s.configOut i)

/-- ORB_RAISE: a write of GLB_ORB_RAISE (R46, R47).
DEDUCED: assumption 56. -/
def execOrbRaise (bits : BitVec 16) (s : State) : Outcome :=
  .next (s.bar0Write (RegName.GLB_ORB_RAISE.addr []) (bits.setWidth 64))

/-- PILOT_DOORBELL: a write of QPDB_D7 of a slot pushes its eight words (R347). -/
def execPilotDoorbell (q : Nat) (d7 : Word) (s : State) : Outcome :=
  .next (if q < 8192 then s.bar0Write (RegName.QPDB_D.addr [q, 7]) d7 else s)

/-- XBAR_TAG_BUDGET: a write of a port's tag budget (R319). -/
def execXbarTagBudget (n : Nat) (v : Word) (s : State) : Outcome :=
  .next (if n < 256 then s.bar0Write (RegName.XBAR_TAG_BUDGET.addr [n]) v else s)

/-- RETRAIN: a write of 1 to RETRAIN of a port, with the PSTATE_REQ the same write gives (R416). -/
def execRetrain (n : Nat) (pstate : BitVec 2) (s : State) : Outcome :=
  .next (if n < 256 then s.bar0Write (RegName.LINK_PORT_CTRL.addr [n]) (BitVec.ofNat 64 (pstate.toNat * 2 ^ 8 + 1)) else s)

/-- PSTATE_REQ: a write of PSTATE_REQ of a port (R422). -/
def execPstateReq (n : Nat) (pstate : BitVec 2) (s : State) : Outcome :=
  .next (if n < 256 then s.bar0Write (RegName.LINK_PORT_CTRL.addr [n]) (BitVec.ofNat 64 (pstate.toNat * 2 ^ 8)) else s)

/-- SNAP: a write of 1 to SNAP (R449). -/
def execSnap (s : State) : Outcome := .next (s.bar0Write (RegName.GLB_CYC_SNAP.addr []) 2)

/-- SUBMIT: a write of 1 to SUBMIT (R467). -/
def execSubmit (s : State) : Outcome := .next (s.bar0Write (RegName.SEC_KD_CTRL.addr []) 1)

/-- ERR_HEAD: a write of HEAD of a partition's error queue, or of the device queue as 16 (R482). -/
def execErrHead (p : Nat) (h : BitVec 32) (s : State) : Outcome :=
  let v := BitVec.ofNat 64 (h.toNat * 2 ^ 32)
  .next (if p < 16 then s.bar0Write (RegName.ERR_PQ_PTR.addr [p]) v
    else if p = 16 then s.bar0Write (RegName.ERR_DQ_PTR.addr []) v else s)

/-- FENCED: a write of 1 to FENCED of a partition (R485). -/
def execFenced (p : Nat) (s : State) : Outcome :=
  .next (if p < 16 then s.bar0Write (RegName.ERR_PQ_STAT.addr [p]) 2 else s)

/-- ERR_CTX_ABORT: a write of a context reference (R490). -/
def execErrCtxAbort (ref : BitVec 32) (s : State) : Outcome :=
  .next (s.bar0Write (RegName.ERR_CTX_ABORT.addr []) (ref.setWidth 64))

/-- ERR_PART_RESET: a write of partition bits (R493). -/
def execErrPartReset (bits : BitVec 16) (s : State) : Outcome :=
  .next (s.bar0Write (RegName.ERR_PART_RESET.addr []) (bits.setWidth 64))

/-- ERR_DEV_RESET: a write with a key (R502). -/
def execErrDevReset (key : BitVec 32) (s : State) : Outcome :=
  .next (s.bar0Write (RegName.ERR_DEV_RESET.addr []) (BitVec.ofNat 64 (key.toNat * 2 ^ 32)))

/-- PAIR: a write of 1 to PAIR of a tray with its partner (R506). -/
def execPair (t : Nat) (partner : BitVec 5) (s : State) : Outcome :=
  .next (if t < 24 then s.bar0Write (RegName.PLACE_TRAY_CTRL.addr [t]) (BitVec.ofNat 64 (2 ^ 63 + partner.toNat * 2 ^ 48)) else s)

/-- EXPEL: a write of 1 to EXPEL of a tray, with the PARTNER the same write gives (R518). -/
def execExpel (t : Nat) (partner : BitVec 5) (s : State) : Outcome :=
  .next (if t < 24 then s.bar0Write (RegName.PLACE_TRAY_CTRL.addr [t]) (BitVec.ofNat 64 (2 ^ 62 + partner.toNat * 2 ^ 48)) else s)

end Sys2Proof.Machine
end

