-- ==== Sys2Proof/Machine/FmApi.lean ====
section
/-!
DEFINITION. The fabric-manager API (R395 to R400, R543 to R545, R566) over the primary mailbox and over MCTP.
-/
namespace Sys2Proof.Machine

/-! ### How a command is answered (R396 to R398, R531, R541) -/

/-- A command of the fabric manager over a transport: `mail` for the mailbox, else MCTP; `vendor` for a Skovond command.
The body runs where the transport is up and has the authority. -/
def State.fm (s : State) (mail vendor : Bool) (body : State → State × FmRc × FmBody) : State :=
  if mail then
    if s.devResetDue then s.emit (.fm true .busy .none)
    else if !s.bar0Open then s
    else if !s.manages then
      (s.emit (if vendor then .fm true .success (.bytes (natBytes 1 stAccess)) else .fm true .unsupportedMailbox .none)).emit (.msix 0)
    else
      let r := body s
      (r.1.emit (.fm true r.2.1 r.2.2)).emit (.msix 0)
  else if !s.mctpUp then s
  else if s.pwr.phase = .halted then s.emit (.fm false .unsupported .none)
  else
    let r := body s
    r.1.emit (.fm false r.2.1 r.2.2)

/-- A command that reads. -/
def State.fmRead (s : State) (mail : Bool) (f : State → FmRc × FmBody) : State := s.fm mail false (fun t => (t, f t))

/-- A vendor command whose input has `n` bytes and passes a check of its form: the status and the rest of the output. -/
def State.fmVendor (s : State) (mail : Bool) (n : Nat) (input : List Byte) (form : Bool)
    (f : State → State × Nat × List Byte) : State :=
  s.fm mail true (fun t =>
    if input.length ≠ n then (t, .invalidLength, .none)
    else if !form then (t, .invalidInput, .none)
    else
      let r := f t
      (r.1, .success, .bytes (natBytes 1 r.2.1 ++ r.2.2)))

/-! ### The standard commands (R395) -/

/-- IDENTIFY. -/
def execIdentify (mail : Bool) (s : State) : Outcome :=
  .next (s.fmRead mail (fun t => (.success, .identify (t.regW .GLB_ID []).toNat (t.regW .GLB_TOPO []).toNat)))

/-- BACKGROUND_OPERATION_STATUS: whether one runs, and the output of the last that ended (R398). -/
def execBackgroundOperationStatus (mail : Bool) (s : State) : Outcome :=
  .next (s.fmRead mail (fun t => (.success, .background t.mgmt.bg.isSome (match t.mgmt.bgDone with
    | some d => d.2
    | none => []))))

/-- The response limit of a transport as a power of two. -/
def State.respLimit (s : State) (mail : Bool) : Nat := kvGet 12 s.mgmt.limits (bit01 mail)

/-- GET_RESPONSE_MESSAGE_LIMIT. -/
def execGetResponseMessageLimit (mail : Bool) (s : State) : Outcome :=
  .next (s.fmRead mail (fun t => (.success, .limit (t.respLimit mail))))

/-- SET_RESPONSE_MESSAGE_LIMIT: 2^8 to 2^12 bytes; any other value is Invalid Input (R396). -/
def execSetResponseMessageLimit (mail : Bool) (n : Nat) (s : State) : Outcome :=
  .next (s.fm mail false (fun t =>
    if n < 8 ∨ 12 < n then (t, .invalidInput, .none)
    else ({ t with mgmt := { t.mgmt with limits := kvPut 12 t.mgmt.limits (bit01 mail) n } }, .success, .limit n)))

/-- GET_EVENT_RECORDS: the fabric-manager event log (R542). -/
def execGetEventRecords (mail : Bool) (s : State) : Outcome :=
  .next (s.fmRead mail (fun t => (.success, .events t.mgmt.events)))

/-- CLEAR_EVENT_RECORDS: the `n` oldest records are cleared.
DEDUCED: assumption 55. -/
def execClearEventRecords (mail : Bool) (n : Nat) (s : State) : Outcome :=
  .next (s.fm mail false (fun t => ({ t with mgmt := { t.mgmt with events := t.mgmt.events.drop n } }, .success, .none)))

/-- GET_EVENT_INTERRUPT_POLICY. -/
def execGetEventInterruptPolicy (mail : Bool) (s : State) : Outcome :=
  .next (s.fmRead mail (fun t => (.success, .policy t.mgmt.policy)))

/-- SET_EVENT_INTERRUPT_POLICY. -/
def execSetEventInterruptPolicy (mail : Bool) (policy : List Byte) (s : State) : Outcome :=
  .next (s.fm mail false (fun t => ({ t with mgmt := { t.mgmt with policy := policy } }, .success, .none)))

/-- GET_PHYSICAL_PORT_STATE: of fabric ports OP0 to OP255 only. -/
def execGetPhysicalPortState (mail : Bool) (ports : List Nat) (s : State) : Outcome :=
  .next (s.fmRead mail (fun t =>
    if ports.all (fun n => decide (n < 256)) then
      (.success, .ports (ports.map (fun n => (n, (t.regW .LINK_PORT_CFG [n]).toNat, (t.regW .LINK_PORT_STAT [n]).toNat))))
    else (.invalidInput, .none)))

/-- The valid entries of the sealed window table. -/
def State.windowTable (s : State) : List (Nat × Nat × Nat) :=
  ((List.range 4096).filter (fun w => s.fget Reg.PART_WIN_A_VALID [w] == 1)).map (fun w =>
    (w, (s.regW .PART_WIN_A [w]).toNat, (s.regW .PART_WIN_B [w]).toNat))

/-- GFD_COMPONENT_COMMANDS: GFD information, the source access table and the decoders, from the sealed window table. -/
def execGfdComponentCommands (mail : Bool) (s : State) : Outcome :=
  .next (s.fmRead mail (fun t => (.success, .windows t.windowTable)))

/-- GET_DC_REGION_CONFIGURATION: one region of 2^52 bytes from 0, in blocks of 1 GiB (R384). -/
def execGetDcRegionConfiguration (mail : Bool) (s : State) : Outcome :=
  .next (s.fmRead mail (fun _ => (.success, .region 0 (2 ^ 52) (2 ^ 30))))

/-- GET_DC_REGION_EXTENT_LISTS: the extents of an accelerator PBR ID, at most 256, in window-entry order; each tag carries
the entry's partition (R384). -/
def execGetDcRegionExtentLists (mail : Bool) (pbr : Nat) (s : State) : Outcome :=
  .next (s.fmRead mail (fun t => (.success, .extents (((t.extentsOf pbr).take 256).map (fun w =>
    (t.fget Reg.PART_WIN_B_BASE [w], t.fget Reg.PART_WIN_B_SIZE_GIB [w], t.fget Reg.PART_WIN_A_PART [w]))))))

/-- FM_UNSUPPORTED_COMMAND: a command listed nowhere (R397). -/
def execFmUnsupportedCommand (mail : Bool) (s : State) : Outcome :=
  .next (s.fmRead mail (fun _ => (.unsupported, .none)))

/-! ### The Skovond commands (R399) -/

/-- SK_GET_ID. -/
def execSkGetId (mail : Bool) (input : List Byte) (s : State) : Outcome :=
  .next (s.fmVendor mail 0 input true (fun t => (t, stOk,
    natBytes 8 (t.regW .GLB_ID []).toNat ++ natBytes 8 (t.regW .GLB_TOPO []).toNat ++ natBytes 2 (t.ownPbr.getD 0xFFFF))))

/-- The accelerator ports that hold a PBR ID. -/
def State.portsHolding (s : State) (id : Nat) : List Nat :=
  (List.range 256).filter (fun n => s.role n == 1 && s.pbrOfPort n == some id)

/-- Whether SK_ASSIGN_PBR may assign an ID to a port, 0xFFFF being the device (R543). -/
def State.mayAssign (s : State) (port id : Nat) : Bool :=
  let free := fun (o : Option Nat) => o.isNone || o == some id
  if port = 0xFFFF then free s.ownPbr && !s.accelIds.contains id
  else if 256 ≤ port then false
  else match s.role port with
    | 1 => s.groupHolds port id && !(s.ownPbr == some id) && (s.portsHolding id).all (fun n => decide (n = port)) &&
        free (s.pbrOfPort port)
    | 3 => s.groupHolds port id && !(s.ownPbr == some id) && free (s.pbrOfPort port)
    | _ => false

/-- SK_ASSIGN_PBR (R543).
DEDUCED: assumption 55. -/
def execSkAssignPbr (mail : Bool) (input : List Byte) (s : State) : Outcome :=
  let port := field input 0 2
  let id := field input 2 2
  .next (s.fmVendor mail 4 input (decide (id < 4096)) (fun t =>
    if !t.mayAssign port id then (t, stAccess, [])
    else if port = 0xFFFF then ({ t with ownPbr := some id }, stOk, [])
    else ((t.fset Reg.MGT_DISC_PBR [port] id).fset Reg.MGT_DISC_PBR_VALID [port] 1, stOk, [])))

/-- SK_DECLARE_DEAD: the accelerator that holds a PBR ID becomes crashed (R296).
DEDUCED: assumption 55. -/
def execSkDeclareDead (mail : Bool) (input : List Byte) (s : State) : Outcome :=
  .next (s.fmVendor mail 2 input true (fun t => match t.portsHolding (field input 0 2) with
    | n :: _ => ((t.crashAccel n).finishAccs, stOk, natBytes 8 t.now)
    | [] => (t, stAccess, natBytes 8 0)))

/-- Whether SK_CLEAR_ORPHANS may start on a range (R400). -/
def State.orphanRangeOk (s : State) (ref off len : Nat) : Bool :=
  decide (off % 64 = 0) && decide (len % 64 = 0) && (match s.objOfRef ref with
    | some o => decide (off + len ≤ o.size)
    | none => false)

/-- A background operation starts where none runs; Busy where one does (R398).
DEDUCED: assumption 55. -/
def State.startBg (s : State) (w : BgWork) : State × FmRc × FmBody :=
  if s.mgmt.bg.isSome then (s, .busy, .none)
  else ({ s with mgmt := { s.mgmt with bg := some w } }, .success, .bytes (natBytes 1 stOk))

/-- SK_CLEAR_ORPHANS: starts the background walk of R400.
DEDUCED: assumption 55. -/
def execSkClearOrphans (mail : Bool) (input : List Byte) (s : State) : Outcome :=
  let ref := field input 0 8
  let off := field input 8 8
  let len := field input 16 8
  .next (s.fm mail true (fun t =>
    if input.length ≠ 24 then (t, .invalidLength, .none)
    else if t.mgmt.bg.isSome then (t, .busy, .none)
    else if !t.orphanRangeOk ref off len then (t, .success, .bytes (natBytes 1 stAccess ++ natBytes 8 0))
    else t.startBg (.clearOrphans (refHandle ref) off len)))

/-- SK_JOB_TEARDOWN: a job is torn down with cause "fabric manager" (R294, R566).
DEDUCED: assumption 15. -/
def execSkJobTeardown (mail : Bool) (input : List Byte) (s : State) : Outcome :=
  let p := field input 0 1
  let job := field input 4 4
  .next (s.fmVendor mail 8 input (decide (p < 16) && decide (field input 1 3 = 0)) (fun t =>
    if !t.partValid p then (t, stAccess, natBytes 4 0)
    else
      let n := (t.ctxs.filter (fun e => decide (e.2.part = p) && decide (e.2.job = job))).length
      (t.triggerTeardown p job 4 0, stOk, natBytes 4 n)))

/-- SK_SET_WALLCLOCK: wall time is taken at the MGMT count (R545). -/
def execSkSetWallclock (mail : Bool) (input : List Byte) (s : State) : Outcome :=
  .next (s.fmVendor mail 8 input true (fun t =>
    ({ t with mgmt := { t.mgmt with wall := some (field input 0 8, t.cycles 7) } }, stOk, natBytes 8 (t.cycles 7))))

/-- SK_PART_RESET: starts a partition reset in the background, trigger code 5 (R399, R493, R566). -/
def execSkPartReset (mail : Bool) (input : List Byte) (s : State) : Outcome :=
  let p := field input 0 1
  .next (s.fm mail true (fun t =>
    if input.length ≠ 1 then (t, .invalidLength, .none)
    else if 16 ≤ p then (t, .invalidInput, .none)
    else if t.mgmt.bg.isSome then (t, .busy, .none)
    else if !t.partValid p then (t, .success, .bytes (natBytes 1 stAccess))
    else
      let r := t.startBg (.partReset p)
      (r.1.triggerReset p 5, r.2)))

/-- The oldest `n` records of the device queue. -/
def ErrQ.oldest (q : ErrQ) (n : Nat) : List Byte :=
  (List.range n).flatMap (fun i => match kvGet? q.recs ((q.head + i) % 1024) with
    | some r => r.bytes
    | none => natBytes 32 0)

/-- SK_GET_ERR: takes the oldest records from the device error queue (R399, R482). -/
def execSkGetErr (mail : Bool) (input : List Byte) (s : State) : Outcome :=
  let want := field input 0 1
  .next (s.fmVendor mail 1 input (decide (1 ≤ want) && decide (want ≤ 120)) (fun t =>
    let n := min want t.devq.used
    ({ t with devq := { t.devq with head := (t.devq.head + n) % 2 ^ 32 } }, stOk,
      natBytes 1 n ++ natBytes 6 0 ++ t.devq.oldest n)))

/-! ### The end of a background operation (R398, R400) -/

/-- The walk of SK_CLEAR_ORPHANS over the lines of a range, ascending: the state, the status and the lines cleared. -/
def State.clearOrphans (s : State) (h : Nat) : List Nat → Nat → State × Nat × Nat
  | [], n => (s, stOk, n)
  | l :: r, n =>
    match s.obj? h with
    | none => (s, stAccess, n)
    | some o =>
      if (kvGet? o.orphan l).isNone then s.clearOrphans h r n
      else match s.writeStatus o h l true false with
        | some st => (s, st, n)
        | none => (s.modObj h (fun q => q.store (64 * l) (List.replicate 64 0))).clearOrphans h r (n + 1)

/-- The background operation ends with an output. -/
def State.endBg (s : State) (w : BgWork) (output : List Byte) : State :=
  { s with mgmt := { s.mgmt with bg := none, bgDone := some (w, output) } }

/-- BACKGROUND_OP_END: the operation in the background ends: the walk over its range, or the reset of its partition, which
must have ended. -/
def execBackgroundOpEnd (s : State) : Outcome :=
  .next (match s.mgmt.bg with
    | none => s
    | some (.clearOrphans h off len) =>
      let r := s.clearOrphans h (blocksOf 64 off len) 0
      r.1.endBg (.clearOrphans h off len) (natBytes 1 r.2.1 ++ natBytes 8 r.2.2)
    | some (.partReset p) =>
      if (s.part p).resetDue.isSome then s else s.endBg (.partReset p) (natBytes 1 stOk))

end Sys2Proof.Machine
end

