-- ==== Sys2Proof/Machine/MgmtPort.lean ====
section
/-!
DEFINITION. MCTP control over I3C (R532), attestation (R461, R463), and the test port (R550, R551).
-/
namespace Sys2Proof.Machine

/-! ### I3C and MCTP control (R532) -/

/-- I3C_ENTDAA: the device takes its dynamic address. -/
def execI3cEntdaa (addr : Nat) (s : State) : Outcome :=
  .next (if s.aonUp then { s with mgmt := { s.mgmt with i3c := some addr } } else s)

/-- SET_ENDPOINT_ID. -/
def execSetEndpointId (eid : BitVec 8) (s : State) : Outcome :=
  .next (if s.mctpUp then
      ({ s with mgmt := { s.mgmt with eid := eid.toNat } } : State).emit (.mctp (.setEndpoint eid.toNat)) else s)

/-- GET_ENDPOINT_ID. -/
def execGetEndpointId (s : State) : Outcome :=
  .next (if s.mctpUp then s.emit (.mctp (.getEndpoint s.mgmt.eid)) else s)

/-- GET_MCTP_VERSION_SUPPORT. -/
def execGetMctpVersionSupport (s : State) : Outcome := .next (if s.mctpUp then s.emit (.mctp .versions) else s)

/-- GET_MESSAGE_TYPE_SUPPORT: the fabric-manager API and vendor-defined messages (R531). -/
def execGetMessageTypeSupport (s : State) : Outcome :=
  .next (if s.mctpUp then s.emit (.mctp (.types [0x07, 0x7E])) else s)

/-- GET_VENDOR_DEFINED_MESSAGE_SUPPORT: vendor 0x5C0D (R531). -/
def execGetVendorDefinedMessageSupport (s : State) : Outcome :=
  .next (if s.mctpUp then s.emit (.mctp (.vendors [0x5C0D])) else s)

/-! ### Attestation (R463) -/

/-- The slot table under block 6: STATE, GEN and TENANT of every slot, 9 bytes each. -/
def State.slotTable (s : State) : List Byte :=
  (List.range 2048).flatMap (fun k => natBytes 1 (s.slotState k) ++ natBytes 4 (s.fget Reg.SEC_KS_A_GEN [k]) ++
    natBytes 4 (s.fget Reg.SEC_KS_A_TENANT [k]))

/-- The six measurement blocks.
DESIGN CHOICE: assumption 58. -/
def State.measurementBlocks (s : State) : List (List Byte) :=
  let recovery := s.fget Reg.PART_SEAL_RECOVERY [] == 1
  [digestBytes Config.romHash,
   digestBytes (Config.sha3 s.image) ++ natBytes 4 (s.fget Reg.SEC_BOOT_STAT_FW_SVN []) ++
     natBytes 4 (s.fget Reg.SEC_FLOOR_FW_FLOOR []),
   if recovery then natBytes 72 0
   else digestBytes s.manHash ++ natBytes 4 (s.fget Reg.PART_SEAL_MAN_SVN []) ++
     natBytes 4 (s.fget Reg.SEC_FLOOR_MAN_FLOOR []),
   digestBytes (s.nv.owner.getD 0) ++ natBytes 1 (s.regW .PART_SEAL [] &&& 7).toNat,
   Config.kemPublic s.kemSeed,
   digestBytes (Config.sha3 s.slotTable)]

/-- SPDM_MEASUREMENTS: the measurement record over the requester's nonce, signed by the second key of R458, once Moannis runs. -/
def execSpdmMeasurements (nonce : List Byte) (s : State) : Outcome :=
  .next (if !s.railsDown && !s.devResetDue then
      s.emit (.measurements nonce s.measurementBlocks (Config.attest s.signSeed nonce s.measurementBlocks)) else s)

/-! ### The test port (R550, R551) -/

/-- The instruction register takes an instruction. -/
def State.tapIr (s : State) (ir : Nat) : State := { s with tap := { s.tap with ir := ir } }

/-- An instruction of the test port, which answers whenever VDD_AON is up: where `ok`, its opcode is selected and its
register shifts out; else BYPASS is selected. -/
def State.tapRun (s : State) (ok : Bool) (code : Nat) (bytes : List Byte) : State :=
  if !s.aonUp then s
  else if ok then (s.tapIr code).emit (.tdo bytes)
  else s.tapIr 0xFF

/-- TAP_RESET: a test-logic reset selects IDCODE and resets nothing else.
DEDUCED: assumption 48. -/
def execTapReset (s : State) : Outcome := .next (if s.aonUp then s.tapIr 1 else s)

/-- BYPASS. -/
def execBypass (s : State) : Outcome := .next (s.tapRun false 0xFF [])

/-- IDCODE. -/
def execIdcode (s : State) : Outcome := .next (s.tapRun true 0x01 (natBytes 4 0x1480056F))

/-- SAMPLE_PRELOAD: the boundary register shifts. -/
def execSamplePreload (s : State) : Outcome := .next (s.tapRun true 0x02 (Config.testBytes 0x02))

/-- EXTEST takes effect only while rails 1 to 47 are down. -/
def execExtest (s : State) : Outcome := .next (s.tapRun s.railsDown 0x00 (Config.testBytes 0x00))

/-- CLAMP takes effect only while rails 1 to 47 are down. -/
def execClamp (s : State) : Outcome := .next (s.tapRun s.railsDown 0x04 [])

/-- HIGHZ takes effect only while rails 1 to 47 are down. -/
def execHighz (s : State) : Outcome := .next (s.tapRun s.railsDown 0x05 [])

/-- SK_RAILMON: the 49 MGT_RAIL values, on SK4800-EV only. -/
def execSkRailmon (s : State) : Outcome :=
  .next (s.tapRun Config.isEV 0x10 ((List.range 49).flatMap (fun r => natBytes 8 (s.regW .MGT_RAIL [r]).toNat)))

/-- Whether the internal test instructions act (R551). -/
def State.testable (s : State) : Bool :=
  Config.isEV && s.railsDown && (s.fget Reg.PART_SEAL_SEALED [] == 0 || s.fget Reg.PART_SEAL_RECOVERY [] == 1)

/-- An internal test instruction, which stops the device until SYS_RST_N where it acts (R551). -/
def State.internalTest (s : State) (code : Nat) : State :=
  let t := s.tapRun s.testable code (Config.testBytes code)
  if s.aonUp && s.testable then { t with tap := { t.tap with acted := true } } else t

/-- SK_SCAN: the internal scan chains. -/
def execSkScan (s : State) : Outcome := .next (s.internalTest 0x20)

/-- SK_MEMBIST: the SRAM self-test. -/
def execSkMembist (s : State) : Outcome := .next (s.internalTest 0x21)

end Sys2Proof.Machine
end

