-- ==== Sys2Proof/Machine/Clock.lean ====
section
/-!
DEFINITION. What time does by itself (R55 to R57, R130, R331, R336, R339, R442, R446 to R449): one tick is one period of the
1.7 GHz PLL that XBAR runs from. Every other domain advances by its part of a cycle, and what each finished cycle counts
is counted.
-/
namespace Sys2Proof.Machine

/-! ### The domains (R441, R446) -/

/-- What a tick adds to a domain's part of a cycle, and what makes a whole one: a stretched domain runs at a half or a
quarter of its rate; the oscillator of SEC may be off by 3%, `d` being a free value.
DESIGN CHOICE: assumption 60. -/
def State.rate (s : State) (d : Nat) (x : Nat) : Nat × Nat :=
  if d < 4 then (4 / 2 ^ s.level d, 8)
  else if d = 4 then (4 / 2 ^ s.level 4, 4)
  else if d = 5 then (12, 17)
  else if d = 6 then (10, 17)
  else if d = 7 then (5, 17)
  else if d = 8 then (388 + x % 25, 1700)
  else (625, 1088)

/-- A domain's clock advances; whether it finishes a cycle. -/
def State.advance (s : State) (d x : Nat) : State × Bool :=
  if s.clk.up.contains d = false then (s, false)
  else
    let r := s.rate d x
    let f := kvGet 0 s.clk.frac d + r.1
    if f < r.2 then (s.modClk (fun c => { c with frac := kvPut 0 c.frac d f }), false)
    else
      let s1 := s.modClk (fun c => { c with frac := kvPut 0 c.frac d (f - r.2) })
      (if d = 4 then { s1 with now := s1.now + 1 }
       else s1.modClk (fun c => { c with count := kvPut 0 c.count d (kvGet 0 c.count d + 1) }), true)

/-- A counter that a snapshot waits for is latched once its crossing latency has passed (R449). -/
def State.latchDue (s : State) (d : Nat) : State :=
  match kvGet? s.clk.latching d with
  | some n => if n ≤ s.cycles d then (s.latch d).latchDone else s
  | none => s

/-! ### Cycle classes (R56, R57, R180) -/

/-- Whether a request serves a waiting instruction or comet: its own, or the fill of a granule that it reads (R255). -/
def Req.serves (r : Req) (ow : ReqOwner) (q : Outst) : Bool :=
  decide (r.owner = ow) || (match r.owner with
    | .fill h g => !q.write && decide (h = q.handle) && q.lines.any (fun l => decide (granuleOfLine l = g))
    | _ => false)

/-- The requests a strand waits on: those of its waiting instruction, or, at WAIT, those of the comets that name the counter it
waits on (R138). -/
def State.awaited (s : State) (c : Nat) (x : Ctx) : List Req :=
  s.reqs.filter (fun r => decide (r.state ≠ .answered) && (match x.outst, x.wait with
    | some q, _ => r.serves (.instr c q.id) q
    | none, .counter n => x.comets.any (fun q => decide (q.ac = n) && r.serves (.comet c q.id) q)
    | none, _ => false))

/-- Whether a strand waits for expander output of an MMA. -/
def Ctx.expands (x : Ctx) : Bool :=
  match x.outst with
  | some q => (match q.op with
    | .mmaExp _ _ _ _ _ _ _ _ _ _ _ => true
    | _ => false)
  | none => false

/-- Whether a strand is ready to issue and its slot has gone to another strand (R55). -/
def State.passedBy (s : State) (slot : Nat) (x : Ctx) : Bool :=
  s.mayIssue x && decide (x.wait = .none) && x.holdsCode && s.slotTaken slot (IssueSlot.of (s.wordAtPc x).1)

/-- The class an occupied strand is charged in an ARITH cycle of quadrant `q` (R56, R57). -/
def State.cycleClass (s : State) (q slot c : Nat) (x : Ctx) : Nat :=
  let orbit := x.atOrbit.isSome || x.held
  let rs := s.awaited c x
  let p := s.part x.part
  if decide (s.level q ≠ 0) || (orbit && decide (s.level 4 ≠ 0)) then 2
  else if x.issued then 0
  else if !x.running || p.held || p.fenced || p.resetDue.isSome then 1
  else if orbit then 3
  else if rs.any (fun r => r.failing) then 4
  else if rs.any (fun r => r.late) then 5
  else if decide (x.wait = .credit) || rs.any (fun r => decide (r.state = .needsTag)) then 6
  else if x.expands then 7
  else if decide (x.wait = .unit) || s.passedBy slot x then 8
  else 1

/-- Whether a cycle charged to a class counts as interfered (R339): the oldest request the strand waits on was passed
over. -/
def State.isInterfered (s : State) (c : Nat) (x : Ctx) (cls : Nat) : Bool :=
  (decide (cls = 1) || decide (cls = 5)) && (match s.awaited c x with
    | r :: _ => r.passedOver
    | [] => false)

/-- A strand's ARITH cycle is charged (R56, R336, R339). -/
def State.chargeStrand (s : State) (q slot c : Nat) (x : Ctx) : State :=
  let k := s.cycleClass q slot c x
  let lost := bit01 (s.isInterfered c x k)
  (s.fwrap Reg.MOON_CYC_COUNT [slot / 8, slot % 8, k] 1).setCtx c { x with
    issued := false
    arrived := []
    used := { x.used with
      cyc := x.used.cyc.set k (x.used.cls k + 1)
      interfered := x.used.interfered + lost } }

/-- The occupied strands of a quadrant: slot, context. -/
def State.strandsIn (s : State) (q : Nat) : List (Nat × Nat) :=
  s.ctxs.filterMap (fun e => match e.2.slot with
    | some sl => if e.2.occupies && decide (sl / 128 = q) then some (sl, e.1) else none
    | none => none)

/-- An engine that has run out its cycles has read its source (R130, R133). -/
def State.engineDone (s : State) (e : Engine) : State :=
  match s.occupant e.slot with
  | some c => s.modCtx c (fun x => { x with comets := x.comets.map (fun q =>
      if q.id = e.req then { q with srcRange := (0, 0) } else q) })
  | none => s

/-- The stream engines of a Moon run one cycle (R130).
DESIGN CHOICE: assumption 59. -/
def State.runEngines (s : State) (m : Nat) : State :=
  let es := (s.moon m).engines
  if es.isEmpty then s
  else
    let s1 := (es.filter (fun e => decide (e.left ≤ 1))).foldl State.engineDone s
    s1.modMoon m (fun y => { y with engines :=
      (y.engines.filter (fun e => e.stream || decide (1 < e.left))).map (fun e => { e with left := e.left - 1 }) })

/-- The issue slots of a Moon are free for the next ARITH cycle (R55). -/
def State.freeSlots (s : State) (m : Nat) : State :=
  if (s.moon m).tookCompute || (s.moon m).tookMemory then
    s.modMoon m (fun y => { y with tookCompute := false, tookMemory := false })
  else s

/-- The compressed streams of a Moon that wait for codebook slots try again (R178). -/
def State.retryStreams (s : State) (m : Nat) : State :=
  if (s.moon m).streams.all (fun t => t.entered) then s else s.runStreams m

/-- An ARITH cycle of a quadrant ends. -/
def State.arithCycle (s : State) (q : Nat) : State :=
  let s1 := (s.strandsIn q).foldl (fun (t : State) e => match t.ctx? e.2 with
    | some x => t.chargeStrand q e.1 e.2 x
    | none => t) s
  let s2 := (span (16 * q) (16 * q + 16)).foldl (fun (t : State) m => ((t.runEngines m).freeSlots m).retryStreams m) s1
  if s.level q = 0 then s2 else s2.fwrap Reg.MGT_STRETCH_CYC_CYCLES [q] 1

/-! ### An XBAR cycle -/

/-- The accounts with a head held back only by its bucket (R331). -/
def State.deferred (s : State) : List (Nat × Nat) :=
  let cells := s.xin.flatMap (fun e => e.2.queues.filterMap (fun q => match q.2.head with
    | c :: _ => if !e.2.holds c && s.canSend c.out && s.accepts e.1 c.body then some c.charge else none
    | [] => none))
  let reqs := (s.reqs.filter (fun r => decide (r.state = .queued) && s.canSend r.out &&
    (decide (r.tier = 3) || !s.hotFull r.handle r.line))).map
    (fun r => r.charge)
  (((cells ++ reqs).filter (fun c => !s.bucketOk c)).map (fun c => (c.outer, c.inner))).eraseDups

/-- What a granule of a rebuild costs: 4,096 bytes, in units of 1/4,352 byte. -/
def granuleCost : Nat := 4096 * 4352

/-- What the copy of a rebuild gains in a cycle, in the same units: REBUILD_RATE / 256 of 25 GB/s for each lane of the slower
of the two tray ports (R407, R512). -/
def State.rebuildGain (s : State) (k : Nat) : Nat :=
  let lanes := fun (t : Nat) => match s.portOfTray t with
    | some n => if s.active n then widthLanes (s.fget Reg.LINK_PORT_STAT_TRAINED_W [n]) else 0
    | none => 0
  s.fget Reg.PLACE_MIR_CTRL_REBUILD_RATE [] * 250 *
    min (lanes (s.soleMember k)) (lanes (s.fget Reg.PLACE_PAIR_STAT_NEW [k]))

/-- The copy of a granule of a rebuild begins (R512): its lines are read at the member and written to the new tray, class 0,
charged to the device account (R303, R322). -/
def State.startCopy (s : State) (k : Nat) (g : Nat × Nat) : State :=
  let ow := ReqOwner.rebuild k g.1 g.2
  let a := s.soleMember k
  let n := s.fget Reg.PLACE_PAIR_STAT_NEW [k]
  (granuleLines g.2).foldl (fun (t : State) l =>
    (t.addReq ow (handlePart g.1) g.1 l false a).addReq ow (handlePart g.1) g.1 l true n) s

/-- The granule a rebuild comes to is done with: copied, and counted, or skipped because it has been released. -/
def State.copied (s : State) (k n c : Nat) (r : List (Nat × Nat)) : State :=
  (s.modMir (fun m => { m with rebuild := kvSet m.rebuild k (n + c, r) })).fset Reg.PLACE_PAIR_STAT_COPIED_GIB [k]
    ((n + c) * 4096 / 2 ^ 30)

/-- A rebuild goes on in a cycle (R512): the granule under copy is done once its requests are answered, and is copied again
where one failed finally; with none under copy the next begins, where the rate allows it and a free value says so. A granule
released or moved to another pair before the copy reaches it is skipped.
DESIGN CHOICE: assumptions 45 and 60. -/
def State.rebuildCycle (s : State) (k : Nat) (copies : Bool) : State :=
  match kvGet? s.mir.rebuild k with
  | some (n, g :: r) =>
    let ow := ReqOwner.rebuild k g.1 g.2
    let cr := min granuleCost (kvGet 0 s.mir.credit k + s.rebuildGain k)
    let s1 := s.modMir (fun m => { m with credit := kvPut 0 m.credit k cr })
    if s.reqs.any (fun q => decide (q.owner = ow)) then
      if !s.reqsAnswered ow then s1
      else if (s.reqFinals ow).any (fun f => f.isSome) then s1.dropReqs ow
      else (s1.dropReqs ow).copied k n 1 r
    else if !s.homedOn k g then s1.copied k n 0 r
    else if cr = granuleCost ∧ copies = true then
      (s1.modMir (fun m => { m with credit := kvPut 0 m.credit k 0 })).startCopy k g
    else s1
  | _ => s

/-- A leader sends the oldest forwarded input it holds, where a free value says that the link takes it now (R522).
DESIGN CHOICE: assumption 60. -/
def State.sendForward (s : State) (p : Nat) (sends : Bool) : State :=
  match (s.part p).shadow with
  | some h =>
    (match h.backlog with
     | i :: r =>
       if sends && decide (s.peerPort (s.fget Reg.GLB_SHD_CTRL_PEER_PBR [p]) ≠ 271) then
         (s.modPart p (fun x => { x with shadow := some { h with backlog := r } })).toPeer p (.input i)
       else s
     | [] => s)
  | none => s

/-- An XBAR cycle ends. `x` is a free value. -/
def State.xbarCycle (s : State) (x : Nat) : State :=
  let s1 := s.deferred.foldl (fun (t : State) a => t.fsat Reg.SCHED_ACCT_STAT_DEFERRED [a.1, a.2] 1) s
  let s2 := (List.range 12).foldl (fun (t : State) k => t.rebuildCycle k (bitAt k x)) s1
  let s3 := partIds.foldl (fun (t : State) p => t.sendForward p (bitAt (16 + p) x)) s2
  let s3 := partIds.foldl State.swapTick s3
  let s3 := s3.scrubs.foldl (fun (t : State) c => t.scrubCycle c (bitAt 12 x)) s3
  let s4 : State := { s3 with reqs := s3.reqs.map (fun r => if r.passedOver then { r with passedOver := false } else r) }
  if s.level 4 = 0 then s4 else s4.fwrap Reg.MGT_STRETCH_CYC_CYCLES [4] 1

/-! ### The tick -/

/-- The clocks of the domains. -/
def domains : List Nat := List.range 17

/-- One domain's part of a tick. `x` is a free value.
DESIGN CHOICE: assumption 2. -/
def State.tickDomain (x : Nat) (s : State) (d : Nat) : State :=
  let r := s.advance d x
  if r.2 then
    let t := r.1.latchDue d
    if d < 4 then t.arithCycle d else if d = 4 then t.xbarCycle (x / 32) else t
  else r.1

/-- One period of the XBAR PLL passes.
DESIGN CHOICE: assumptions 2 and 60. -/
def State.tick (s : State) : State :=
  if s.clk.up.isEmpty then s
  else
    let (n, s1) := s.draw
    domains.foldl (State.tickDomain (Config.random n).toNat) s1

end Sys2Proof.Machine
end

