-- ==== Sys2Proof/Machine/MoonScalar.lean ====
section
/-!
DEFINITION. The scalar and control instructions of a Moon (R110, R111).
-/
namespace Sys2Proof.Machine

/-- A scalar instruction that writes s[DST] from s[SA] and s[SB] (R110). -/
def State.scalar2 (s : State) (slot : Nat) (w : MWord) (opc : Nat) (f : Word → Word → Word) : State :=
  s.issue slot w { opc := opc, dst := true, sa := true, sb := true } true true
    (fun x => .ok (x.setS w.dst (f (x.getS w.sa) (x.getS w.sb))))

/-- NOP: no effect (R110). -/
def execNop (slot : Nat) (w : MWord) (s : State) : Outcome :=
  .next (s.issue slot w { opc := 0x00 } true true (fun x => .ok x))

/-- SADD (R110). -/
def execSadd (slot : Nat) (w : MWord) (s : State) : Outcome := .next (s.scalar2 slot w 0x01 (fun a b => a + b))

/-- SADDI: s[DST] = s[SA] + IMM (R110). -/
def execSaddi (slot : Nat) (w : MWord) (s : State) : Outcome :=
  .next (s.issue slot w { opc := 0x02, dst := true, sa := true, imm := 2 ^ 64 - 1 } true true
    (fun x => .ok (x.setS w.dst (x.getS w.sa + w.imm))))

/-- SSUB (R110). -/
def execSsub (slot : Nat) (w : MWord) (s : State) : Outcome := .next (s.scalar2 slot w 0x03 (fun a b => a - b))

/-- SMUL: the low 64 bits of the product (R110). -/
def execSmul (slot : Nat) (w : MWord) (s : State) : Outcome := .next (s.scalar2 slot w 0x04 (fun a b => a * b))

/-- SAND (R110). -/
def execSand (slot : Nat) (w : MWord) (s : State) : Outcome := .next (s.scalar2 slot w 0x05 (fun a b => a &&& b))

/-- SOR (R110). -/
def execSor (slot : Nat) (w : MWord) (s : State) : Outcome := .next (s.scalar2 slot w 0x06 (fun a b => a ||| b))

/-- SXOR (R110). -/
def execSxor (slot : Nat) (w : MWord) (s : State) : Outcome := .next (s.scalar2 slot w 0x07 (fun a b => a ^^^ b))

/-- The shift MOD[1:0] selects: 0 left, 1 logical right, 2 arithmetic right (R110). -/
def shiftBy (sel : Nat) (a : Word) (c : Nat) : Word :=
  match sel with
  | 0 => a <<< c
  | 1 => a >>> c
  | _ => a.sshiftRight c

/-- SSHF (R110): with MOD[3] the count is IMM[5:0] and SB is not used, otherwise s[SB] mod 64 and IMM is not used.
Selector 3 is ILLEGAL.
DEDUCED: assumption 21. -/
def execSshf (slot : Nat) (w : MWord) (s : State) : Outcome :=
  .next (s.issue slot w
    { opc := 0x08, dst := true, sa := true, sb := !w.modBit 3, mods := 11, imm := if w.modBit 3 then 63 else 0 }
    (decide (w.md.toNat % 4 ≠ 3)) true
    (fun x =>
      let c := if w.modBit 3 then w.immBits 5 0 else (x.getS w.sb).toNat % 64
      .ok (x.setS w.dst (shiftBy (w.md.toNat % 4) (x.getS w.sa) c))))

/-- SMOVI: s[DST] = IMM (R110). -/
def execSmovi (slot : Nat) (w : MWord) (s : State) : Outcome :=
  .next (s.issue slot w { opc := 0x09, dst := true, imm := 2 ^ 64 - 1 } true true (fun x => .ok (x.setS w.dst w.imm)))

/-- SCMP: all bits of p[AUX] take the condition (R110). -/
def execScmp (slot : Nat) (w : MWord) (s : State) : Outcome :=
  .next (s.issue slot w { opc := 0x0A, sa := true, sb := true, mods := 15, aux := 7 }
    (scalarCond w.md.toNat 0 0).isSome true
    (fun x => .ok (x.setP (preg w.aux.toNat)
      (pAll ((scalarCond w.md.toNat (x.getS w.sa) (x.getS w.sb)).getD false)))))

/-- BR: PC = PC + 16 × IMM[31:0], signed (R110, R111). -/
def execBr (slot : Nat) (w : MWord) (s : State) : Outcome :=
  .next (s.issue slot w { opc := 0x0B, imm := 2 ^ 32 - 1 } true true
    (fun x => .jump { x with pc := (((x.pc : Int) + 16 * toSigned 32 (w.immBits 31 0)) % 2 ^ 64).toNat }))

/-- HALT (R110, R111, R353): waits until every comet of the context has arrived, then ends its run; the context is
idle (R359). The PC stays where it is until the next run sets it. -/
def execHalt (slot : Nat) (w : MWord) (s : State) : Outcome :=
  .next (s.issueWith slot w { opc := 0x0C } true true (fun c x =>
    if !x.comets.isEmpty then s.setCtx c { x with wait := .result }
    else
      let s1 := s.setCtx c { x with running := false, issued := true, wait := .none }
      let s2 := s1.endRun c x.qp (some ((x.getSN 1).toNat, (x.getSN 2).toNat))
      (s2.noteIssue slot .memory).finishCloses c))

/-- SDSET: writes descriptor st[AUX] and checks only its form (R103, R110). The rules on W3
test the word alone, so they hold whatever the predicate (R97). -/
def execSdset (slot : Nat) (w : MWord) (s : State) : Outcome :=
  .next (s.issue slot w { opc := 0x0D, sa := true, sb := true, sc := true, aux := 15, imm := 2 ^ 64 - 1 } (w3FormOk w.imm)
    true
    (fun x =>
      let d : Desc := ⟨x.getS w.sa, x.getS w.sb, x.getS w.sc, w.imm⟩
      if d.formOk then .ok (x.setD w.desc d) else .exc .illegal))

/-- SDGET: s[DST] = word IMM[1:0] of st[AUX] (R110). -/
def execSdget (slot : Nat) (w : MWord) (s : State) : Outcome :=
  .next (s.issue slot w { opc := 0x0E, dst := true, aux := 15, imm := 3 } true true
    (fun x =>
      let d := x.getD w.desc
      .ok (x.setS w.dst (match w.immBits 1 0 with
        | 0 => d.w0 | 1 => d.w1 | 2 => d.w2 | _ => d.w3))))

end Sys2Proof.Machine
end

