-- ==== Sys2Proof/Machine/MoonVector.lean ====
section
/-!
DEFINITION. The vector arithmetic and moves (R112, R113), the compare and predicate instructions (R114), the
conversion (R115) and the softmax-support instructions (R126) of a Moon.
-/
namespace Sys2Proof.Machine

/-- The vector register with element `k` replaced by `g k` where it is enabled; a disabled element keeps its value
(R98). -/
def Ctx.mergeV (x : Ctx) (w : MWord) (f : Fmt) (old : BitVec 2048) (g : Nat → Nat) : BitVec 2048 :=
  vecOf f (fun k => if x.enabled w k then g k else elemOf f old k)

/-- Whether MOD[0], saturation, may be set: only for the six integer instructions of R113. -/
def satMod (w : MWord) : Nat := if w.fmt = 5 ∨ w.fmt = 6 then 1 else 0

/-- An element-wise instruction of R112 on v[SA], v[SB] and v[SC]. -/
def State.vector (s : State) (slot : Nat) (w : MWord) (opc : Nat) (o : VOp) (sb sc sat : Bool) : State :=
  s.issue slot w
    { opc := opc, dst := true, sa := true, sb := sb, sc := sc, mods := if sat then satMod w else 0, fmts := fmtArith } true false
    (fun x =>
      let f := w.format
      let a := x.getV w.sa
      let b := x.getV w.sb
      let c := x.getV w.sc
      .ok (x.setV w.dst (x.mergeV w f (x.getV w.dst) (fun k =>
        vop o f (w.modBit 0) (elemOf f a k) (elemOf f b k) (elemOf f c k)))))

/-- VADD (R112, R113). -/
def execVadd (slot : Nat) (w : MWord) (s : State) : Outcome := .next (s.vector slot w 0x10 .add true false true)
/-- VSUB (R112, R113). -/
def execVsub (slot : Nat) (w : MWord) (s : State) : Outcome := .next (s.vector slot w 0x11 .sub true false true)
/-- VMUL (R112, R113). -/
def execVmul (slot : Nat) (w : MWord) (s : State) : Outcome := .next (s.vector slot w 0x12 .mul true false true)
/-- VFMA, with one rounding (R112, R113). -/
def execVfma (slot : Nat) (w : MWord) (s : State) : Outcome := .next (s.vector slot w 0x13 .fma true true true)
/-- VMIN (R112, R113). -/
def execVmin (slot : Nat) (w : MWord) (s : State) : Outcome := .next (s.vector slot w 0x14 .min true false false)
/-- VMAX (R112, R113). -/
def execVmax (slot : Nat) (w : MWord) (s : State) : Outcome := .next (s.vector slot w 0x15 .max true false false)
/-- VABS (R112, R113). -/
def execVabs (slot : Nat) (w : MWord) (s : State) : Outcome := .next (s.vector slot w 0x16 .abs false false true)
/-- VNEG (R112, R113). -/
def execVneg (slot : Nat) (w : MWord) (s : State) : Outcome := .next (s.vector slot w 0x17 .neg false false true)

/-- A bitwise instruction on the enabled elements (R112). -/
def State.bitwise (s : State) (slot : Nat) (w : MWord) (opc : Nat) (g : Nat → Nat → Nat) : State :=
  s.issue slot w { opc := opc, dst := true, sa := true, sb := true, fmts := fmtAny } true false
    (fun x =>
      let f := w.format
      let a := x.getV w.sa
      let b := x.getV w.sb
      .ok (x.setV w.dst (x.mergeV w f (x.getV w.dst) (fun k => g (elemOf f a k) (elemOf f b k)))))

/-- VAND (R112). -/
def execVand (slot : Nat) (w : MWord) (s : State) : Outcome := .next (s.bitwise slot w 0x18 (fun a b => a &&& b))
/-- VOR (R112). -/
def execVor (slot : Nat) (w : MWord) (s : State) : Outcome := .next (s.bitwise slot w 0x19 (fun a b => a ||| b))
/-- VXOR (R112). -/
def execVxor (slot : Nat) (w : MWord) (s : State) : Outcome := .next (s.bitwise slot w 0x1A (fun a b => a ^^^ b))

/-- VSEL: element k is of v[SA] where bit k of the effective predicate is 1, else of v[SB]; every element is written
(R112). -/
def execVsel (slot : Nat) (w : MWord) (s : State) : Outcome :=
  .next (s.issue slot w { opc := 0x1B, dst := true, sa := true, sb := true, fmts := fmtAny } true false
    (fun x =>
      let f := w.format
      let a := x.getV w.sa
      let b := x.getV w.sb
      .ok (x.setV w.dst (vecOf f (fun k => if x.enabled w k then elemOf f a k else elemOf f b k)))))

/-- VBCST: every enabled element = the low bits of s[SA] (R112). -/
def execVbcst (slot : Nat) (w : MWord) (s : State) : Outcome :=
  .next (s.issue slot w { opc := 0x1C, dst := true, sa := true, fmts := fmtAny } true false
    (fun x => .ok (x.setV w.dst (x.mergeV w w.format (x.getV w.dst) (fun _ => (x.getS w.sa).toNat)))))

/-- VEXT: s[DST] = element IMM of v[SA], extended; an IMM at or above the element count is ILLEGAL (R112). -/
def execVext (slot : Nat) (w : MWord) (s : State) : Outcome :=
  .next (s.issue slot w { opc := 0x1D, dst := true, sa := true, imm := 2 ^ 64 - 1, fmts := fmtAny }
    (decide (w.imm.toNat < w.format.elems)) true
    (fun x => .ok (x.setS w.dst (w.format.extend (elemOf w.format (x.getV w.sa) w.imm.toNat)))))

/-- VINS: element IMM of v[DST] = the low bits of s[SA] (R112). -/
def execVins (slot : Nat) (w : MWord) (s : State) : Outcome :=
  .next (s.issue slot w { opc := 0x1E, dst := true, sa := true, imm := 2 ^ 64 - 1, fmts := fmtAny }
    (decide (w.imm.toNat < w.format.elems)) true
    (fun x => .ok (x.setV w.dst (vecOf w.format (fun k =>
      if k = w.imm.toNat then (x.getS w.sa).toNat else elemOf w.format (x.getV w.dst) k)))))

/-- VMOV (R112). -/
def execVmov (slot : Nat) (w : MWord) (s : State) : Outcome :=
  .next (s.issue slot w { opc := 0x1F, dst := true, sa := true, fmts := fmtAny } true false
    (fun x => .ok (x.setV w.dst (x.mergeV w w.format (x.getV w.dst) (fun k => elemOf w.format (x.getV w.sa) k)))))

/-- VCMP: bit k of p[AUX] = the condition for each enabled k below the element count, else 0 (R98, R114). -/
def execVcmp (slot : Nat) (w : MWord) (s : State) : Outcome :=
  .next (s.issue slot w
    { opc := 0x20, sa := true, sb := true, mods := 15, aux := 7, fmts := [0, 1, 2, 5, 6, 7] } (decide (w.md.toNat ≤ 6)) false
    (fun x =>
      let f := w.format
      .ok (x.setP (preg w.aux.toNat) (predOf f.elems (fun k =>
        x.enabled w k && vectorCond f w.md.toNat (elemOf f (x.getV w.sa) k) (elemOf f (x.getV w.sb) k))))))

/-- The predicate operation of PLOG a MOD code selects (R114). -/
def plogOp (code : Nat) (a b : BitVec 256) : BitVec 256 :=
  match code with
  | 0 => a &&& b
  | 1 => a ||| b
  | 2 => a ^^^ b
  | 3 => a &&& ~~~ b
  | _ => ~~~ a

/-- PLOG: p[AUX] = p[SA] op p[SB]; unpredicated (R114). -/
def execPlog (slot : Nat) (w : MWord) (s : State) : Outcome :=
  .next (s.issue slot w
    { opc := 0x21, sa := true, sb := decide (w.md ≠ 4), mods := 15, aux := 7, predicated := false }
    (decide (w.md.toNat ≤ 4) && decide (w.sa.toNat < 8) && decide (w.sb.toNat < 8)) false
    (fun x => .ok (x.setP (preg w.aux.toNat)
      (plogOp w.md.toNat (x.getP (preg w.sa.toNat)) (x.getP (preg w.sb.toNat))))))

/-- The number of 1 bits among the low `n` bits of a predicate. -/
def countOnes (v : BitVec 256) : Nat → Nat
  | 0 => 0
  | n + 1 => countOnes v n + bit01 (v.getLsbD n)

/-- PCNT: s[DST] = number of 1 bits in p[SA] (R114). -/
def execPcnt (slot : Nat) (w : MWord) (s : State) : Outcome :=
  .next (s.issue slot w { opc := 0x22, dst := true, sa := true } (decide (w.sa.toNat < 8)) true
    (fun x => .ok (x.setS w.dst (BitVec.ofNat 64 (countOnes (x.getP (preg w.sa.toNat)) 256)))))

/-- PFST: s[DST] = index of the lowest 1 bit of p[SA], or 256 if none (R114). -/
def execPfst (slot : Nat) (w : MWord) (s : State) : Outcome :=
  .next (s.issue slot w { opc := 0x23, dst := true, sa := true } (decide (w.sa.toNat < 8)) true
    (fun x => .ok (x.setS w.dst (BitVec.ofNat 64
      (((List.range 256).find? (fun k => (x.getP (preg w.sa.toNat)).getLsbD k)).getD 256)))))

/-- PSET: bits 0 to IMM − 1 of p[AUX] set and the rest clear (R114). -/
def execPset (slot : Nat) (w : MWord) (s : State) : Outcome :=
  .next (s.issue slot w { opc := 0x24, aux := 7, imm := 2 ^ 64 - 1 } (decide (w.imm.toNat ≤ 256)) true
    (fun x => .ok (x.setP (preg w.aux.toNat) (BitVec.ofNat 256 (2 ^ w.imm.toNat - 1)))))

/-- The ratio of the element counts of two formats, and 1 where they are equal (R115). -/
def cvtRatio (src dst : Fmt) : Nat := max (src.elems / dst.elems) (dst.elems / src.elems)

/-- VCVT (R115): converts the enabled elements of v[SA] from format AUX[3:0] to FMT. Where the source has more
elements, source element q·n + k goes to element k; where the destination has more, element k goes to q·n + k. -/
def execVcvt (slot : Nat) (w : MWord) (s : State) : Outcome :=
  let src := (Fmt.ofCode (w.auxBits 3 0)).getD .u8
  .next (s.issue slot w
    { opc := 0x30, dst := true, sa := true, aux := 15, imm := 3, fmts := [0, 1, 2, 3, 4, 5, 6] }
    (decide (w.auxBits 3 0 < 7) && decide (w.immBits 1 0 < cvtRatio src w.format)) false
    (fun x =>
      let dst := w.format
      let q := w.immBits 1 0
      let n := min src.elems dst.elems
      let old := x.getV w.dst
      let a := x.getV w.sa
      .ok (x.setV w.dst (vecOf dst (fun j =>
        let wide := decide (src.elems < dst.elems)
        let inPart := if wide then decide (q * n ≤ j) && decide (j < q * n + n) else decide (j < n)
        let from_ := if wide then j - q * n else if dst.elems < src.elems then q * n + j else j
        if inPart && x.enabled w j then convert src dst (elemOf src a from_) else elemOf dst old j)))))

/-- VEXP2: exp2 of each enabled element (R126). -/
def execVexp2 (slot : Nat) (w : MWord) (s : State) : Outcome :=
  .next (s.issue slot w { opc := 0x70, dst := true, sa := true } true false
    (fun x => .ok (x.setV w.dst (x.mergeV w .fp32 (x.getV w.dst) (fun k => exp2 (elemOf .fp32 (x.getV w.sa) k))))))

/-- VRCP: the reciprocal of each enabled element (R126). -/
def execVrcp (slot : Nat) (w : MWord) (s : State) : Outcome :=
  .next (s.issue slot w { opc := 0x71, dst := true, sa := true } true false
    (fun x => .ok (x.setV w.dst (x.mergeV w .fp32 (x.getV w.dst) (fun k => rcp (elemOf .fp32 (x.getV w.sa) k))))))

/-- The enabled elements of a vector register, in ascending order (R126). -/
def Ctx.enabledElems (x : Ctx) (w : MWord) (f : Fmt) (v : BitVec 2048) : List Nat :=
  ((List.range f.elems).filter (fun k => x.enabled w k)).map (fun k => elemOf f v k)

/-- VRMAX: s[DST] = the largest enabled element, extended (R126). -/
def execVrmax (slot : Nat) (w : MWord) (s : State) : Outcome :=
  .next (s.issue slot w { opc := 0x72, dst := true, sa := true, fmts := fmtArith } true false
    (fun x => .ok (x.setS w.dst (w.format.extend (largest w.format (x.enabledElems w w.format (x.getV w.sa)))))))

/-- VRSUM: s[DST] = the FP32 reduction under R66 of the enabled elements (R126). -/
def execVrsum (slot : Nat) (w : MWord) (s : State) : Outcome :=
  .next (s.issue slot w { opc := 0x73, dst := true, sa := true, fmts := [0, 1, 2] } true false
    (fun x => .ok (x.setS w.dst (BitVec.ofNat 64
      (fixedSum ((x.enabledElems w w.format (x.getV w.sa)).map (convert w.format .fp32)))))))

end Sys2Proof.Machine
end

