-- ==== Sys2Proof/Machine/MoonWalk.lean ====
section
/-!
DEFINITION. The walkers of vector search (R152 to R157): candidate queue, visited filter and top-k list.
-/
namespace Sys2Proof.Machine

/-- Whether entry `a` comes strictly before `b` in the order of R153. -/
def WkEntry.before (a b : WkEntry) : Bool :=
  decide (distKey a.dist < distKey b.dist) || (decide (distKey a.dist = distKey b.dist) && decide (a.id < b.id))

/-- An entry put in its place in an ordered list, after those equal to it. -/
def wkInsert (e : WkEntry) : List WkEntry → List WkEntry
  | [] => [e]
  | y :: r => if e.before y then e :: y :: r else y :: wkInsert e r

/-- The entry at a scratch offset (R153). -/
def Ctx.entryAt (x : Ctx) (a : Nat) : WkEntry := ⟨memNat x.scratch a 4, memNat x.scratch (a + 4) 5⟩

/-- The enabled entries among n at a scratch offset, in order. -/
def Ctx.entries (x : Ctx) (w : MWord) (a n : Nat) : List WkEntry :=
  ((List.range n).filter (fun k => x.enabled w k)).map (fun k => x.entryAt (a + 16 * k))

/-- One push (R154): at capacity, of the new entry and the last one the later is discarded. The count of discards
is returned with the queue. -/
def Walker.push (k : Walker) (e : WkEntry) : Walker × Nat :=
  let q := wkInsert e k.queue
  if k.cap < q.length then ({ k with queue := q.take k.cap }, 1) else ({ k with queue := q }, 0)

/-- The filter bit of an ID (R155). -/
def visitBit (id : Nat) : Nat := (id * 0x9E3779B97F4A7C15 % 2 ^ 64) / 2 ^ 45

/-- One insertion into the top-k list (R157). -/
def Walker.insertTop (k : Walker) (e : WkEntry) : Walker :=
  match k.top.find? (fun y => decide (y.id = e.id)) with
  | some y =>
    if e.before y then { k with top := wkInsert e (k.top.filter (fun z => decide (z.id ≠ e.id))) } else k
  | none => { k with top := (wkInsert e k.top).take k.k }

/-- A walker before its first WKINIT: a queue and a list of capacity 0, so it keeps nothing.
DESIGN CHOICE: assumption 68. -/
def Walker.blank : Walker := ⟨0, 0, [], [], []⟩

/-- The walker a word names in AUX[3:0], and whether it is granted (R152). -/
def walkerNo (w : MWord) : Nat := w.auxBits 3 0
/-- Whether a walker is granted. -/
def Ctx.walkerOk (x : Ctx) (k : Nat) : Bool := decide (k < x.walkers.length)
/-- A granted walker. -/
def Ctx.getW (x : Ctx) (k : Nat) : Walker := x.walkers.getD k Walker.blank
/-- A granted walker set. -/
def Ctx.setW (x : Ctx) (k : Nat) (v : Walker) : Ctx := { x with walkers := x.walkers.set k v }

/-- Whether a count of entries or IDs is within its limits (R153). -/
def listCount (n : Nat) : Bool := decide (1 ≤ n) && decide (n ≤ 256)

/-- WKINIT: empties the queue, filter and list of walker AUX. -/
def execWkinit (slot : Nat) (w : MWord) (s : State) : Outcome :=
  let cap := w.immBits 15 0
  let k := w.immBits 31 16
  .next (s.issue slot w { opc := 0xA0, aux := 15, imm := 2 ^ 32 - 1 }
    (decide (1 ≤ cap) && decide (cap ≤ 1024) && decide (1 ≤ k) && decide (k ≤ 1024)) true
    (fun x => checked [(x.walkerOk (walkerNo w), .walker)] (.ok (x.setW (walkerNo w) ⟨cap, k, [], [], []⟩))))

/-- CQPUSH (R154): inserts the enabled entries in order; s[DST] = entries discarded.
DEDUCED: assumptions 22 and 34. -/
def execCqpush (slot : Nat) (w : MWord) (s : State) : Outcome :=
  let n := w.immBits 15 0
  .next (s.issue slot w { opc := 0xA1, dst := true, sa := true, aux := 15, imm := 2 ^ 16 - 1 } (listCount n) false
    (fun x =>
      let a := (x.getS w.sa).toNat
      checked [(x.lanesOk w a 16 n 16, .scratch), (x.walkerOk (walkerNo w), .walker)]
        (x.guarded (x.laneRanges w a 16 n) []
          (let r := (x.entries w a n).foldl (fun (acc : Walker × Nat) e =>
              let q := acc.1.push e
              (q.1, acc.2 + q.2)) (x.getW (walkerNo w), 0)
           .ok ((x.setW (walkerNo w) r.1).setS w.dst (BitVec.ofNat 64 r.2))))))

/-- CQPOP: the first entry of the queue, removed unless MOD[0] is 1; all ones and 0 when it is empty. -/
def execCqpop (slot : Nat) (w : MWord) (s : State) : Outcome :=
  .next (s.issue slot w { opc := 0xA2, dst := true, mods := 1, aux := 15 } (decide (w.dst.toNat ≤ 30)) true
    (fun x =>
      checked [(x.walkerOk (walkerNo w), .walker)]
        (let k := x.getW (walkerNo w)
         match k.queue with
         | [] => .ok ((x.setS w.dst (BitVec.allOnes 64)).setS (w.dst + 1) 0)
         | e :: r =>
           .ok (((x.setW (walkerNo w) { k with queue := if w.modBit 0 then e :: r else r }).setS w.dst
             (BitVec.ofNat 64 e.id)).setS (w.dst + 1) (BitVec.ofNat 64 e.dist)))))

/-- VISIT (R155): bit k of the predicate tells whether ID k was unmarked; it is marked.
DEDUCED: assumption 22. DESIGN CHOICE: assumption 64. -/
def execVisit (slot : Nat) (w : MWord) (s : State) : Outcome :=
  let n := w.immBits 15 0
  .next (s.issue slot w { opc := 0xA3, sa := true, aux := 15, imm := 2 ^ 19 - 1 } (listCount n) false
    (fun x =>
      let a := (x.getS w.sa).toNat
      checked [(x.lanesOk w a 8 n 8, .scratch), (x.walkerOk (walkerNo w), .walker)]
        (x.guarded (x.laneRanges w a 8 n) []
          (let k := x.getW (walkerNo w)
           let r := (List.range n).foldl (fun (acc : NatSet × NatSet) i =>
              if x.enabled w i then
                let b := visitBit (memNat x.scratch (a + 8 * i) 8 % 2 ^ 40)
                if acc.1.contains b then acc else (setIns acc.1 b, i :: acc.2)
              else acc) (k.marked, [])
           .ok ((x.setW (walkerNo w) { k with marked := r.1 }).setP (preg (w.immBits 18 16))
             (predOf n (fun i => r.2.contains i)))))))

/-- TKINS (R157): inserts the enabled entries into the top-k list. -/
def execTkins (slot : Nat) (w : MWord) (s : State) : Outcome :=
  let n := w.immBits 15 0
  .next (s.issue slot w { opc := 0xA5, sa := true, aux := 15, imm := 2 ^ 16 - 1 } (listCount n) false
    (fun x =>
      let a := (x.getS w.sa).toNat
      checked [(x.lanesOk w a 16 n 16, .scratch), (x.walkerOk (walkerNo w), .walker)]
        (x.guarded (x.laneRanges w a 16 n) []
          (.ok (x.setW (walkerNo w) ((x.entries w a n).foldl Walker.insertTop (x.getW (walkerNo w))))))))

/-- TKRD (R157): writes the top-k list in order to scratch; s[DST] = count. -/
def execTkrd (slot : Nat) (w : MWord) (s : State) : Outcome :=
  .next (s.issue slot w { opc := 0xA6, dst := true, sa := true, aux := 15 } true true
    (fun x =>
      let a := (x.getS w.sa).toNat
      let top := (x.getW (walkerNo w)).top
      checked [(x.scratchOk a (16 * top.length) 16, .scratch), (x.walkerOk (walkerNo w), .walker)]
        (x.guarded [] [(a, 16 * top.length)]
          (.ok ((x.putScratch a (top.flatMap (fun e => natBytes 4 e.dist ++ natBytes 5 e.id ++ natBytes 7 0))).setS
            w.dst (BitVec.ofNat 64 top.length))))))

end Sys2Proof.Machine
end

