-- ==== Sys2Proof/Machine/MoonXacc.lean ====
section
/-!
DEFINITION. The exact-accumulator instructions (R70 to R75, R125) and the normalisation of an accumulator (R72).
-/
namespace Sys2Proof.Machine

/-- Adds since the last normalisation at which an accumulator normalises itself (R72). -/
def normEvery : Nat := 2 ^ 30

/-- The largest add count (R70). -/
def countTop : Nat := 2 ^ 48

/-- An element of a format as it enters an accumulator: FP widened exactly to FP32, INT32 as an integer (R71). -/
def accValue (f : Fmt) (e : Nat) : FVal := if f = .int32 then Fmt.val .int32 e else Fmt.val .fp32 (convert f .fp32 e)

/-- The product of two elements as it enters an accumulator: INT8 as an integer, else formed under R65 (R125). -/
def accProduct (f : Fmt) (a b : Nat) : FVal :=
  if f = .int8 then FVal.ofInt (toSigned 8 a * toSigned 8 b) 0 else Fmt.val .fp32 (product32 f f a b)

/-- Whether one of the accumulators named must normalise before it takes an add (R72).
DEDUCED: assumption 23. -/
def Ctx.normDue (x : Ctx) (as : List Nat) : Bool := as.any (fun a => decide (normEvery ≤ (x.getX a).sinceNorm))

/-- XCLR: clears xa[AUX] to xa[AUX + IMM − 1] (R125). -/
def execXclr (slot : Nat) (w : MWord) (s : State) : Outcome :=
  .next (s.issue slot w { opc := 0x60, aux := 63, imm := 127 } (decide (1 ≤ w.imm.toNat) && decide (w.imm.toNat ≤ 64)) true
    (fun x => checked [(x.xaccOk w.aux.toNat w.imm.toNat, .xacc)]
      (.ok ((List.range w.imm.toNat).foldl (fun y i => y.setX (w.aux.toNat + i) XAcc.clear) x))))

/-- XADD: adds every enabled element into xa[AUX] (R125). -/
def execXadd (slot : Nat) (w : MWord) (s : State) : Outcome :=
  .next (s.issue slot w { opc := 0x61, sa := true, aux := 63, fmts := [0, 1, 2, 3, 4, 6] } true false
    (fun x =>
      let f := w.format
      let a := w.aux.toNat
      let es := ((List.range f.elems).filter (fun k => x.enabled w k)).map (fun k => elemOf f (x.getV w.sa) k)
      checked [(x.xaccOk a 1, .xacc), (decide ((x.getX a).count + es.length < countTop), .arithLimit)]
        (if x.normDue [a] then .stall .result
         else .ok (x.setX a (es.foldl (fun acc e => acc.add (accValue f e)) (x.getX a))))))

/-- The enabled element numbers below IMM (R125). -/
def Ctx.lanes (x : Ctx) (w : MWord) (f : Fmt) : List Nat :=
  (List.range (min w.imm.toNat f.elems)).filter (fun k => x.enabled w k)

/-- Adds of one value into each accumulator named by an enabled element (R125). The accumulator range that
must lie within the grant is xa[AUX] to xa[AUX + IMM − 1], whatever elements are enabled.
DEDUCED: assumption 21. -/
def State.laneAdds (s : State) (slot : Nat) (w : MWord) (h : Shape) (val : Ctx → Nat → FVal) : State :=
  s.issue slot w h (decide (1 ≤ w.imm.toNat) && decide (w.imm.toNat ≤ 64)) false
    (fun x =>
      let a := w.aux.toNat
      let ks := x.lanes w w.format
      checked [(x.xaccOk a w.imm.toNat, .xacc),
               (ks.all (fun k => decide ((x.getX (a + k)).count + 1 < countTop)), .arithLimit)]
        (if x.normDue (ks.map (fun k => a + k)) then .stall .result
         else .ok (ks.foldl (fun y k => y.setX (a + k) ((y.getX (a + k)).add (val x k))) x)))

/-- XADDL: adds element k of v[SA] into xa[AUX + k] (R125). -/
def execXaddl (slot : Nat) (w : MWord) (s : State) : Outcome :=
  .next (s.laneAdds slot w { opc := 0x62, sa := true, aux := 63, imm := 127, fmts := [0, 1, 2, 3, 4, 6] }
    (fun x k => accValue w.format (elemOf w.format (x.getV w.sa) k)))

/-- XDOT: adds the product of elements k of v[SA] and v[SB] into xa[AUX + k] (R125). -/
def execXdot (slot : Nat) (w : MWord) (s : State) : Outcome :=
  .next (s.laneAdds slot w { opc := 0x63, sa := true, sb := true, aux := 63, imm := 127, fmts := [1, 2, 3, 4, 5] }
    (fun x k => accProduct w.format (elemOf w.format (x.getV w.sa) k) (elemOf w.format (x.getV w.sb) k)))

/-- An accumulator normalised where that is due for a read-out or export: it has taken an add since its last
normalisation (R72). -/
def XAcc.forRead (a : XAcc) : XAcc := if a.sinceNorm = 0 then a else a.normalise

/-- XRD: s[DST] = the read-out of xa[AUX] in FMT (R73, R125). -/
def execXrd (slot : Nat) (w : MWord) (s : State) : Outcome :=
  .next (s.issue slot w { opc := 0x64, dst := true, aux := 63, fmts := [0, 1, 2, 6] } true true
    (fun x => checked [(x.xaccOk w.aux.toNat 1, .xacc)]
      (let a := (x.getX w.aux.toNat).forRead
       .ok ((x.setX w.aux.toNat a).setS w.dst (w.format.extend (a.readOut w.format))))))

/-- XEXP: writes the image of xa[AUX] to scratch s[SA] (R74, R125). -/
def execXexp (slot : Nat) (w : MWord) (s : State) : Outcome :=
  .next (s.issue slot w { opc := 0x65, sa := true, aux := 63 } true true
    (fun x =>
      let p := (x.getS w.sa).toNat
      checked [(x.scratchOk p 88 8, .scratch), (x.xaccOk w.aux.toNat 1, .xacc)]
        (x.guarded [] [(p, 88)]
          (let a := (x.getX w.aux.toNat).forRead
           .ok ((x.setX w.aux.toNat a).putScratch p a.image)))))

/-- XIMP: merges the image at scratch s[SA] into xa[AUX]; a refused image raises ILLEGAL (R75, R108, R125). -/
def execXimp (slot : Nat) (w : MWord) (s : State) : Outcome :=
  .next (s.issue slot w { opc := 0x66, sa := true, aux := 63 } true true
    (fun x =>
      let p := (x.getS w.sa).toNat
      let a := x.getX w.aux.toNat
      checked [(x.scratchOk p 88 8, .scratch), (x.xaccOk w.aux.toNat 1, .xacc)]
        (x.guarded [(p, 88)] []
          (match XAcc.ofImage (memRead x.scratch p 88) with
           | none => .exc .illegal
           | some b => checked [(decide (a.count + b.count < countTop), .arithLimit)]
              (.ok (x.setX w.aux.toNat (a.merge b)))))))

/-- XMRG: merges xa[IMM] into xa[AUX]; xa[IMM] is unchanged, and IMM = AUX doubles the state (R125). -/
def execXmrg (slot : Nat) (w : MWord) (s : State) : Outcome :=
  .next (s.issue slot w { opc := 0x67, aux := 63, imm := 63 } true true
    (fun x =>
      let a := x.getX w.aux.toNat
      let b := x.getX w.imm.toNat
      checked [(x.xaccOk w.aux.toNat 1 && x.xaccOk w.imm.toNat 1, .xacc),
               (decide (a.count + b.count < countTop), .arithLimit)]
        (.ok (x.setX w.aux.toNat (a.merge b)))))

/-- XACC_NORMALISE (R72): accumulator `a` of the context in a slot normalises its bins once 2 to the 30 adds have been
made since its last normalisation; no result shows it.
DEDUCED: assumption 23. -/
def execXaccNormalise (slot a : Nat) (s : State) : Outcome :=
  .next (match s.occupant slot with
    | none => s
    | some c => s.modCtx c (fun x =>
        if a < x.xa.length ∧ normEvery ≤ (x.getX a).sinceNorm then x.setX a (x.getX a).normalise else x))

end Sys2Proof.Machine
end

