-- ==== Sys2Proof/Machine/Dispatch.lean ====
section
/-!
DEFINITION. The meaning of every command.
-/
namespace Sys2Proof.Machine

def exec (i : Instr) (s : State) : Host.Outcome State Fault Refusal :=
  match i with
  | .bar0UnalignedAccess off a => Sys2Proof.Machine.execBar0UnalignedAccess off a s
  | .registerWrite off a => Sys2Proof.Machine.execRegisterWrite off a s
  | .orbRaise bits => Sys2Proof.Machine.execOrbRaise bits s
  | .orbitBoundary p => Sys2Proof.Machine.execOrbitBoundary p s
  | .overdue p => Sys2Proof.Machine.execOverdue p s
  | .contextParkCopyDone c fails => Sys2Proof.Machine.execContextParkCopyDone c fails s
  | .contextResumeCopyDone c fails => Sys2Proof.Machine.execContextResumeCopyDone c fails s
  | .moonLeavesService m => Sys2Proof.Machine.execMoonLeavesService m s
  | .xaccNormalise slot a => Sys2Proof.Machine.execXaccNormalise slot a s
  | .nop slot w => Sys2Proof.Machine.execNop slot w s
  | .sadd slot w => Sys2Proof.Machine.execSadd slot w s
  | .saddi slot w => Sys2Proof.Machine.execSaddi slot w s
  | .ssub slot w => Sys2Proof.Machine.execSsub slot w s
  | .smul slot w => Sys2Proof.Machine.execSmul slot w s
  | .sand slot w => Sys2Proof.Machine.execSand slot w s
  | .sor slot w => Sys2Proof.Machine.execSor slot w s
  | .sxor slot w => Sys2Proof.Machine.execSxor slot w s
  | .sshf slot w => Sys2Proof.Machine.execSshf slot w s
  | .smovi slot w => Sys2Proof.Machine.execSmovi slot w s
  | .scmp slot w => Sys2Proof.Machine.execScmp slot w s
  | .br slot w => Sys2Proof.Machine.execBr slot w s
  | .halt slot w => Sys2Proof.Machine.execHalt slot w s
  | .sdset slot w => Sys2Proof.Machine.execSdset slot w s
  | .sdget slot w => Sys2Proof.Machine.execSdget slot w s
  | .vadd slot w => Sys2Proof.Machine.execVadd slot w s
  | .vsub slot w => Sys2Proof.Machine.execVsub slot w s
  | .vmul slot w => Sys2Proof.Machine.execVmul slot w s
  | .vfma slot w => Sys2Proof.Machine.execVfma slot w s
  | .vmin slot w => Sys2Proof.Machine.execVmin slot w s
  | .vmax slot w => Sys2Proof.Machine.execVmax slot w s
  | .vabs slot w => Sys2Proof.Machine.execVabs slot w s
  | .vneg slot w => Sys2Proof.Machine.execVneg slot w s
  | .vand slot w => Sys2Proof.Machine.execVand slot w s
  | .vor slot w => Sys2Proof.Machine.execVor slot w s
  | .vxor slot w => Sys2Proof.Machine.execVxor slot w s
  | .vsel slot w => Sys2Proof.Machine.execVsel slot w s
  | .vbcst slot w => Sys2Proof.Machine.execVbcst slot w s
  | .vext slot w => Sys2Proof.Machine.execVext slot w s
  | .vins slot w => Sys2Proof.Machine.execVins slot w s
  | .vmov slot w => Sys2Proof.Machine.execVmov slot w s
  | .vcmp slot w => Sys2Proof.Machine.execVcmp slot w s
  | .plog slot w => Sys2Proof.Machine.execPlog slot w s
  | .pcnt slot w => Sys2Proof.Machine.execPcnt slot w s
  | .pfst slot w => Sys2Proof.Machine.execPfst slot w s
  | .pset slot w => Sys2Proof.Machine.execPset slot w s
  | .vcvt slot w => Sys2Proof.Machine.execVcvt slot w s
  | .mma slot w => Sys2Proof.Machine.execMma slot w s
  | .ltb slot w => Sys2Proof.Machine.execLtb slot w s
  | .ltld slot w => Sys2Proof.Machine.execLtld slot w s
  | .lac slot w => Sys2Proof.Machine.execLac slot w s
  | .lexpw slot w => Sys2Proof.Machine.execLexpw slot w s
  | .lbin slot w => Sys2Proof.Machine.execLbin slot w s
  | .xclr slot w => Sys2Proof.Machine.execXclr slot w s
  | .xadd slot w => Sys2Proof.Machine.execXadd slot w s
  | .xaddl slot w => Sys2Proof.Machine.execXaddl slot w s
  | .xdot slot w => Sys2Proof.Machine.execXdot slot w s
  | .xrd slot w => Sys2Proof.Machine.execXrd slot w s
  | .xexp slot w => Sys2Proof.Machine.execXexp slot w s
  | .ximp slot w => Sys2Proof.Machine.execXimp slot w s
  | .xmrg slot w => Sys2Proof.Machine.execXmrg slot w s
  | .vexp2 slot w => Sys2Proof.Machine.execVexp2 slot w s
  | .vrcp slot w => Sys2Proof.Machine.execVrcp slot w s
  | .vrmax slot w => Sys2Proof.Machine.execVrmax slot w s
  | .vrsum slot w => Sys2Proof.Machine.execVrsum slot w s
  | .ld slot w => Sys2Proof.Machine.execLd slot w s
  | .st slot w => Sys2Proof.Machine.execSt slot w s
  | .cld slot w => Sys2Proof.Machine.execCld slot w s
  | .cst slot w => Sys2Proof.Machine.execCst slot w s
  | .expd slot w => Sys2Proof.Machine.execExpd slot w s
  | .amo slot w => Sys2Proof.Machine.execAmo slot w s
  | .pub slot w => Sys2Proof.Machine.execPub slot w s
  | .kvenc slot w => Sys2Proof.Machine.execKvenc slot w s
  | .wait slot w => Sys2Proof.Machine.execWait slot w s
  | .acset slot w => Sys2Proof.Machine.execAcset slot w s
  | .acrd slot w => Sys2Proof.Machine.execAcrd slot w s
  | .fence slot w => Sys2Proof.Machine.execFence slot w s
  | .orbit slot w => Sys2Proof.Machine.execOrbit slot w s
  | .orq slot w => Sys2Proof.Machine.execOrq slot w s
  | .msgs slot w => Sys2Proof.Machine.execMsgs slot w s
  | .msgr slot w => Sys2Proof.Machine.execMsgr slot w s
  | .tbegin slot w => Sys2Proof.Machine.execTbegin slot w s
  | .tclm slot w => Sys2Proof.Machine.execTclm slot w s
  | .tcmt slot w => Sys2Proof.Machine.execTcmt slot w s
  | .tld slot w => Sys2Proof.Machine.execTld slot w s
  | .wkinit slot w => Sys2Proof.Machine.execWkinit slot w s
  | .cqpush slot w => Sys2Proof.Machine.execCqpush slot w s
  | .cqpop slot w => Sys2Proof.Machine.execCqpop slot w s
  | .visit slot w => Sys2Proof.Machine.execVisit slot w s
  | .bmtst slot w => Sys2Proof.Machine.execBmtst slot w s
  | .tkins slot w => Sys2Proof.Machine.execTkins slot w s
  | .tkrd slot w => Sys2Proof.Machine.execTkrd slot w s
  | .memoryAnswer slot bad => Sys2Proof.Machine.execMemoryAnswer slot bad s
  | .cometArrival c id bad gone => Sys2Proof.Machine.execCometArrival c id bad gone s
  | .requestLate id => Sys2Proof.Machine.execRequestLate id s
  | .requestFailTimeout id => Sys2Proof.Machine.execRequestFailTimeout id s
  | .granuleFillDone h g => Sys2Proof.Machine.execGranuleFillDone h g s
  | .fillRoomRetry p => Sys2Proof.Machine.execFillRoomRetry p s
  | .moveCopyDone h => Sys2Proof.Machine.execMoveCopyDone h s
  | .oldLayoutFree h => Sys2Proof.Machine.execOldLayoutFree h s
  | .imbalWindowEnd => Sys2Proof.Machine.execImbalWindowEnd s
  | .scrubPatrol corrected found => Sys2Proof.Machine.execScrubPatrol corrected found s
  | .nmeOperationEnd id fail => Sys2Proof.Machine.execNmeOperationEnd id fail s
  | .completionWrite q hostCount => Sys2Proof.Machine.execCompletionWrite q hostCount s
  | .pilotDoorbell q d7 => Sys2Proof.Machine.execPilotDoorbell q d7 s
  | .run q => Sys2Proof.Machine.execRun q s
  | .ctxOpen q => Sys2Proof.Machine.execCtxOpen q s
  | .ctxClose q => Sys2Proof.Machine.execCtxClose q s
  | .register q => Sys2Proof.Machine.execRegister q s
  | .validate q => Sys2Proof.Machine.execValidate q s
  | .release q => Sys2Proof.Machine.execRelease q s
  | .reclass q => Sys2Proof.Machine.execReclass q s
  | .steep q => Sys2Proof.Machine.execSteep q s
  | .query q => Sys2Proof.Machine.execQuery q s
  | .fill q => Sys2Proof.Machine.execFill q s
  | .copy q => Sys2Proof.Machine.execCopy q s
  | .compare q => Sys2Proof.Machine.execCompare q s
  | .reduce q => Sys2Proof.Machine.execReduce q s
  | .publish q => Sys2Proof.Machine.execPublish q s
  | .mapStage q => Sys2Proof.Machine.execMapStage q s
  | .ownClaim q => Sys2Proof.Machine.execOwnClaim q s
  | .ownOffer q => Sys2Proof.Machine.execOwnOffer q s
  | .ownAccept q => Sys2Proof.Machine.execOwnAccept q s
  | .ownDrop q => Sys2Proof.Machine.execOwnDrop q s
  | .offerLapse ref => Sys2Proof.Machine.execOfferLapse ref s
  | .contextAbort c => Sys2Proof.Machine.execContextAbort c s
  | .jobTeardown p job => Sys2Proof.Machine.execJobTeardown p job s
  | .acceleratorCrash n => Sys2Proof.Machine.execAcceleratorCrash n s
  | .memrd port spid dpid tag addr any => Sys2Proof.Machine.execMemrd port spid dpid tag addr any s
  | .memrddata port spid dpid tag addr any => Sys2Proof.Machine.execMemrddata port spid dpid tag addr any s
  | .meminv port spid dpid tag addr => Sys2Proof.Machine.execMeminv port spid dpid tag addr s
  | .meminvnt port spid dpid tag addr => Sys2Proof.Machine.execMeminvnt port spid dpid tag addr s
  | .memspecrd port => Sys2Proof.Machine.execMemspecrd port s
  | .memwr port spid dpid tag addr data => Sys2Proof.Machine.execMemwr port spid dpid tag addr data s
  | .memwrptl port spid dpid tag addr data enables => Sys2Proof.Machine.execMemwrptl port spid dpid tag addr data enables s
  | .birspi port h l => Sys2Proof.Machine.execBirspi port h l s
  | .birsps port h l => Sys2Proof.Machine.execBirsps port h l s
  | .m2sOtherOpcode port tag resp => Sys2Proof.Machine.execM2sOtherOpcode port tag resp s
  | .biTimeout port h l => Sys2Proof.Machine.execBiTimeout port h l s
  | .combinerLineEnter h l => Sys2Proof.Machine.execCombinerLineEnter h l s
  | .combinerApply h l => Sys2Proof.Machine.execCombinerApply h l s
  | .combinerLineLeave h l => Sys2Proof.Machine.execCombinerLineLeave h l s
  | .trayOriginatedRequest port => Sys2Proof.Machine.execTrayOriginatedRequest port s
  | .s2mDrs port id data abort => Sys2Proof.Machine.execS2mDrs port id data abort s
  | .s2mNdr port id abort => Sys2Proof.Machine.execS2mNdr port id abort s
  | .trayIoRequest port messageTlp => Sys2Proof.Machine.execTrayIoRequest port messageTlp s
  | .trayBisnp port => Sys2Proof.Machine.execTrayBisnp port s
  | .deviceMessageRun port cls dpid p ctx header payload => Sys2Proof.Machine.execDeviceMessageRun port cls dpid p ctx header payload s
  | .fabricIoTlp port tag kind nonPosted => Sys2Proof.Machine.execFabricIoTlp port tag kind nonPosted s
  | .crossbarGrant g => Sys2Proof.Machine.execCrossbarGrant g s
  | .spillReturn n out cls => Sys2Proof.Machine.execSpillReturn n out cls s
  | .tagAdmit n => Sys2Proof.Machine.execTagAdmit n s
  | .xbarTagBudget n v => Sys2Proof.Machine.execXbarTagBudget n v s
  | .identify mail => Sys2Proof.Machine.execIdentify mail s
  | .backgroundOperationStatus mail => Sys2Proof.Machine.execBackgroundOperationStatus mail s
  | .getResponseMessageLimit mail => Sys2Proof.Machine.execGetResponseMessageLimit mail s
  | .setResponseMessageLimit mail n => Sys2Proof.Machine.execSetResponseMessageLimit mail n s
  | .getEventRecords mail => Sys2Proof.Machine.execGetEventRecords mail s
  | .clearEventRecords mail n => Sys2Proof.Machine.execClearEventRecords mail n s
  | .getEventInterruptPolicy mail => Sys2Proof.Machine.execGetEventInterruptPolicy mail s
  | .setEventInterruptPolicy mail policy => Sys2Proof.Machine.execSetEventInterruptPolicy mail policy s
  | .getPhysicalPortState mail ports => Sys2Proof.Machine.execGetPhysicalPortState mail ports s
  | .gfdComponentCommands mail => Sys2Proof.Machine.execGfdComponentCommands mail s
  | .getDcRegionConfiguration mail => Sys2Proof.Machine.execGetDcRegionConfiguration mail s
  | .getDcRegionExtentLists mail pbr => Sys2Proof.Machine.execGetDcRegionExtentLists mail pbr s
  | .fmUnsupportedCommand mail => Sys2Proof.Machine.execFmUnsupportedCommand mail s
  | .skGetId mail input => Sys2Proof.Machine.execSkGetId mail input s
  | .skAssignPbr mail input => Sys2Proof.Machine.execSkAssignPbr mail input s
  | .skDeclareDead mail input => Sys2Proof.Machine.execSkDeclareDead mail input s
  | .skClearOrphans mail input => Sys2Proof.Machine.execSkClearOrphans mail input s
  | .skJobTeardown mail input => Sys2Proof.Machine.execSkJobTeardown mail input s
  | .skSetWallclock mail input => Sys2Proof.Machine.execSkSetWallclock mail input s
  | .skPartReset mail input => Sys2Proof.Machine.execSkPartReset mail input s
  | .skGetErr mail input => Sys2Proof.Machine.execSkGetErr mail input s
  | .backgroundOpEnd => Sys2Proof.Machine.execBackgroundOpEnd s
  | .ideKeyManagement n root => Sys2Proof.Machine.execIdeKeyManagement n root s
  | .ideKeyRefresh n => Sys2Proof.Machine.execIdeKeyRefresh n s
  | .ideIntegrityFailure n => Sys2Proof.Machine.execIdeIntegrityFailure n s
  | .viralReceived n => Sys2Proof.Machine.execViralReceived n s
  | .spdmMeasurements nonce => Sys2Proof.Machine.execSpdmMeasurements nonce s
  | .pilotLinkTraining width rate cxl => Sys2Proof.Machine.execPilotLinkTraining width rate cxl s
  | .pilotFlr => Sys2Proof.Machine.execPilotFlr s
  | .pilotD3hot enter => Sys2Proof.Machine.execPilotD3hot enter s
  | .dataFrame n words errors bad => Sys2Proof.Machine.execDataFrame n words errors bad s
  | .trainingFrame n width lock version badLane => Sys2Proof.Machine.execTrainingFrame n width lock version badLane s
  | .trainingStateEnd n lock => Sys2Proof.Machine.execTrainingStateEnd n lock s
  | .trainingTimeout n => Sys2Proof.Machine.execTrainingTimeout n s
  | .trainingRestart n => Sys2Proof.Machine.execTrainingRestart n s
  | .lossOfLight n => Sys2Proof.Machine.execLossOfLight n s
  | .uncorrLimit w => Sys2Proof.Machine.execUncorrLimit w s
  | .laserLow f v => Sys2Proof.Machine.execLaserLow f v s
  | .laserRestored f v => Sys2Proof.Machine.execLaserRestored f v s
  | .retrain n pstate => Sys2Proof.Machine.execRetrain n pstate s
  | .pstateReq n pstate => Sys2Proof.Machine.execPstateReq n pstate s
  | .darkReceived n => Sys2Proof.Machine.execDarkReceived n s
  | .p1Entry n => Sys2Proof.Machine.execP1Entry n s
  | .p1Exit n => Sys2Proof.Machine.execP1Exit n s
  | .portLost n => Sys2Proof.Machine.execPortLost n s
  | .oeLeavesService j fault => Sys2Proof.Machine.execOeLeavesService j fault s
  | .presenceChange n arrive cap fit => Sys2Proof.Machine.execPresenceChange n arrive cap fit s
  | .vinRise vin => Sys2Proof.Machine.execVinRise vin s
  | .debounceEnd => Sys2Proof.Machine.execDebounceEnd s
  | .railGood r mv cur pw => Sys2Proof.Machine.execRailGood r mv cur pw s
  | .railFault r => Sys2Proof.Machine.execRailFault r s
  | .earlySupplyFault => Sys2Proof.Machine.execEarlySupplyFault s
  | .vinOutOfRange vin => Sys2Proof.Machine.execVinOutOfRange vin s
  | .ilimit => Sys2Proof.Machine.execIlimit s
  | .ilimitTimeout => Sys2Proof.Machine.execIlimitTimeout s
  | .sysRstN => Sys2Proof.Machine.execSysRstN s
  | .powerCapWindow avg vin iin pin => Sys2Proof.Machine.execPowerCapWindow avg vin iin pin s
  | .sagDetect x droop => Sys2Proof.Machine.execSagDetect x droop s
  | .sagRecover x => Sys2Proof.Machine.execSagRecover x s
  | .thermalReading sensor v => Sys2Proof.Machine.execThermalReading sensor v s
  | .thermRecover x => Sys2Proof.Machine.execThermRecover x s
  | .snap => Sys2Proof.Machine.execSnap s
  | .boot puf rpr write => Sys2Proof.Machine.execBoot puf rpr write s
  | .hbmTrainingEnd found => Sys2Proof.Machine.execHbmTrainingEnd found s
  | .submit => Sys2Proof.Machine.execSubmit s
  | .keyDeliveryDone => Sys2Proof.Machine.execKeyDeliveryDone s
  | .drainBound k => Sys2Proof.Machine.execDrainBound k s
  | .scrubComplete k => Sys2Proof.Machine.execScrubComplete k s
  | .errHead p h => Sys2Proof.Machine.execErrHead p h s
  | .fenced p => Sys2Proof.Machine.execFenced p s
  | .errCtxAbort ref => Sys2Proof.Machine.execErrCtxAbort ref s
  | .errPartReset bits => Sys2Proof.Machine.execErrPartReset bits s
  | .errDevReset key => Sys2Proof.Machine.execErrDevReset key s
  | .partitionReset p => Sys2Proof.Machine.execPartitionReset p s
  | .deviceReset puf rpr write => Sys2Proof.Machine.execDeviceReset puf rpr write s
  | .pair t partner => Sys2Proof.Machine.execPair t partner s
  | .expel t partner => Sys2Proof.Machine.execExpel t partner s
  | .rebuildCopyDone k => Sys2Proof.Machine.execRebuildCopyDone k s
  | .checkWindow reads => Sys2Proof.Machine.execCheckWindow reads s
  | .lossLogWrite p => Sys2Proof.Machine.execLossLogWrite p s
  | .shadowJoin p n0 key => Sys2Proof.Machine.execShadowJoin p n0 key s
  | .shadowForward p ix => Sys2Proof.Machine.execShadowForward p ix s
  | .shadowDigest p n d v => Sys2Proof.Machine.execShadowDigest p n d v s
  | .shadowPromote p m => Sys2Proof.Machine.execShadowPromote p m s
  | .shadowFail p cause => Sys2Proof.Machine.execShadowFail p cause s
  | .status req => Sys2Proof.Machine.execStatus req s
  | .flashInfo req => Sys2Proof.Machine.execFlashInfo req s
  | .flashWrite req => Sys2Proof.Machine.execFlashWrite req s
  | .flashCommit req => Sys2Proof.Machine.execFlashCommit req s
  | .flashErase req => Sys2Proof.Machine.execFlashErase req s
  | .flashSlotTimeout k => Sys2Proof.Machine.execFlashSlotTimeout k s
  | .telemRead req => Sys2Proof.Machine.execTelemRead req s
  | .discRead req => Sys2Proof.Machine.execDiscRead req s
  | .i3cEntdaa addr => Sys2Proof.Machine.execI3cEntdaa addr s
  | .setEndpointId eid => Sys2Proof.Machine.execSetEndpointId eid s
  | .getEndpointId => Sys2Proof.Machine.execGetEndpointId s
  | .getMctpVersionSupport => Sys2Proof.Machine.execGetMctpVersionSupport s
  | .getMessageTypeSupport => Sys2Proof.Machine.execGetMessageTypeSupport s
  | .getVendorDefinedMessageSupport => Sys2Proof.Machine.execGetVendorDefinedMessageSupport s
  | .viewWrite p v => Sys2Proof.Machine.execViewWrite p v s
  | .tapReset => Sys2Proof.Machine.execTapReset s
  | .bypass => Sys2Proof.Machine.execBypass s
  | .idcode => Sys2Proof.Machine.execIdcode s
  | .samplePreload => Sys2Proof.Machine.execSamplePreload s
  | .extest => Sys2Proof.Machine.execExtest s
  | .clamp => Sys2Proof.Machine.execClamp s
  | .highz => Sys2Proof.Machine.execHighz s
  | .skRailmon => Sys2Proof.Machine.execSkRailmon s
  | .skScan => Sys2Proof.Machine.execSkScan s
  | .skMembist => Sys2Proof.Machine.execSkMembist s
  | .perstN => Sys2Proof.Machine.execPerstN s
  | .pilotFunctionReady => Sys2Proof.Machine.execPilotFunctionReady s
  | .derated vin => Sys2Proof.Machine.execDerated vin s
  | .ilimitRelease => Sys2Proof.Machine.execIlimitRelease s
  | .snapLatchDone => Sys2Proof.Machine.execSnapLatchDone s
  | .spillReturnFilled n out f => Sys2Proof.Machine.execSpillReturnFilled n out f s
  | .tenantPowerWindow avg => Sys2Proof.Machine.execTenantPowerWindow avg s

end Sys2Proof.Machine
end

