-- ==== Sys2Proof/WellFormed.lean ====
section
/-!
DEFINITION. When a command is well formed: each operand that numbers a part of the device is in the range the spec gives
that part. An operand not checked may have any value.
-/
namespace Sys2Proof

/-! ### One check for each kind of operand -/

/-- A context slot: 64 Moons of 8 (R16). -/
def slotOk (n : Nat) : Bool := decide (n < 512)

/-- A hardware partition (R32). -/
def partOk (n : Nat) : Bool := decide (n < 16)

/-- An error queue: that of a partition, or 16 for the device queue (R482). -/
def queueOk (n : Nat) : Bool := decide (n ≤ 16)

/-- A context number (R354). -/
def ctxOk (n : Nat) : Bool := decide (n < 4096)

/-- A Moon (R16). -/
def moonOk (n : Nat) : Bool := decide (n < 64)

/-- A queue pair (R345). -/
def qpOk (n : Nat) : Bool := decide (n < 8192)

/-- An optical port (R377). -/
def portOk (n : Nat) : Bool := decide (n < 256)

/-- An optical port, or 256 for the pilot link. -/
def linkOk (n : Nat) : Bool := decide (n ≤ 256)

/-- An output of the crossbar: 256 ports, 16 homes and points inside the device (R301). -/
def outputOk (n : Nat) : Bool := decide (n < 272)

/-- A traffic class (R302). -/
def classOk (n : Nat) : Bool := decide (n < 8)

/-- A PBR ID of 12 bits (R379). -/
def pbrOk (n : Nat) : Bool := decide (n < 4096)

/-- An address of 52 bits (R377). -/
def hpaOk (n : Nat) : Bool := decide (n < 2 ^ 52)

/-- A CXL.mem tag of 16 bits. -/
def tagOk (n : Nat) : Bool := decide (n < 2 ^ 16)

/-- A CXL.io tag. -/
def ioTagOk (n : Nat) : Bool := decide (n < 2 ^ 14)

/-- An object handle of 32 bits (R237). -/
def handleOk (n : Nat) : Bool := decide (n < 2 ^ 32)

/-- An object reference of 64 bits (R237). -/
def refOk64 (n : Nat) : Bool := decide (n < 2 ^ 64)

/-- A number of 32 bits. -/
def word32Ok (n : Nat) : Bool := decide (n < 2 ^ 32)

/-- A number of 8 bits. -/
def byteOk (n : Nat) : Bool := decide (n < 2 ^ 8)

/-- An offset of BAR0, 64 MiB (R4). -/
def barOk (n : Nat) : Bool := decide (n < 2 ^ 26)

/-- The offset of an aligned 64-bit word of BAR0 (R5). -/
def barWordOk (n : Nat) : Bool := decide (n < 2 ^ 26 ∧ n % 8 = 0)

/-- An exact accumulator (R101). -/
def xaccNoOk (n : Nat) : Bool := decide (n < 64)

/-- 64 byte enables. -/
def enablesOk (n : Nat) : Bool := decide (n < 2 ^ 64)

/-- The response an opcode expects: none, data, or a completion (R382). -/
def respOk (n : Nat) : Bool := decide (n ≤ 2)

/-- A bound width of a training frame (R415). -/
def widthOk (n : Nat) : Bool := decide (n < 4)

/-- A mask of the 16 lanes of a port. -/
def lanesMaskOk (n : Nat) : Bool := decide (n < 2 ^ 16)

/-- A laser fibre: two of each of 32 engines (R424). -/
def fibreOk (n : Nat) : Bool := decide (n < 64)

/-- An optical engine (R404). -/
def engineOk (n : Nat) : Bool := decide (n < 32)

/-- A fault that takes an engine out of service (R425). -/
def engineFaultOk (n : Nat) : Bool := decide (n = 2 ∨ n = 3)

/-- A supply rail (R436). -/
def railOk (n : Nat) : Bool := decide (n < 49)

/-- A domain that is stretched: four quadrants and the hub (R441). -/
def supplyOk (n : Nat) : Bool := decide (n < 5)

/-- A temperature sensor (R445). -/
def sensorOk (n : Nat) : Bool := decide (n < 46)

/-- A key slot (R464). -/
def keySlotOk (n : Nat) : Bool := decide (n < 2048)

/-- A tray (R505). -/
def trayOk (n : Nat) : Bool := decide (n < 24)

/-- A pair of trays (R505). -/
def pairOk (n : Nat) : Bool := decide (n < 12)

/-- An orbit number of 40 bits (R33). -/
def orbitOk (n : Nat) : Bool := decide (n < 2 ^ 40)

/-- The cause of a failed shadowing (R527). -/
def causeOk (n : Nat) : Bool := decide (1 ≤ n ∧ n ≤ 7)

/-- A slot of the boot flash (R536). -/
def flashSlotOk (n : Nat) : Bool := decide (n < 4)

/-- An I3C address of 7 bits (R532). -/
def i3cOk (n : Nat) : Bool := decide (n < 2 ^ 7)

/-- A tenant view (R547). -/
def viewOk (n : Nat) : Bool := decide (n < 16)

/-- The 64 bytes of a line or a message header. -/
def lineOk (l : List Byte) : Bool := decide (l.length = 64)

/-- The payload of a message (R145). -/
def payloadOk (l : List Byte) : Bool := decide (l.length ≤ 4096)

/-- The nonce of a measurement request (R463). -/
def nonceOk (l : List Byte) : Bool := decide (l.length = 32)

/-- An event interrupt policy, which fits one message (R396). -/
def policyOk (l : List Byte) : Bool := decide (l.length ≤ 4096)

/-- Counts of at most 16 lanes. -/
def lanesOk (l : List Nat) : Bool := decide (l.length ≤ 16)

/-- The codewords of a frame: one on each lane of a port, each with a payload of 640 bytes (R408, R409). -/
def framesOk (l : List Codeword) : Bool := decide (l.length ≤ 16) && l.all (fun c => decide (c.payload.length = 640))

/-- Stack numbers (R555). -/
def stacksOk (l : List Nat) : Bool := decide (∀ n ∈ l, n < 8)

/-- Lines read back: of tray numbers, 64 bytes each (R513). -/
def readBacksOk (l : List (Nat × Nat × Nat × List Byte)) : Bool := decide (∀ r ∈ l, r.1 < 24 ∧ r.2.2.2.length = 64)

/-- Whether the operands of a command are in the ranges the spec gives them. -/
def Instr.wellFormed (i : Instr) : Bool :=
  match i with
  | .bar0UnalignedAccess off _ => barOk off
  | .registerWrite off _ => barWordOk off
  | .orbRaise _ => true
  | .orbitBoundary p => partOk p
  | .overdue p => partOk p
  | .contextParkCopyDone c _ => ctxOk c
  | .contextResumeCopyDone c _ => ctxOk c
  | .moonLeavesService m => moonOk m
  | .xaccNormalise slot a => slotOk slot && xaccNoOk a
  | .nop slot _ => slotOk slot
  | .sadd slot _ => slotOk slot
  | .saddi slot _ => slotOk slot
  | .ssub slot _ => slotOk slot
  | .smul slot _ => slotOk slot
  | .sand slot _ => slotOk slot
  | .sor slot _ => slotOk slot
  | .sxor slot _ => slotOk slot
  | .sshf slot _ => slotOk slot
  | .smovi slot _ => slotOk slot
  | .scmp slot _ => slotOk slot
  | .br slot _ => slotOk slot
  | .halt slot _ => slotOk slot
  | .sdset slot _ => slotOk slot
  | .sdget slot _ => slotOk slot
  | .vadd slot _ => slotOk slot
  | .vsub slot _ => slotOk slot
  | .vmul slot _ => slotOk slot
  | .vfma slot _ => slotOk slot
  | .vmin slot _ => slotOk slot
  | .vmax slot _ => slotOk slot
  | .vabs slot _ => slotOk slot
  | .vneg slot _ => slotOk slot
  | .vand slot _ => slotOk slot
  | .vor slot _ => slotOk slot
  | .vxor slot _ => slotOk slot
  | .vsel slot _ => slotOk slot
  | .vbcst slot _ => slotOk slot
  | .vext slot _ => slotOk slot
  | .vins slot _ => slotOk slot
  | .vmov slot _ => slotOk slot
  | .vcmp slot _ => slotOk slot
  | .plog slot _ => slotOk slot
  | .pcnt slot _ => slotOk slot
  | .pfst slot _ => slotOk slot
  | .pset slot _ => slotOk slot
  | .vcvt slot _ => slotOk slot
  | .mma slot _ => slotOk slot
  | .ltb slot _ => slotOk slot
  | .ltld slot _ => slotOk slot
  | .lac slot _ => slotOk slot
  | .lexpw slot _ => slotOk slot
  | .lbin slot _ => slotOk slot
  | .xclr slot _ => slotOk slot
  | .xadd slot _ => slotOk slot
  | .xaddl slot _ => slotOk slot
  | .xdot slot _ => slotOk slot
  | .xrd slot _ => slotOk slot
  | .xexp slot _ => slotOk slot
  | .ximp slot _ => slotOk slot
  | .xmrg slot _ => slotOk slot
  | .vexp2 slot _ => slotOk slot
  | .vrcp slot _ => slotOk slot
  | .vrmax slot _ => slotOk slot
  | .vrsum slot _ => slotOk slot
  | .ld slot _ => slotOk slot
  | .st slot _ => slotOk slot
  | .cld slot _ => slotOk slot
  | .cst slot _ => slotOk slot
  | .expd slot _ => slotOk slot
  | .amo slot _ => slotOk slot
  | .pub slot _ => slotOk slot
  | .kvenc slot _ => slotOk slot
  | .wait slot _ => slotOk slot
  | .acset slot _ => slotOk slot
  | .acrd slot _ => slotOk slot
  | .fence slot _ => slotOk slot
  | .orbit slot _ => slotOk slot
  | .orq slot _ => slotOk slot
  | .msgs slot _ => slotOk slot
  | .msgr slot _ => slotOk slot
  | .tbegin slot _ => slotOk slot
  | .tclm slot _ => slotOk slot
  | .tcmt slot _ => slotOk slot
  | .tld slot _ => slotOk slot
  | .wkinit slot _ => slotOk slot
  | .cqpush slot _ => slotOk slot
  | .cqpop slot _ => slotOk slot
  | .visit slot _ => slotOk slot
  | .bmtst slot _ => slotOk slot
  | .tkins slot _ => slotOk slot
  | .tkrd slot _ => slotOk slot
  | .memoryAnswer slot _ => slotOk slot
  | .cometArrival c _ _ _ => ctxOk c
  | .requestLate _ => true
  | .requestFailTimeout _ => true
  | .granuleFillDone h _ => handleOk h
  | .fillRoomRetry p => partOk p
  | .moveCopyDone h => handleOk h
  | .oldLayoutFree h => handleOk h
  | .imbalWindowEnd => true
  | .scrubPatrol _ _ => true
  | .nmeOperationEnd _ _ => true
  | .completionWrite q _ => qpOk q
  | .pilotDoorbell q _ => qpOk q
  | .run q => qpOk q
  | .ctxOpen q => qpOk q
  | .ctxClose q => qpOk q
  | .register q => qpOk q
  | .validate q => qpOk q
  | .release q => qpOk q
  | .reclass q => qpOk q
  | .steep q => qpOk q
  | .query q => qpOk q
  | .fill q => qpOk q
  | .copy q => qpOk q
  | .compare q => qpOk q
  | .reduce q => qpOk q
  | .publish q => qpOk q
  | .mapStage q => qpOk q
  | .ownClaim q => qpOk q
  | .ownOffer q => qpOk q
  | .ownAccept q => qpOk q
  | .ownDrop q => qpOk q
  | .offerLapse ref => refOk64 ref
  | .contextAbort c => ctxOk c
  | .jobTeardown p job => partOk p && word32Ok job
  | .acceleratorCrash n => portOk n
  | .memrd port spid dpid tag addr _ => portOk port && pbrOk spid && pbrOk dpid && tagOk tag && hpaOk addr
  | .memrddata port spid dpid tag addr _ => portOk port && pbrOk spid && pbrOk dpid && tagOk tag && hpaOk addr
  | .meminv port spid dpid tag addr => portOk port && pbrOk spid && pbrOk dpid && tagOk tag && hpaOk addr
  | .meminvnt port spid dpid tag addr => portOk port && pbrOk spid && pbrOk dpid && tagOk tag && hpaOk addr
  | .memspecrd port => portOk port
  | .memwr port spid dpid tag addr data => portOk port && pbrOk spid && pbrOk dpid && tagOk tag && hpaOk addr && lineOk data
  | .memwrptl port spid dpid tag addr data enables => portOk port && pbrOk spid && pbrOk dpid && tagOk tag && hpaOk addr && lineOk data && enablesOk enables
  | .birspi port h _ => portOk port && handleOk h
  | .birsps port h _ => portOk port && handleOk h
  | .m2sOtherOpcode port tag resp => portOk port && tagOk tag && respOk resp
  | .biTimeout port h _ => portOk port && handleOk h
  | .combinerLineEnter h _ => handleOk h
  | .combinerApply h _ => handleOk h
  | .combinerLineLeave h _ => handleOk h
  | .trayOriginatedRequest port => portOk port
  | .s2mDrs port _ data _ => portOk port && (data.line.map (fun b => decide (b.length = 64))).getD true
  | .s2mNdr port _ _ => portOk port
  | .trayIoRequest port _ => portOk port
  | .trayBisnp port => portOk port
  | .deviceMessageRun port cls dpid p ctx header payload => portOk port && classOk cls && pbrOk dpid && partOk p && word32Ok ctx && lineOk header && payloadOk payload
  | .fabricIoTlp port tag _ _ => portOk port && ioTagOk tag
  | .crossbarGrant g => outputOk g.out
  | .spillReturn n out cls => portOk n && outputOk out && classOk cls
  | .tagAdmit n => portOk n
  | .xbarTagBudget n _ => portOk n
  | .identify _ => true
  | .backgroundOperationStatus _ => true
  | .getResponseMessageLimit _ => true
  | .setResponseMessageLimit _ _ => true
  | .getEventRecords _ => true
  | .clearEventRecords _ _ => true
  | .getEventInterruptPolicy _ => true
  | .setEventInterruptPolicy _ policy => policyOk policy
  | .getPhysicalPortState _ _ => true
  | .gfdComponentCommands _ => true
  | .getDcRegionConfiguration _ => true
  | .getDcRegionExtentLists _ pbr => pbrOk pbr
  | .fmUnsupportedCommand _ => true
  | .skGetId _ _ => true
  | .skAssignPbr _ _ => true
  | .skDeclareDead _ _ => true
  | .skClearOrphans _ _ => true
  | .skJobTeardown _ _ => true
  | .skSetWallclock _ _ => true
  | .skPartReset _ _ => true
  | .skGetErr _ _ => true
  | .backgroundOpEnd => true
  | .ideKeyManagement n _ => linkOk n
  | .ideKeyRefresh n => portOk n
  | .ideIntegrityFailure n => linkOk n
  | .viralReceived n => linkOk n
  | .spdmMeasurements nonce => nonceOk nonce
  | .pilotLinkTraining _ _ _ => true
  | .pilotFlr => true
  | .pilotD3hot _ => true
  | .dataFrame n words errors _ => portOk n && lanesOk errors && framesOk words
  | .trainingFrame n width lock version _ => portOk n && widthOk width && lanesMaskOk lock && byteOk version
  | .trainingStateEnd n lock => portOk n && lanesMaskOk lock
  | .trainingTimeout n => portOk n
  | .trainingRestart n => portOk n
  | .lossOfLight n => portOk n
  | .uncorrLimit w => portOk w.port
  | .laserLow f _ => fibreOk f
  | .laserRestored f _ => fibreOk f
  | .retrain n _ => portOk n
  | .pstateReq n _ => portOk n
  | .darkReceived n => portOk n
  | .p1Entry n => portOk n
  | .p1Exit n => portOk n
  | .portLost n => portOk n
  | .oeLeavesService j fault => engineOk j && engineFaultOk fault
  | .presenceChange n _ _ _ => portOk n
  | .vinRise _ => true
  | .debounceEnd => true
  | .railGood r _ _ _ => railOk r
  | .railFault r => railOk r
  | .earlySupplyFault => true
  | .vinOutOfRange _ => true
  | .ilimit => true
  | .ilimitTimeout => true
  | .sysRstN => true
  | .powerCapWindow _ _ _ _ => true
  | .sagDetect x _ => supplyOk x
  | .sagRecover x => supplyOk x
  | .thermalReading i v => sensorOk i && byteOk v
  | .thermRecover x => supplyOk x
  | .snap => true
  | .boot _ _ _ => true
  | .hbmTrainingEnd found => stacksOk found.untrained
  | .submit => true
  | .keyDeliveryDone => true
  | .drainBound k => keySlotOk k
  | .scrubComplete k => keySlotOk k
  | .errHead p _ => queueOk p
  | .fenced p => partOk p
  | .errCtxAbort _ => true
  | .errPartReset _ => true
  | .errDevReset _ => true
  | .partitionReset p => partOk p
  | .deviceReset _ _ _ => true
  | .pair t _ => trayOk t
  | .expel t _ => trayOk t
  | .rebuildCopyDone k => pairOk k
  | .checkWindow reads => readBacksOk reads
  | .lossLogWrite p => partOk p
  | .shadowJoin p n0 _ => partOk p && orbitOk n0
  | .shadowForward p _ => partOk p
  | .shadowDigest p n _ _ => partOk p && orbitOk n
  | .shadowPromote p m => partOk p && orbitOk m
  | .shadowFail p cause => partOk p && causeOk cause
  | .status _ => true
  | .flashInfo _ => true
  | .flashWrite _ => true
  | .flashCommit _ => true
  | .flashErase _ => true
  | .flashSlotTimeout k => flashSlotOk k
  | .telemRead _ => true
  | .discRead _ => true
  | .i3cEntdaa addr => i3cOk addr
  | .setEndpointId _ => true
  | .getEndpointId => true
  | .getMctpVersionSupport => true
  | .getMessageTypeSupport => true
  | .getVendorDefinedMessageSupport => true
  | .viewWrite p v => partOk p && viewOk v
  | .tapReset => true
  | .bypass => true
  | .idcode => true
  | .samplePreload => true
  | .extest => true
  | .clamp => true
  | .highz => true
  | .skRailmon => true
  | .skScan => true
  | .skMembist => true
  | .perstN => true
  | .pilotFunctionReady => true
  | .derated _ => true
  | .ilimitRelease => true
  | .snapLatchDone => true
  | .spillReturnFilled n out f => portOk n && outputOk out && classOk f.cls
  | .tenantPowerWindow _ => true

end Sys2Proof
end

