-- ==== Sys2Proof/Safety.lean ====
section
/-!
DEFINITION. The words the claims about the device use: what a safe run is, when the strand of a slot can issue, what an
instruction leaves behind when it is done, when software may reach a register, and what is never undone.
-/
namespace Sys2Proof

/-- The word of an instruction that is gated by a predicate, every other field zero (R89, R97). -/
def MWord.gate (pn : Bool) (pr : BitVec 3) : MWord := ⟨0, 0, pn, pr, 0, 0, 0, 0, 0, 0, 0⟩

end Sys2Proof

namespace Sys2Proof.Machine

/-! ### Runs -/

/-- A command is safe in a state: it answers a next state, neither a fault nor a refusal. -/
def Safe (i : Instr) (s : State) : Prop := ∃ t, exec i s = .next t

/-- The state after a command, which is the state itself where the command is not safe. -/
def after (i : Instr) (s : State) : State :=
  match exec i s with
  | .next t => t
  | .fault _ => s
  | .refused _ => s

/-! ### A strand -/

/-- The strand of a slot can issue: context `c`, with content `x`, is resident there, runs, waits on nothing and is not held
(R16, R43, R55), its PC is aligned and inside its program (R105), and it holds the line its PC lies in (R132). -/
def CanIssue (s : State) (slot c : Nat) (x : Ctx) : Prop :=
  s.issuer slot = some (c, x) ∧ s.fetchOk x = true ∧ x.holdsCode = true

/-- The strand of a slot issues the instruction `opc` with fields `w` now: that is the word at its PC (R89), and its issue
slot is not yet taken in this ARITH cycle (R55). -/
def Runs (s : State) (slot c : Nat) (x : Ctx) (opc : Nat) (w : MWord) : Prop :=
  CanIssue s slot c x ∧ s.wordAtPc x = (opc, w) ∧ s.slotTaken slot (IssueSlot.of opc) = false

/-- The command of an instruction answers `t` in every state in which the strand of a slot issues it now. -/
def Does (s : State) (slot c : Nat) (x : Ctx) (opc : Nat) (i : Nat → MWord → Instr) (w : MWord) (t : State) : Prop :=
  Runs s slot c x opc w → exec (i slot w) s = .next t

/-- An instruction is done: its context is `y` but for the PC, which has advanced by 16, and its unit has issued. -/
def State.retire (s : State) (slot c : Nat) (y : Ctx) (u : IssueSlot) : State := (s.setCtx c y.advance).noteIssue slot u

/-- An instruction raises an exception of context `c` (R106, R107). -/
def State.except (s : State) (slot c : Nat) (x : Ctx) (e : Exc) (u : IssueSlot) : State := s.raiseAt slot c x e u

/-- No comet of a context uses scratch, no fence holds a memory instruction back, the Moon of the slot has a stream engine free,
and the queues of its quadrant have room (R130, R133, R138, R139, R306). -/
def MemoryReady (s : State) (slot : Nat) (x : Ctx) : Prop :=
  x.comets = [] ∧ s.engineFree slot = true ∧ s.quadFull (slot / 128) = false

/-! ### Registers -/

/-- The pilot host may write a register: BAR0 is open, the register's partition is valid, and the host holds the privilege
its map asks for (R405, R457, R556, R562, R564). -/
def State.mayWrite (s : State) (r : RegName) (ix : List Nat) : Prop :=
  s.bar0Open = true ∧ (r.desc.owner = .first → s.partValid (ix.headD 0) = true) ∧
  s.holdsPriv r.desc.wpriv (s.regPart r ix) = true

/-- The manager may command the device over MCTP (R398, R541). -/
def State.mctpServes (s : State) : Prop := s.mctpUp = true ∧ s.pwr.phase ≠ .halted

/-- Some indices lie within the dimensions of a register (R562, R563). -/
def indexOk : List (Nat × Nat) → List Nat → Bool
  | [], [] => true
  | (_, n) :: r, i :: q => decide (i < n) && indexOk r q
  | _, _ => false

/-! ### Queue pairs -/

/-- The turn of a descriptor has come: a registry command (OP 0x08 to 0x0D) starts once those of its partition that started
before it have been performed (R240). -/
def State.turn (s : State) (q op : Nat) : Prop := 8 ≤ op → op ≤ 13 → s.registryBusy (s.qpPart q) = false

/-- The oldest descriptor of a queue pair, `d`, can start: its turn has come, it is an `op` whose unused bytes are zero, the
queue pair has the privilege that `op` needs, and it names no route-map generation other than the one in force (R240, R347,
R351, R352). `u` is the state once it is taken. -/
def State.starts (s : State) (q op : Nat) (priv : Option Nat) (used : List (Nat × Nat)) (d : List Byte) (u : State) : Prop :=
  s.takeDesc q = some (d, u) ∧ field d 0 1 = op ∧ s.turn q op ∧ descClean d used = true ∧
  (∀ b, priv = some b → bitAt b (s.fget Reg.CTX_QP_A_PRIV [q]) = true) ∧
  (field d 4 4 = 0 ∨ field d 4 4 = (s.part (s.qpPart q)).routeCur.gen)

/-- A descriptor of a queue pair ends, with a status and two results. -/
def State.ends (s : State) (q : Nat) (d : List Byte) (st r0 r1 : Nat) : State := s.setService q d (.done st r0 r1)

/-! ### Fabric ports -/

/-- A flit of a port is taken: the port is in ACTIVE, its link is secure, and it has the PBR IDs its role needs (R379, R391,
R542). -/
def State.takesFlit (s : State) (n : Nat) : Prop :=
  s.active n = true ∧ s.secure n = true ∧ s.addressed n = true

/-- A request of the accelerator at a port passes every check of R273, R275 and R380: partition `p`'s window and the aperture entry
`x` of its route map cover the address with the rights the request needs, and the object `o` at line `l` admits it. -/
def State.admits (s : State) (m : M2S) (wr : Bool) (p : Nat) (x : List Byte) (o : Obj) (l : Nat) : Prop :=
  s.takesFlit m.port ∧ s.crashed.contains m.port = false ∧ s.viral.contains m.port = false ∧
  s.poolRoom m.port (if wr then .m2sRwD else .m2sReq) 1 = true ∧
  s.role m.port = 1 ∧ s.ownPbr = some m.dpid ∧ s.pbrOfPort m.port = some m.spid ∧
  (∃ w, s.findWindow m.spid m.addr = some w ∧ s.fget Reg.PART_WIN_A_PART [w] = p ∧
    s.fget (if wr then Reg.PART_WIN_A_WR else Reg.PART_WIN_A_RD) [w] = 1 ∧
    (reCoh x = true → s.fget Reg.PART_WIN_A_COH [w] = 1)) ∧
  (s.part p).resetDue = none ∧ s.entryAt p m.addr = some x ∧ reKind x = 1 ∧ (wr = true → reReadOnly x = false) ∧
  s.objOfRef (reRef x) = some o ∧ handlePart (refHandle (reRef x)) = p ∧ (if wr then o.wr else o.rd) = true ∧
  l = (reOffp x * 4096 + (m.addr - reAddr x) / 64 * 64) / 64 ∧ reOffp x * 4096 + (m.addr - reAddr x) / 64 * 64 + 64 ≤ o.size ∧
  s.keyRetired o = false

/-! ### What is never undone -/

/-- The replay-protected region of `n` stands no lower than that of `m`: neither rollback floor is lower, the first-use flag
is set where it was, an owner stays an owner, and the highest generation reserved for each key slot is no lower (R459, R460,
R464). -/
def Nv.notBelow (m n : Nv) : Prop :=
  m.fwFloor ≤ n.fwFloor ∧ m.manFloor ≤ n.manFloor ∧ (m.tofu = true → n.tofu = true) ∧
  (m.owner.isSome = true → n.owner.isSome = true) ∧ ∀ k, kvGet 0 m.gens k ≤ kvGet 0 n.gens k

end Sys2Proof.Machine
end

