-- ==== Sys2Proof/Certificates/Slice0/Obligations.lean ====
section
/-!
DEFINITION. The statements about the device, for the provers. Each is a claim of the spec's numbered rules about the commands
it names; a statement that an instruction completes gives the whole next state, so that what it does not name is unchanged.
-/
open Sys2Proof Sys2Proof.Machine

/-- R94, R97, R110: the scalar instructions. A strand that can issue and whose instruction the predicate enables is done with the
result of the table in s[DST]; the PC advances by 16 and nothing else changes but the issue record of its Moon. SSHF shifts left,
logically right or arithmetically right as MOD[1:0] selects, by s[SB] mod 64, or by IMM[5:0] where MOD[3] is 1. SCMP sets all bits
of p[AUX] to the condition its MOD selects, signed for codes 2 to 5 and unsigned for 10 to 13; AUX of 0 names p0, whose write is
discarded. -/
def Obligations.ScalarInstructions : Prop :=
  ∀ (s : State) (slot c : Nat) (x : Ctx) (pn : Bool) (pr q : BitVec 3) (d a b : BitVec 5) (imm k : BitVec 64),
    x.enabled (MWord.gate pn pr) 0 = true →
    let g := MWord.gate pn pr
    let w : MWord := { g with dst := d, sa := a, sb := b }
    let u := x.getS a
    let v := x.getS b
    let n := v.toNat % 64
    let done := fun (r : Word) => (s.retire slot c (x.setS d r) .memory)
    (Does s slot c x 0x00 .nop g (s.retire slot c x .memory) ∧
      Does s slot c x 0x01 .sadd w (done (u + v)) ∧
      Does s slot c x 0x02 .saddi { g with dst := d, sa := a, imm := imm } (done (u + imm)) ∧
      Does s slot c x 0x03 .ssub w (done (u - v)) ∧
      Does s slot c x 0x04 .smul w (done (u * v)) ∧
      Does s slot c x 0x05 .sand w (done (u &&& v)) ∧
      Does s slot c x 0x06 .sor w (done (u ||| v)) ∧
      Does s slot c x 0x07 .sxor w (done (u ^^^ v)) ∧
      Does s slot c x 0x09 .smovi { g with dst := d, imm := imm } (done imm)) ∧
    (Does s slot c x 0x08 .sshf { w with md := 0 } (done (u <<< n)) ∧
      Does s slot c x 0x08 .sshf { w with md := 1 } (done (u >>> n)) ∧
      Does s slot c x 0x08 .sshf { w with md := 2 } (done (u.sshiftRight n))) ∧
    (k.toNat < 64 →
      let i : MWord := { g with dst := d, sa := a, imm := k }
      Does s slot c x 0x08 .sshf { i with md := 8 } (done (u <<< k.toNat)) ∧
      Does s slot c x 0x08 .sshf { i with md := 9 } (done (u >>> k.toNat)) ∧
      Does s slot c x 0x08 .sshf { i with md := 10 } (done (u.sshiftRight k.toNat))) ∧
    (∀ e ∈ [((0 : BitVec 4), decide (u = v)), (1, decide (u ≠ v)), (2, decide (u.toInt < v.toInt)),
        (3, decide (u.toInt ≤ v.toInt)), (4, decide (v.toInt < u.toInt)), (5, decide (v.toInt ≤ u.toInt)),
        (10, decide (u.toNat < v.toNat)), (11, decide (u.toNat ≤ v.toNat)), (12, decide (v.toNat < u.toNat)),
        (13, decide (v.toNat ≤ u.toNat))],
      Does s slot c x 0x0A .scmp { g with sa := a, sb := b, md := e.1, aux := q.setWidth 8 }
        (s.retire slot c (x.setP q (if e.2 then BitVec.allOnes 256 else 0)) .memory)) ∧
    x.setP 0 (BitVec.allOnes 256) = x

/-- R110, R111, R353: a branch goes to PC + 16 × IMM[31:0], signed; HALT ends the run of a context with no comet out, and the RUN
descriptor of its queue pair learns of it with s1 and s2. R103, R110: SDSET writes a stream descriptor whose form R103 allows, and
raises ILLEGAL for any other; SDGET reads one of its four words. -/
def Obligations.ControlAndStreamDescriptors : Prop :=
  (∀ (s : State) (slot c : Nat) (x : Ctx) (pn : Bool) (pr : BitVec 3) (k : BitVec 64),
     x.enabled (MWord.gate pn pr) 0 = true →
     (k.toNat < 2 ^ 32 →
       Does s slot c x 0x0B .br { MWord.gate pn pr with imm := k }
         ((s.setCtx c { x with
           pc := (((x.pc : Int) + 16 * (k.setWidth 32).toInt) % 2 ^ 64).toNat
           issued := true
           wait := .none }).noteIssue slot .memory)) ∧
     (x.comets = [] →
       Does s slot c x 0x0C .halt (MWord.gate pn pr)
         ((((s.setCtx c { x with running := false, issued := true, wait := .none }).endRun c x.qp
           (some ((x.getSN 1).toNat, (x.getSN 2).toNat))).noteIssue slot .memory).finishCloses c))) ∧
  (∀ (s : State) (slot c : Nat) (x : Ctx) (pn : Bool) (pr : BitVec 3) (d a b e : BitVec 5) (i : BitVec 4) (w3 : Word),
     x.enabled (MWord.gate pn pr) 0 = true →
     let t : Desc := ⟨x.getS a, x.getS b, x.getS e, w3⟩
     let w : MWord := { MWord.gate pn pr with sa := a, sb := b, sc := e, aux := i.setWidth 8, imm := w3 }
     (t.formOk = true → Does s slot c x 0x0D .sdset w (s.retire slot c (x.setD i t) .memory)) ∧
     (t.formOk = false → Does s slot c x 0x0D .sdset w (s.except slot c x .illegal .memory)) ∧
     (∀ e ∈ [((0 : BitVec 64), (x.getD i).w0), (1, (x.getD i).w1), (2, (x.getD i).w2), (3, (x.getD i).w3)],
       Does s slot c x 0x0E .sdget { MWord.gate pn pr with dst := d, aux := i.setWidth 8, imm := e.1 }
         (s.retire slot c (x.setS d e.2) .memory)))

/-- R112, R113, R98: the element-wise arithmetic. Every enabled element of v[DST] takes the operation on the elements of v[SA],
v[SB] and v[SC] in the format of FMT, saturating where MOD[0] is 1 and the format is an integer; a disabled element keeps its
value. -/
def Obligations.VectorArithmetic : Prop :=
  ∀ (s : State) (slot c : Nat) (x : Ctx) (pn : Bool) (pr : BitVec 3) (d a b e : BitVec 5) (fm : BitVec 4) (f : Fmt) (sat : Bool),
    Fmt.ofCode fm.toNat = some f → fm.toNat ∈ [0, 1, 2, 5, 6] →
    (sat = true → f = .int32 ∨ f = .int8) →
    let g : MWord := { MWord.gate pn pr with fmt := fm, dst := d, sa := a }
    let m : BitVec 4 := if sat then 1 else 0
    let A := elemOf f (x.getV a)
    let B := elemOf f (x.getV b)
    let E := elemOf f (x.getV e)
    let done := fun (r : Nat → Nat) => (s.retire slot c (x.setV d
      (vecOf f (fun k => if x.enabled g k then r k else elemOf f (x.getV d) k))) .compute)
    Does s slot c x 0x10 .vadd { g with sb := b, md := m } (done (fun k => vop .add f sat (A k) (B k) 0)) ∧
    Does s slot c x 0x11 .vsub { g with sb := b, md := m } (done (fun k => vop .sub f sat (A k) (B k) 0)) ∧
    Does s slot c x 0x12 .vmul { g with sb := b, md := m } (done (fun k => vop .mul f sat (A k) (B k) 0)) ∧
    Does s slot c x 0x13 .vfma { g with sb := b, sc := e, md := m } (done (fun k => vop .fma f sat (A k) (B k) (E k))) ∧
    Does s slot c x 0x14 .vmin { g with sb := b } (done (fun k => vop .min f false (A k) (B k) 0)) ∧
    Does s slot c x 0x15 .vmax { g with sb := b } (done (fun k => vop .max f false (A k) (B k) 0)) ∧
    Does s slot c x 0x16 .vabs { g with md := m } (done (fun k => vop .abs f sat (A k) 0 0)) ∧
    Does s slot c x 0x17 .vneg { g with md := m } (done (fun k => vop .neg f sat (A k) 0 0))

/-- R112, R98: the bitwise instructions, selection, broadcast, extraction, insertion and the move, in any format. VEXT and VINS
name an element by IMM; an IMM at or above the element count is ILLEGAL. -/
def Obligations.VectorMoves : Prop :=
  ∀ (s : State) (slot c : Nat) (x : Ctx) (pn : Bool) (pr : BitVec 3) (d a b : BitVec 5) (fm : BitVec 4) (f : Fmt)
    (i : BitVec 64),
    Fmt.ofCode fm.toNat = some f →
    let g : MWord := { MWord.gate pn pr with fmt := fm, dst := d, sa := a }
    let A := elemOf f (x.getV a)
    let B := elemOf f (x.getV b)
    let D := elemOf f (x.getV d)
    let put := fun (r : Nat → Nat) => (s.retire slot c (x.setV d (vecOf f r)) .compute)
    let done := fun (r : Nat → Nat) => put (fun k => if x.enabled g k then r k else D k)
    Does s slot c x 0x18 .vand { g with sb := b } (done (fun k => A k &&& B k)) ∧
    Does s slot c x 0x19 .vor { g with sb := b } (done (fun k => A k ||| B k)) ∧
    Does s slot c x 0x1A .vxor { g with sb := b } (done (fun k => A k ^^^ B k)) ∧
    Does s slot c x 0x1B .vsel { g with sb := b } (put (fun k => if x.enabled g k then A k else B k)) ∧
    Does s slot c x 0x1C .vbcst g (done (fun _ => (x.getS a).toNat)) ∧
    Does s slot c x 0x1F .vmov g (done A) ∧
    (i.toNat < f.elems → x.enabled g 0 = true →
      Does s slot c x 0x1D .vext { g with imm := i }
        (s.retire slot c (x.setS d (f.extend (A i.toNat))) .compute) ∧
      Does s slot c x 0x1E .vins { g with imm := i } (put (fun k => if k = i.toNat then (x.getS a).toNat else D k))) ∧
    (f.elems ≤ i.toNat →
      Does s slot c x 0x1D .vext { g with imm := i } (s.except slot c x .illegal .compute) ∧
      Does s slot c x 0x1E .vins { g with imm := i } (s.except slot c x .illegal .compute))

/-- R92, R98: what an element-wise result holds. An element written reads back as its low bits, for every format and every
element of the register, and no other element changes with it. -/
def Obligations.ElementsReadBack : Prop :=
  ∀ (f : Fmt) (g : Nat → Nat) (k : Nat) (n : Nat) (p : Nat → Bool),
    (k < f.elems → elemOf f (vecOf f g) k = g k % 2 ^ f.width) ∧
    (n ≤ 256 → (predOf n p).getLsbD k = (decide (k < n) && p k))

/-- R94, R114: the predicates. p0 reads as all ones, and a write to it is discarded without fault. VCMP sets a bit for each enabled element below the element
count that meets the condition; PLOG combines two predicates; PSET sets the lowest IMM bits. -/
def Obligations.PredicateResults : Prop :=
  ∀ (s : State) (slot c : Nat) (x : Ctx) (pn : Bool) (pr q u v : BitVec 3) (d a b : BitVec 5) (fm : BitVec 4) (f : Fmt)
    (cc : BitVec 4) (n : BitVec 64),
    let g := MWord.gate pn pr
    let setP := fun (r : BitVec 256) => (s.retire slot c (x.setP q r) .compute)
    (Fmt.ofCode fm.toNat = some f → fm.toNat ∈ [0, 1, 2, 5, 6, 7] → cc.toNat ≤ 6 →
      Does s slot c x 0x20 .vcmp { g with fmt := fm, sa := a, sb := b, md := cc, aux := q.setWidth 8 }
        (setP (predOf f.elems (fun k =>
          x.enabled g k && vectorCond f cc.toNat (elemOf f (x.getV a) k) (elemOf f (x.getV b) k))))) ∧
    (∀ e ∈ [((0 : BitVec 4), x.getP u &&& x.getP v), (1, x.getP u ||| x.getP v), (2, x.getP u ^^^ x.getP v),
        (3, x.getP u &&& ~~~ (x.getP v))],
      Does s slot c x 0x21 .plog { MWord.gate false 0 with
        sa := u.setWidth 5
        sb := v.setWidth 5
        md := e.1
        aux := q.setWidth 8 } (setP e.2)) ∧
    Does s slot c x 0x21 .plog { MWord.gate false 0 with sa := u.setWidth 5, md := 4, aux := q.setWidth 8 }
      (setP (~~~ (x.getP u))) ∧
    (x.enabled g 0 = true →
      Does s slot c x 0x22 .pcnt { g with dst := d, sa := u.setWidth 5 }
        (s.retire slot c (x.setS d (BitVec.ofNat 64
          ((List.range 256).filter (fun k => (x.getP u).getLsbD k)).length)) .compute) ∧
      Does s slot c x 0x23 .pfst { g with dst := d, sa := u.setWidth 5 }
        (s.retire slot c (x.setS d (BitVec.ofNat 64
          (((List.range 256).find? (fun k => (x.getP u).getLsbD k)).getD 256))) .compute) ∧
      (n.toNat ≤ 256 → Does s slot c x 0x24 .pset { g with aux := q.setWidth 8, imm := n }
        (setP (predOf 256 (fun k => decide (k < n.toNat)))))) ∧
    x.getP 0 = BitVec.allOnes 256 ∧ ∀ r, x.setP 0 r = x

/-- R115, R117, R118, R126: conversion, exp2, the reciprocal, and the two reductions of the enabled elements. A conversion between
formats of one element count converts each enabled element in place; between formats of two counts IMM[1:0] names the part of
the wider one. -/
def Obligations.VectorFunctions : Prop :=
  ∀ (s : State) (slot c : Nat) (x : Ctx) (pn : Bool) (pr : BitVec 3) (d a : BitVec 5) (fm fs : BitVec 4) (f h : Fmt) (q : Nat),
    Fmt.ofCode fm.toNat = some f → Fmt.ofCode fs.toNat = some h →
    let g : MWord := { MWord.gate pn pr with dst := d, sa := a }
    let A := fun (k : Fmt) => elemOf k (x.getV a)
    let D := fun (k : Fmt) => elemOf k (x.getV d)
    let put := fun (k : Fmt) (r : Nat → Nat) =>
      (s.retire slot c (x.setV d (vecOf k r)) .compute)
    (fm.toNat < 7 → fs.toNat < 7 → q * min f.elems h.elems < max f.elems h.elems →
      Does s slot c x 0x30 .vcvt { g with fmt := fm, aux := fs.setWidth 8, imm := BitVec.ofNat 64 q }
        (put f (fun j =>
          let n := min f.elems h.elems
          let lo := if h.elems < f.elems then q * n else 0
          if lo ≤ j ∧ j < lo + n ∧ x.enabled g j = true then
            convert h f (A h (if f.elems < h.elems then q * n + j else j - lo))
          else D f j))) ∧
    Does s slot c x 0x70 .vexp2 g (put .fp32 (fun k => if x.enabled g k then exp2 (A .fp32 k) else D .fp32 k)) ∧
    Does s slot c x 0x71 .vrcp g (put .fp32 (fun k => if x.enabled g k then rcp (A .fp32 k) else D .fp32 k)) ∧
    (let on := fun (k : Fmt) => ((List.range k.elems).filter (fun i => x.enabled g i)).map (A k)
     (fm.toNat ∈ [0, 1, 2, 5, 6] →
       Does s slot c x 0x72 .vrmax { g with fmt := fm }
         (s.retire slot c (x.setS d (f.extend (largest f (on f)))) .compute)) ∧
     (fm.toNat ∈ [0, 1, 2] →
       Does s slot c x 0x73 .vrsum { g with fmt := fm }
         (s.retire slot c (x.setS d (BitVec.ofNat 64 (fixedSum ((on f).map (convert f .fp32))))) .compute)))

/-- R119 to R121, R136: the table builders and the encoder, with scratch and table ranges inside the grant and nothing in flight.
Entry j of table (h, g) of LTB is the FP32 sum over i of the products (or squared differences) of the query slice and codeword j;
LTLD copies n units; KVENC writes for each sub-vector the number of its nearest codeword. -/
def Obligations.TableBuilding : Prop :=
  ∀ (s : State) (slot c : Nat) (x : Ctx) (pn : Bool) (pr : BitVec 3) (ra rb rt : BitVec 5) (fm : BitVec 4) (f e : Fmt)
    (h g d n : Nat) (l2 : Bool),
    x.enabled (MWord.gate pn pr) 0 = true → x.comets = [] →
    let w : MWord := { MWord.gate pn pr with sa := ra, sb := rb, sc := rt }
    let a := (x.getS ra).toNat
    let b := (x.getS rb).toNat
    let t := (x.getS rt).toNat
    let done := fun (y : Ctx) => (s.retire slot c y .compute)
    (fm.toNat ∈ [1, 2] → Fmt.ofCode fm.toNat = some f → e ∈ [Fmt.fp32, .bf16, .fp16] →
      1 ≤ h → h ≤ 64 → 1 ≤ g → g ≤ 64 → 1 ≤ d → d ≤ 512 → g * d ≤ 4096 →
      x.scratchOk a (h * g * d * 2) 2 = true → x.scratchOk b (g * 256 * d * 2) 2 = true →
      x.tableOk t (h * g * tableUnits e) (tableUnits e) = true →
      Does s slot c x 0x50 .ltb { w with
          fmt := fm
          md := if l2 then 1 else 0
          aux := BitVec.ofNat 8 e.code
          imm := BitVec.ofNat 64 (h + g * 2 ^ 16 + d * 2 ^ 32) }
        (done (({ x with tables := memWrite x.tables (t * 256) (elemBytes e ((List.range (h * g * 256)).map (fun i =>
          convert .fp32 e (rowDot f l2 (slice (x.elems f a (h * g * d)) (i / 256 * d) d)
            (slice (x.elems f b (g * 256 * d)) ((i / 256 % g * 256 + i % 256) * d) d))))) }).mac
          ((if l2 then 2 else 1) * ceilDiv (h * g * 256 * d) 1024)))) ∧
    (1 ≤ n → n ≤ 1024 → x.scratchOk a (n * 256) 256 = true → x.tableOk b n 1 = true →
      Does s slot c x 0x51 .ltld { w with sc := 0, imm := BitVec.ofNat 64 n }
        (done (({ x with tables := memWrite x.tables (b * 256) (memRead x.scratch a (n * 256)) }).lau (ceilDiv n 4)))) ∧
    (fm.toNat ∈ [1, 2] → Fmt.ofCode fm.toNat = some f → 1 ≤ h → h ≤ 64 → 1 ≤ g → g ≤ 64 →
      x.scratchOk a (h * g * 8 * 2) 2 = true → x.scratchOk b (g * 256 * 8 * 2) 2 = true → x.scratchOk t (h * g) 1 = true →
      Does s slot c x 0x87 .kvenc { w with fmt := fm, imm := BitVec.ofNat 64 (h + g * 2 ^ 16) }
        (done ((x.mac (4 * h * g)).putScratch t (elemBytes .u8 ((List.range (h * g)).map (fun i =>
          nearest ((List.range 256).map (fun j => rowDot f true (slice (x.elems f a (h * g * 8)) (i * 8) 8)
            (slice (x.elems f b (g * 256 * 8)) ((i % g * 256 + j) * 8) 8)))))))))

/-- R119, R122 to R124: lookup-accumulate over K records, with ranges inside the grant that overlap no operand and nothing in
flight. LAC sums the entries the codes select and, with MOD[0], keeps the largest output of each h; LEXPW turns scores into
weights; LBIN collects weights by codeword and, with MOD[0], the sum of the weights of each h. -/
def Obligations.LookupAccumulate : Prop :=
  ∀ (s : State) (slot c : Nat) (x : Ctx) (pn : Bool) (pr : BitVec 3) (rd ra rb rc : BitVec 5) (fm : BitVec 4) (f e : Fmt)
    (k h g : Nat) (scale : BitVec 32) (opt : Bool),
    x.enabled (MWord.gate pn pr) 0 = true → x.comets = [] → Fmt.ofCode fm.toNat = some f →
    1 ≤ h → h ≤ 64 → 1 ≤ g → g ≤ 64 → 1 ≤ k → k ≤ 4096 → (opt = false → rd = 0) →
    let w : MWord := { MWord.gate pn pr with fmt := fm, sa := ra, sb := rb, sc := rc }
    let o : MWord := { w with dst := rd, md := if opt then 1 else 0 }
    let a := (x.getS ra).toNat
    let b := (x.getS rb).toNat
    let t := (x.getS rc).toNat
    let m := (x.getS rd).toNat
    let fits := fun (p n q : Nat) => x.scratchOk p n q = true
    let apart := fun (p n q l : Nat) => overlap p n q l = false
    let done := fun (y : Ctx) => (s.retire slot c y .compute)
    (fm.toNat ∈ [0, 1, 2, 5] → apart t (k * h * 4) a (k * g) → (opt = true → apart m (h * 4) a (k * g)) →
      fits a (k * g) 1 → x.tableOk b (h * g * tableUnits f) (tableUnits f) = true → fits t (k * h * 4) 4 →
      (opt = true → fits m (h * 4) 4) →
      let out : Fmt := if f = .int8 then .int32 else .fp32
      let score := fun (r i : Nat) => lacOutput f ((List.range g).map (fun j =>
        x.tableEntry f b (i * g + j) ((x.elems .u8 a (k * g)).getD (r * g + j) 0)))
      let rows := (List.range k).map (fun r => (List.range h).map (score r))
      let y := (x.lau (ceilDiv (k * h * g * (if f = .fp32 then 2 else 1)) 2048)).putScratch t (elemBytes out rows.flatten)
      Does s slot c x 0x52 .lac { o with imm := BitVec.ofNat 64 (k + h * 2 ^ 32 + g * 2 ^ 48) }
        (done (if opt then y.putScratch m (elemBytes out ((List.range h).map (fun i =>
          largest out (rows.map (fun r => r.getD i 0))))) else y))) ∧
    (fm.toNat ∈ [0, 1, 2] → apart t (k * h * f.bytes) a (k * h * 4) → apart t (k * h * f.bytes) b (h * 4) →
      fits a (k * h * 4) 4 → fits b (h * 4) 4 → fits t (k * h * f.bytes) f.bytes →
      Does s slot c x 0x53 .lexpw { w with aux := BitVec.ofNat 8 h, imm := BitVec.ofNat 64 (k + scale.toNat * 2 ^ 32) }
        (done ((x.lau (ceilDiv (k * h * (if f = .fp32 then 2 else 1)) 2048)).putScratch t
          (elemBytes f ((List.range (k * h)).map (fun i => convert .fp32 f (exp2 (Fmt.mul .fp32
            (Fmt.sub .fp32 ((x.elems .fp32 a (k * h)).getD i 0) ((x.elems .fp32 b h).getD (i % h) 0)) scale.toNat)))))))) ∧
    (fm.toNat ∈ [0, 1, 2] → e ∈ [Fmt.fp32, .bf16, .fp16] → apart t (h * g * 256 * e.bytes) a (k * h * f.bytes) →
      apart t (h * g * 256 * e.bytes) b (k * g) →
      (opt = true → apart m (h * 4) a (k * h * f.bytes) ∧ apart m (h * 4) b (k * g) ∧ fits m (h * 4) 4) →
      fits a (k * h * f.bytes) f.bytes → fits b (k * g) 1 → fits t (h * g * 256 * e.bytes) e.bytes →
      let ws := (x.elems f a (k * h)).map (convert f .fp32)
      let chosen := fun (j q : Nat) => (List.range k).filter (fun r => decide ((x.elems .u8 b (k * g)).getD (r * g + j) 0 = q))
      let y := (x.lau (ceilDiv (k * h * g * (if f = .fp32 ∨ e = .fp32 then 2 else 1)) 2048)).putScratch t
        (elemBytes e ((List.range (h * g * 256)).map (fun i => convert .fp32 e
          (fixedSum ((chosen (i / 256 % g) (i % 256)).map (fun r => ws.getD (r * h + i / 256 / g) 0))))))
      Does s slot c x 0x54 .lbin { o with aux := BitVec.ofNat 8 e.code, imm := BitVec.ofNat 64 (k + h * 2 ^ 32 + g * 2 ^ 48) }
        (done (if opt then y.putScratch m (elemBytes .fp32 ((List.range h).map (fun i =>
          fixedSum ((List.range k).map (fun r => ws.getD (r * h + i) 0))))) else y)))

/-- R68 to R75, R125: the exact accumulators within the grant. Each add enters the value exactly; XRD reads the rounded sum out;
XEXP writes the image; XIMP and XMRG merge, XMRG leaving the other accumulator as it is; XCLR clears. An add, import or merge that
would take a count to 2^48 is an arithmetic limit and changes nothing. -/
def Obligations.ExactAccumulators : Prop :=
  ∀ (s : State) (slot c : Nat) (x : Ctx) (pn : Bool) (pr : BitVec 3) (d a b : BitVec 5) (fm : BitVec 4) (f : Fmt)
    (i j n : Nat),
    x.comets = [] → Fmt.ofCode fm.toNat = some f → i < x.xa.length → i < 64 → j < 64 →
    let g := MWord.gate pn pr
    let on := fun (k : Nat) => x.enabled g k
    let w : MWord := { g with aux := BitVec.ofNat 8 i }
    let acc := x.getX i
    let p := (x.getS a).toNat
    let done := fun (y : Ctx) => (s.retire slot c y .compute)
    (fm.toNat ∈ [0, 1, 2, 3, 4, 6] →
      let es := ((List.range f.elems).filter on).map (fun k => elemOf f (x.getV a) k)
      (acc.count + es.length < 2 ^ 48 → acc.sinceNorm < 2 ^ 30 →
        Does s slot c x 0x61 .xadd { w with sa := a, fmt := fm }
          (done (x.setX i (es.foldl (fun t e => t.add (accValue f e)) acc)))) ∧
      (2 ^ 48 ≤ acc.count + es.length →
        Does s slot c x 0x61 .xadd { w with sa := a, fmt := fm } (s.except slot c x .arithLimit .compute))) ∧
    (let ks := (List.range (min n f.elems)).filter on
     1 ≤ n → i + n ≤ x.xa.length → x.xa.length ≤ 64 →
      (∀ q ∈ x.xa, q.count + 1 < 2 ^ 48 ∧ q.sinceNorm < 2 ^ 30) →
      (fm.toNat ∈ [0, 1, 2, 3, 4, 6] →
        Does s slot c x 0x62 .xaddl { w with sa := a, fmt := fm, imm := BitVec.ofNat 64 n }
          (done (ks.foldl (fun y k => y.setX (i + k) ((y.getX (i + k)).add (accValue f (elemOf f (x.getV a) k)))) x))) ∧
      (fm.toNat ∈ [1, 2, 3, 4, 5] →
        Does s slot c x 0x63 .xdot { w with sa := a, sb := b, fmt := fm, imm := BitVec.ofNat 64 n }
          (done (ks.foldl (fun y k => y.setX (i + k) ((y.getX (i + k)).add
            (accProduct f (elemOf f (x.getV a) k) (elemOf f (x.getV b) k)))) x)))) ∧
    (on 0 = true →
      (1 ≤ n → i + n ≤ x.xa.length → x.xa.length ≤ 64 →
        Does s slot c x 0x60 .xclr { w with imm := BitVec.ofNat 64 n }
          (done ((List.range n).foldl (fun y k => y.setX (i + k) XAcc.clear) x))) ∧
      (fm.toNat ∈ [0, 1, 2, 6] →
        Does s slot c x 0x64 .xrd { w with dst := d, fmt := fm }
          (done ((x.setX i acc.forRead).setS d (f.extend (acc.forRead.readOut f))))) ∧
      (x.scratchOk p 88 8 = true →
        Does s slot c x 0x65 .xexp { w with sa := a } (done ((x.setX i acc.forRead).putScratch p acc.forRead.image)) ∧
        (∀ q, XAcc.ofImage (memRead x.scratch p 88) = some q → acc.count + q.count < 2 ^ 48 →
          Does s slot c x 0x66 .ximp { w with sa := a } (done (x.setX i (acc.merge q)))) ∧
        (XAcc.ofImage (memRead x.scratch p 88) = none →
          Does s slot c x 0x66 .ximp { w with sa := a } (s.except slot c x .illegal .compute))) ∧
      (j < x.xa.length → acc.count + (x.getX j).count < 2 ^ 48 →
        Does s slot c x 0x67 .xmrg { w with imm := BitVec.ofNat 64 j } (done (x.setX i (acc.merge (x.getX j)))))) ∧
    (s.occupant slot = some c → s.ctx? c = some x → 2 ^ 30 ≤ acc.sinceNorm →
      exec (.xaccNormalise slot i) s = .next (s.setCtx c (x.setX i acc.normalise)))

/-- R68, R116 to R118, R175, R176: MMA of any shape, format pair and place in a chain that is opened or continues as it was begun,
with ranges inside the grant, completes: from scratch it enters its products in the order of k, writes C where it closes and
advances the PC; with EXP it starts the compressed stream whose elements are B, the descriptor having moved past them. One that
would take a chain past 2^32 values is an arithmetic limit, and each output keeps its first 2^32. -/
def Obligations.MatrixMultiply : Prop :=
  ∀ (s : State) (slot c : Nat) (x : Ctx) (pn : Bool) (pr : BitVec 3) (ra rb rc : BitVec 5) (i fm : BitVec 4) (f e : Fmt)
    (m n k : Nat) (opn cls : Bool),
    x.enabled (MWord.gate pn pr) 0 = true → x.comets = [] →
    Fmt.ofCode fm.toNat = some f → mmaFormats f.code e.code = true →
    1 ≤ m → m ≤ 64 → 1 ≤ n → n ≤ 64 → 1 ≤ k → k < 2 ^ 32 →
    (opn = true ∨ ∃ q, x.chain = some q ∧ q.m = m ∧ q.n = n ∧ q.fa = f ∧ q.fb = e) →
    let a := (x.getS ra).toNat
    let b := (x.getS rb).toNat
    let t := (x.getS rc).toNat
    let A := x.elems f a (m * k)
    let B := x.elems e b (k * n)
    let k0 := (x.chainFor m n f e opn).k
    let w : MWord := { MWord.gate pn pr with
      sa := ra
      sc := rc
      fmt := fm
      imm := BitVec.ofNat 64 (m + n * 2 ^ 16 + k * 2 ^ 32) }
    let ends := bit01 opn + 2 * bit01 cls
    x.scratchOk a (m * k * f.bytes) f.bytes = true →
    (cls = true → x.scratchOk t (m * n * 4) 4 = true ∧ overlap t (m * n * 4) a (m * k * f.bytes) = false) →
    (let v : MWord := { w with sb := rb, md := BitVec.ofNat 4 ends, aux := BitVec.ofNat 8 e.code }
     x.scratchOk b (k * n * e.bytes) e.bytes = true →
      (cls = true → overlap t (m * n * 4) b (k * n * e.bytes) = false) →
      (k0 + k ≤ 2 ^ 32 →
        Does s slot c x 0x40 .mma v (s.retire slot c (x.mmaDone m n k f e A B t opn cls) .compute)) ∧
      (2 ^ 32 < k0 + k →
        let y := x.mmaLimit m n k f e A B opn
        Does s slot c x 0x40 .mma v ((s.setCtx c y).except slot c y .arithLimit .compute))) ∧
    (let d := x.getD i
     let blocks := k * n / 256
     k0 + k ≤ 2 ^ 32 → f ≠ .int8 → k * n % 256 = 0 → d.kind = 3 → d.compressedForm = true → d.fmt = e.code →
      s.compressedOk x d = true → 1 ≤ d.length → blocks ≤ d.length → MemoryReady s slot x → s.streamsFull (slot / 8) = false →
      Does s slot c x 0x40 .mma { w with md := BitVec.ofNat 4 (ends + 4), aux := BitVec.ofNat 8 (e.code + 16 * i.toNat) }
        (s.startStream slot c
          (x.setD i { d with
            w0 := BitVec.ofNat 64 (putBits 51 0 d.w0.toNat (d.offset + blocks))
            w2 := BitVec.ofNat 64 (putBits 63 32 d.w2.toNat (d.length - blocks)) })
          (Outst.blank d.handle [] false (.mmaExp i d.offset m n k f e a t opn cls)) (mkRef d.handle d.hgen) d.offset blocks
          .compute))

/-- R127 to R131, R133, R138: the stream moves, of n units between scratch s[SA] and the object of st[AUX], begin when the
descriptor permits them, the ranges lie inside scratch, window and object, no comet is out, and the Moon has an engine free and
its quadrant's queues room. LD and
ST leave the strand waiting on the lines they touch; CLD and CST go on as comets that count in IMM[39:32]. A store takes its bytes
from scratch as it issues. -/
def Obligations.StreamMovesBegin : Prop :=
  ∀ (s : State) (slot c : Nat) (x : Ctx) (pn : Bool) (pr : BitVec 3) (ra rb : BitVec 5) (i : BitVec 4) (n k : Nat),
    x.enabled (MWord.gate pn pr) 0 = true → MemoryReady s slot x →
    0 < n → n < 2 ^ 32 → k < 256 →
    let d := x.getD i
    let a := (x.getS ra).toNat
    let b := x.getS rb
    let bytes := if d.kind = 0 then n else n * d.reclen
    let rs := streamRecords d b n (fun r => memNat x.scratch (b.toNat + 8 * r) 8)
    let ps := streamPieces a rs
    let lines := linesOf (ps.map (fun p => (p.1, p.2.1)))
    let data := ps.map (fun p => (p.1, memRead x.scratch p.2.2 p.2.1))
    let w : MWord := { MWord.gate pn pr with sa := ra, sb := rb, aux := i.setWidth 8 }
    let sync : MWord := { w with imm := BitVec.ofNat 64 n }
    let comet : MWord := { w with imm := BitVec.ofNat 64 (n + k * 2 ^ 32) }
    d.kind ≠ 3 → x.scratchOk a bytes 1 = true → (d.kind = 2 → x.scratchOk b.toNat (8 * n) 8 = true) →
    inObject (s.descSize d) rs = true → inWindow d rs = true →
    (d.rd = true → s.descOk x d true false = true →
      Does s slot c x 0x80 .ld sync
        (s.startMem slot c x (Outst.blank d.handle lines false (.load ps)) bytes true false .memory) ∧
      Does s slot c x 0x82 .cld comet
        (s.startMem slot c x { Outst.blank d.handle lines false (.load ps) with ac := k, dstRange := (a, bytes) }
          bytes true true .memory)) ∧
    (d.wr = true → s.descOk x d false true = true →
      Does s slot c x 0x81 .st sync
        (s.startMem slot c x (Outst.blank d.handle lines true (.store data)) bytes true false .memory) ∧
      Does s slot c x 0x83 .cst comet
        (s.startMem slot c x { Outst.blank d.handle lines true (.store data) with ac := k, srcRange := (a, bytes) }
          bytes true true .memory))

/-- R134, R135, R156, R174: AMO and PUB begin on the 8-byte word of a descriptor they may read and write, BMTST on the bytes that
hold the bits of the enabled IDs of its list, EXPD as a compressed stream over the blocks of a compressed tensor; each leaves the strand
waiting on its lines. -/
def Obligations.WordAndBlockAccessesBegin : Prop :=
  ∀ (s : State) (slot c : Nat) (x : Ctx) (pn : Bool) (pr : BitVec 3) (rd ra rb rc : BitVec 5) (i fm : BitVec 4)
    (m n t : Nat) (f : Fmt),
    x.enabled (MWord.gate pn pr) 0 = true → MemoryReady s slot x →
    let d := x.getD i
    let a := (x.getS ra).toNat
    let b := (x.getS rb).toNat
    let w : MWord := { MWord.gate pn pr with sa := ra, aux := i.setWidth 8 }
    let begin := fun (ls : NatSet) (wr : Bool) (op : MemOp) (bytes : Nat) =>
      s.startMem slot c x (Outst.blank d.handle ls wr op) bytes false false .memory
    (d.rd = true → d.wr = true → d.kind ≠ 3 → s.descOk x d true true = true →
      (m < 8 → (m ≠ 7 → rc = 0) → (d.offset + b) % 8 = 0 → d.offset + b + 8 ≤ s.descSize d → b + 8 ≤ d.length →
        Does s slot c x 0x85 .amo { w with dst := rd, sb := rb, sc := rc, md := BitVec.ofNat 4 m }
          (begin (linesOf [(d.offset + b, 8)]) true (.amo (d.offset + b) m a (x.getS rc).toNat rd.toNat) 8)) ∧
      (t < 8 → d.offset % 8 = 0 → d.offset + 8 ≤ s.descSize d → 8 ≤ d.length →
        Does s slot c x 0x86 .pub { w with dst := rd, sb := rb, imm := BitVec.ofNat 64 t }
          (begin (linesOf [(d.offset, 8)]) true (.pub d.offset a b rd.toNat t) 8))) ∧
    (1 ≤ n → n ≤ 256 → rd.toNat < 8 → d.rd = true → d.kind = 0 → x.lanesOk w a 8 n 8 = true →
      s.descOk x d true false = true → d.offset + d.length ≤ s.descSize d →
      let bits := (List.range n).map (fun k =>
        let id := memNat x.scratch (a + 8 * k) 8 % 2 ^ 40
        if x.enabled w k = true ∧ id / 8 < d.length then some (d.offset + id / 8, id % 8) else none)
      Does s slot c x 0xA4 .bmtst { w with dst := rd, imm := BitVec.ofNat 64 n }
        (begin (linesOf (bits.filterMap (fun e => e.map (fun p => (p.1, 1))))) false (.bitmap bits rd.toNat) 0)) ∧
    (0 < n → n < 2 ^ 32 → fm.toNat ∈ [1, 2, 3, 4] → Fmt.ofCode fm.toNat = some f → d.kind = 3 → d.compressedForm = true →
      d.fmt = fm.toNat → x.scratchOk a (n * 256 * f.bytes) f.bytes = true → s.compressedOk x d = true → b + n ≤ d.length →
      s.streamsFull (slot / 8) = false →
      Does s slot c x 0x84 .expd { w with sb := rb, fmt := fm, imm := BitVec.ofNat 64 n }
        (s.startStream slot c x (Outst.blank d.handle [] false (.expand (d.offset + b) n a f)) (mkRef d.handle d.hgen)
          (d.offset + b) n .compute))

/-- R36, R37, R39, R137 to R147: synchronisation and messages. WAIT goes on once the counter has reached its target and the strand
waits until then; ACSET and ACRD write and read a counter, an arrival of the same cycle counting after the write; FENCE holds later memory instructions back until the comets out now
have arrived; ORBIT stops the strand until the boundary and tells the partition; ORQ reads the flags. MSGS to an entry of the
route map in force leaves as a comet whose header names the sender and the entry's next sequence number, and asks for its way out;
MSGR takes the oldest message of the ring into scratch, and with MOD[0] an empty ring answers 0. -/
def Obligations.SynchronisationAndMessages : Prop :=
  (∀ (s : State) (slot c : Nat) (x : Ctx) (pn : Bool) (pr : BitVec 3) (d a : BitVec 5) (k : BitVec 8),
     x.enabled (MWord.gate pn pr) 0 = true →
     let g := MWord.gate pn pr
     let done := fun (y : Ctx) => (s.retire slot c y .memory)
     ((x.getAc k - (x.getS a).setWidth 32).toNat < 2 ^ 31 →
       Does s slot c x 0x90 .wait { g with sa := a, imm := k.setWidth 64 } (done x)) ∧
     (2 ^ 31 ≤ (x.getAc k - (x.getS a).setWidth 32).toNat →
       Does s slot c x 0x90 .wait { g with sa := a, imm := k.setWidth 64 } (s.setCtx c { x with wait := .counter k.toNat })) ∧
     Does s slot c x 0x91 .acset { g with sa := a, imm := k.setWidth 64 } (done (x.setAc k ((x.getS a).setWidth 32 + BitVec.ofNat 32 (kvGet 0 x.arrived k.toNat)))) ∧
     Does s slot c x 0x92 .acrd { g with dst := d, imm := k.setWidth 64 } (done (x.setS d ((x.getAc k).setWidth 64))) ∧
     Does s slot c x 0x93 .fence g (done { x with fenceAll := x.comets.map (fun q => q.id) }) ∧
     Does s slot c x 0x93 .fence { g with md := 1 }
       (done { x with fenceStores := (x.comets.filter (fun q => q.write)).map (fun q => q.id) }) ∧
     (let u := (s.setCtx c { x with atOrbit := some d.toNat, wait := .orbit, issued := true }).noteIssue slot .memory
      (x.enroll = true →
        Does s slot c x 0x94 .orbit { g with dst := d } (u.modPart x.part (fun p => { p with executed := true }))) ∧
      (x.enroll = false → Does s slot c x 0x94 .orbit { g with dst := d } (u.idleEvent x.part))) ∧
     (let p := s.part x.part
      Does s slot c x 0x95 .orq { g with dst := d }
        (done (x.setS d (BitVec.ofNat 64 ((if p.hostFlag then 1 else 0) + (if p.devFlag then 2 else 0) +
          (if s.stagedAny x.part then 4 else 0) + p.orbit * 2 ^ 24)))))) ∧
  (∀ (s : State) (slot c : Nat) (x : Ctx) (pn : Bool) (pr : BitVec 3) (d a b : BitVec 5) (len kind ai : Nat) (last : Bool),
     x.enabled (MWord.gate pn pr) 0 = true → MemoryReady s slot x →
     1 ≤ len → len ≤ 4032 → kind < 256 → ai < 256 →
     let g := MWord.gate pn pr
     let p := (x.getS a).toNat
     let en := (x.getS b).toNat % 2 ^ 16
     let rm := (s.part x.part).routeCur
     let e := kvGet [] rm.entries en
     let seq := kvGet 0 x.seqs en
     let payload := memRead x.scratch p len
     let msg : Msg := ⟨msgHeader (s.ownPbr.getD 0) x.part len kind seq (x.ref c) rm.gen x.tenant x.job last, payload⟩
     let y := { x with seqs := kvSet x.seqs en ((seq + 1) % 2 ^ 64) }
     let s1 := if reLocal e then s else s.digestAdd x.part (3 :: en :: payload.map (fun v => v.toNat))
     let s2 := s1.startMem slot c y { Outst.blank 0 [] false (.message en kind msg) with ac := ai, srcRange := (p, len) } len true
       true .memory
     (x.scratchOk p len 1 = true → reKind e = 3 → (reLocal e = true ∨ s1.suppressed x.part = false) →
       Does s slot c x 0x98 .msgs { g with
           sa := a
           sb := b
           md := if last then 1 else 0
           imm := BitVec.ofNat 64 (len + kind * 2 ^ 16 + ai * 2 ^ 32) }
         (s2.requestRun (.comet c s1.fresh.1) x.part (64 + len) (if reLocal e then 256 else s2.peerPort (rePbr e))
           (if reLocal e then s2.sliceOfRef (reCtx e) else s2.peerPort (rePbr e)))) ∧
     (x.scratchOk p 4096 64 = true → x.ringSlots ≠ 0 →
       (∀ m r, x.ring = m :: r →
         Does s slot c x 0x99 .msgr { g with dst := d, sa := a, md := if last then 1 else 0 }
           (s.retire slot c (({ x with ring := r }.putScratch p (m.header ++ m.payload)).setS d
             (BitVec.ofNat 64 (m.header ++ m.payload).length)) .memory)) ∧
       (x.ring = [] →
         Does s slot c x 0x99 .msgr { g with dst := d, sa := a, md := 1 } (s.retire slot c (x.setS d 0) .memory) ∧
         Does s slot c x 0x99 .msgr { g with dst := d, sa := a } (s.setCtx c { x with wait := .result }))))

/-- R148 to R151: tiles and merges. TBEGIN of a step that is not begun deals its tiles over the Moons of the job, and of one that
is begun with the same shape joins it; TCLM claims the node dealt to the Moon that comes next; TCMT of a claimed node commits its
bytes; TLD loads a committed output. R152 to R157: the walkers of vector search, of a walker that is granted and lists inside
scratch. Each push keeps the queue in the order of R153 within its capacity and counts what it drops; a pop takes the first; VISIT
marks IDs and tells which were new; the top-k list takes entries and is read out in order. -/
def Obligations.TilesMergesAndWalkers : Prop :=
  (∀ (s : State) (slot c : Nat) (x : Ctx) (pn : Bool) (pr : BitVec 3) (d a b e : BitVec 5) (t u n : Nat) (st : Step),
     x.enabled (MWord.gate pn pr) 0 = true → x.comets = [] →
     let g := MWord.gate pn pr
     let done := fun (z : State) (y : Ctx) => (z.retire slot c y .memory)
     let id := (x.getS a).toNat
     (1 ≤ t → t ≤ 2 ^ 20 → 1 ≤ u → u ≤ 256 →
       (s.step? x.part x.job id = none →
         ((s.part x.part).steps.filter (fun q => decide (q.job = x.job) && !q.finished)).length < 5 →
         s.mergeUsed x.part + (t + 1) * u * 256 ≤ s.mergeSpace x.part →
         let ms := s.jobMoons x.part x.job
         Does s slot c x 0x9C .tbegin { g with sa := a, imm := BitVec.ofNat 64 (t + u * 2 ^ 32) }
           (done (s.modPart x.part (fun p => { p with
             steps := p.steps ++ [⟨x.job, id, t, u, ms, dealOver [] (List.range t) ms, [], [], [], false⟩] })) x)) ∧
       (s.step? x.part x.job id = some st → st.t = t → st.units = u →
         Does s slot c x 0x9C .tbegin { g with sa := a, imm := BitVec.ofNat 64 (t + u * 2 ^ 32) } (done s x))) ∧
     (d.toNat ≤ 29 → s.step? x.part x.job id = some st → st.finished = false → st.claimable (slot / 8) = some n →
       let kids := match nodeKids st.t n with
         | some (l, some r) => (BitVec.ofNat 64 l, BitVec.ofNat 64 r)
         | some (l, none) => (BitVec.ofNat 64 l, BitVec.allOnes 64)
         | none => (BitVec.allOnes 64, BitVec.allOnes 64)
       Does s slot c x 0x9D .tclm { g with dst := d, sa := a }
         (done (s.modStep x.part x.job id (fun q => { q with claims := kvSet q.claims n c }))
           (((x.setS d (BitVec.ofNat 64 n)).setS (d + 1) kids.1).setS (d + 2) kids.2))) ∧
     (let sid := (x.getS e).toNat
      let node := (x.getS b).toNat
      s.step? x.part x.job sid = some st → x.scratchOk id (st.units * 256) 256 = true →
       (kvGet? st.claims node = some c →
         let bs := memRead x.scratch id (st.units * 256)
         Does s slot c x 0x9E .tcmt { g with sa := a, sb := b, sc := e }
           (done (((s.modStep x.part x.job sid (fun q => q.commit s.now (slot / 8) bs 22 node)).redeal x.part).digestAdd x.part
             (4 :: sid :: node :: bs.map (fun v => v.toNat))) x)) ∧
       (∀ out, kvGet? st.slots node = some out →
         Does s slot c x 0x9F .tld { g with sa := a, sb := b, sc := e } (done s (x.putScratch id out))))) ∧
  (∀ (s : State) (slot c : Nat) (x : Ctx) (pn : Bool) (pr q : BitVec 3) (d a : BitVec 5) (i n cap k : Nat),
     x.comets = [] → i < 16 → i < x.walkers.length →
     let g : MWord := { MWord.gate pn pr with aux := BitVec.ofNat 8 i }
     let p := (x.getS a).toNat
     let wk := x.getW i
     let done := fun (y : Ctx) => (s.retire slot c y .memory)
     (x.enabled g 0 = true →
       (1 ≤ cap → cap ≤ 1024 → 1 ≤ k → k ≤ 1024 →
         Does s slot c x 0xA0 .wkinit { g with imm := BitVec.ofNat 64 (cap + k * 2 ^ 16) } (done (x.setW i ⟨cap, k, [], [], []⟩))) ∧
       (d.toNat ≤ 30 → (∀ e r, wk.queue = e :: r →
         let out := fun (y : Ctx) => done ((y.setS d (BitVec.ofNat 64 e.id)).setS (d + 1) (BitVec.ofNat 64 e.dist))
         Does s slot c x 0xA2 .cqpop { g with dst := d } (out (x.setW i { wk with queue := r })) ∧
         Does s slot c x 0xA2 .cqpop { g with dst := d, md := 1 } (out (x.setW i wk))) ∧
         (wk.queue = [] → Does s slot c x 0xA2 .cqpop { g with dst := d } (done ((x.setS d (BitVec.allOnes 64)).setS (d + 1) 0)))) ∧
       (x.scratchOk p (16 * wk.top.length) 16 = true →
         Does s slot c x 0xA6 .tkrd { g with dst := d, sa := a }
           (done ((x.putScratch p (wk.top.flatMap (fun e => natBytes 4 e.dist ++ natBytes 5 e.id ++ natBytes 7 0))).setS d
             (BitVec.ofNat 64 wk.top.length))))) ∧
     (1 ≤ n → n ≤ 256 →
       let on := (List.range n).filter (fun j => x.enabled g j)
       (x.lanesOk g p 16 n 16 = true →
         let es := on.map (fun j => x.entryAt (p + 16 * j))
         let r := es.foldl (fun (acc : Walker × Nat) e => ((acc.1.push e).1, acc.2 + (acc.1.push e).2)) (wk, 0)
         Does s slot c x 0xA1 .cqpush { g with dst := d, sa := a, imm := BitVec.ofNat 64 n }
           (done ((x.setW i r.1).setS d (BitVec.ofNat 64 r.2))) ∧
         Does s slot c x 0xA5 .tkins { g with sa := a, imm := BitVec.ofNat 64 n } (done (x.setW i (es.foldl Walker.insertTop wk)))) ∧
       (x.lanesOk g p 8 n 8 = true →
         let bit := fun (j : Nat) => visitBit (memNat x.scratch (p + 8 * j) 8 % 2 ^ 40)
         ∃ y, Does s slot c x 0xA3 .visit { g with sa := a, imm := BitVec.ofNat 64 (n + q.toNat * 2 ^ 16) } (done y) ∧
           (∀ m, (y.getW i).marked.contains m = (wk.marked.contains m || on.any (fun j => decide (bit j = m)))) ∧
           y = (x.setW i { wk with marked := (y.getW i).marked }).setP q (predOf n (fun j =>
             on.contains j && !wk.marked.contains (bit j) &&
               !(on.any (fun l => decide (l < j) && decide (bit l = bit j))))))))

/-- R131, R132, R134, R135, R138, R156, R176, R279: the memory system's answer to the instruction a strand waits at, and the
arrival of a comet, once every request is answered, earlier accesses to the object have taken effect and no line failed. The write
takes effect on the object, the context takes what the read brought, and its requests are free; the strand goes on after a waiting
instruction, a fetch leaves it holding the line of its program, and a comet's counter gains 1. A compressed stream goes on with
what its segment read. A message to a ring of this device is written there as it arrives; one to another device arrives once its
last run has left. -/
def Obligations.AnswersArrive : Prop :=
  (∀ (s : State) (slot c : Nat) (x : Ctx) (q : Outst),
    s.ctx? c = some x → x.inOrder q = true →
    let w := s.applyWrite q
    let y := x.deliver (q.overlay (w.1.contentOf q.handle)) w.2 q
    (let ow := ReqOwner.instr c q.id
     s.occupant slot = some c → x.outst = some q → s.ready ow q.handle q.lines q.write = true → s.answerStatus ow q = none →
      (s.strm? (slot / 8) q.id = none →
        (q.op ≠ .fetch → exec (.memoryAnswer slot []) s = .next ((w.1.setCtx c y.resume).dropReqs ow)) ∧
        (q.op = .fetch →
          exec (.memoryAnswer slot []) s =
            .next ((s.setCtx c { x with outst := none, wait := .none, code := some (lineOf q.pc) }).dropReqs ow))) ∧
      (∀ t, s.strm? (slot / 8) q.id = some t → t.entered = true →
        exec (.memoryAnswer slot []) s = .next (s.segmentRead slot c x q t))) ∧
    (let ow := ReqOwner.comet c q.id
     x.comets.find? (fun e => decide (e.id = q.id)) = some q → (∀ en k m, q.op ≠ .message en k m) →
      s.ready ow q.handle q.lines q.write = true → s.answerStatus ow q = none →
      exec (.cometArrival c q.id [] false) s = .next ((w.1.setCtx c (y.arrive q)).dropReqs ow))) ∧
  (∀ (s t : State) (c : Nat) (x : Ctx) (q : Outst) (en k : Nat) (m : Msg),
    let ow := ReqOwner.comet c q.id
    let e := kvGet [] (s.mapOfGen x.part q.gen) en
    s.ctx? c = some x → x.comets.find? (fun e => decide (e.id = q.id)) = some q → q.op = .message en k m →
    (∀ e ∈ x.comets, e.id < q.id → ∀ k' m', e.op ≠ .message en k' m') →
    (∀ r ∈ s.reqs, r.owner = ow → r.state = .sent) →
    (reLocal e = true → s.deliver none (reCtx e) m = (.written, t) →
      exec (.cometArrival c q.id [] false) s = .next ((t.modCtx c (fun y => y.arrive q)).dropReqs ow)) ∧
    (reLocal e = false →
      exec (.cometArrival c q.id [] false) s = .next ((s.modCtx c (fun y => y.arrive q)).dropReqs ow)))

/-- R132, R175, R263, R293: an answer that ends with a final status is counted, ends the stream, raises DATA for the context with
that status and the PC of the instruction, tears down what R294 says and frees the requests and the engine. The exception leaves the
context's registers as they were, an advanced descriptor as it stood, and every object. -/
def Obligations.FailedAnswersRaise : Prop :=
  ∀ (s : State) (slot c : Nat) (x : Ctx) (q : Outst) (st : Nat),
    let ow := ReqOwner.instr c q.id
    s.ctx? c = some x → s.occupant slot = some c → x.outst = some q → x.abortPending = false → x.inOrder q = true →
    s.ready ow q.handle q.lines q.write = true → s.answerStatus ow q = some st →
    (∀ t, s.strm? (slot / 8) q.id = some t → t.entered = true) →
    let y := x.undo q
    let r := (((s.fsat Reg.PLACE_EVT_FINAL [x.part] 1).setCtx c y).endStream (slot / 8) q.id).raise c y Exc.data.code st q.pc
    exec (.memoryAnswer slot []) s =
      .next ((((r.failureTeardown x ow q st).dropReqs ow).freeEngine slot q.id).runStreams (slot / 8)) ∧
    r.objs = s.objs ∧ ∃ z, r.ctx? c = some z ∧ z.abortPending = true ∧ z.outst = none ∧ z.s = x.s ∧ z.v = x.v ∧ z.p = x.p ∧
      z.scratch = x.scratch ∧ z.pc = x.pc

/-- R128, R131, R243: what a store that completes leaves of an object. Each byte of a piece that no combiner has applied reads as
stored, where pieces do not overlap; every byte outside all pieces reads as before, and every other object is as it was. -/
def Obligations.StoresTouchTheirBytes : Prop :=
  ∀ (s : State) (q : Outst) (o : Obj) (ps : List (Nat × List Byte)),
    s.obj? q.handle = some o → Memory.wf o.data = true → q.op = .store ps →
    ∃ r, (s.applyWrite q).1.obj? q.handle = some r ∧
      (∀ a, (∀ p ∈ ps, a < p.1 ∨ p.1 + p.2.length ≤ a) → memGet r.data a = memGet o.data a) ∧
      (q.applied = [] → ps.Pairwise (fun p k => p.1 + p.2.length ≤ k.1 ∨ k.1 + k.2.length ≤ p.1) →
        ∀ p ∈ ps, memRead r.data p.1 p.2.length = p.2) ∧
      (∀ h, h ≠ q.handle → (s.applyWrite q).1.obj? h = s.obj? h) ∧ (s.applyWrite q).1.ctxs = s.ctxs

/-- R134, R135: the word an AMO or a PUB finds, and the word it leaves: for AMO the function its code selects, for PUB the new
value where the word was as expected. -/
def Obligations.AtomicWords : Prop :=
  ∀ (s : State) (q : Outst) (o : Obj) (off k : Nat) (v e : Word) (d : Nat),
    s.obj? q.handle = some o → Memory.wf o.data = true → q.found = none →
    let old := BitVec.ofNat 64 (memNat o.data off 8)
    let after := fun (t : State) => (t.obj? q.handle).map (fun r => memNat r.data off 8)
    let smin := if old.sle v then old else v
    let smax := if v.sle old then old else v
    (∀ m ∈ [(0, old + v), (1, old &&& v), (2, old ||| v), (3, old ^^^ v), (4, smin), (5, smax), (6, v),
        (7, if old = e then v else old)],
      q.op = .amo off m.1 v.toNat e.toNat d →
      (s.applyWrite q).2 = old.toNat ∧ after (s.applyWrite q).1 = some m.2.toNat) ∧
    (q.op = .pub off e.toNat v.toNat d k →
      (s.applyWrite q).2 = old.toNat ∧ after (s.applyWrite q).1 = some (if old = e then v else old).toNat)

/-- R246 to R250, R259, R262, R263, R430: placement. A request older than LATE is marked and counted once; a tray's request that
gets no answer within FAIL fails or is sent again, a stack's takes the stack down; a fill whose reads are answered makes its
granule present; a copied move raises the device flag; an old layout no request uses is freed. At the end of an imbalance window
the counts of both targets are judged and start again; waiting fills and moves are tried again in order; the patrol corrects
errors, reports the lines it cannot, resets each partition whose shared state they hold and reports a device fault where they
hold both copies of a registry or map line. -/
def Obligations.PlacementEventsAndRounds : Prop :=
  (∀ (s : State) (id h g : Nat) (r : Req) (o : Obj) (m : Move) (old : Nat × Nat × Nat) (f : Fill),
     (s.req? id = some r →
       (r.late = false → r.failing = false → r.state ≠ .answered →
         r.since + s.fget (if r.tier = 1 then Reg.PLACE_TIER1_T_LATE_T else Reg.PLACE_TIER2_T_LATE_T) [] < s.now →
         exec (.requestLate id) s =
           .next ((s.modReq id (fun q => { q with late := true })).fsat Reg.PLACE_EVT_LATE [r.part] 1)) ∧
       (r.state = .sent →
         r.since + s.fget (if r.tier = 1 then Reg.PLACE_TIER1_T_FAIL_T else Reg.PLACE_TIER2_T_FAIL_T) [] < s.now →
         exec (.requestFailTimeout id) s = .next (if r.tier = 1 then (s.fsat Reg.PLACE_EVT_FAIL [r.part] 1).loseStack r.tray
           else (s.failReq id false).finishAccs))) ∧
     (s.fills.find? (fun e => decide (e.handle = h) && decide (e.granule = g) && !e.waiting) = some f →
       (∀ q ∈ s.reqs, q.owner = .fill h g → q.state = .answered) → (∀ d ∈ s.hot, ¬(d.handle = h ∧ granuleOfLine d.line = g)) →
       worst (s.reqFinals (.fill h g)) = none →
       exec (.granuleFillDone h g) s =
         .next (((s.fillCopy f).endFill h g none).finishAccs) ∧
       ∀ k o', (s.fillCopy f).obj? h = some o' → s.obj? h = some o → kvGet? o.extents (extentOf g) = some k →
         o'.data = o.data ∧ kvGet? o'.extents (extentOf g) = some { k with
           touch := (s.part (handlePart h)).orbit
           present := setIns k.present g }) ∧
     (s.obj? h = some o →
       (o.move = some m → m.copied = false → m.room = true → s.fget Reg.PLACE_MOVE_CTRL_MOVE_RATE [] ≠ 0 →
         s.reqsAnswered (.move h) = true →
         exec (.moveCopyDone h) s =
           .next (((s.dropReqs (.move h)).modObj h (fun q => { q with move := some { m with copied := true } })).raiseDev (handlePart h))) ∧
       (o.old = some old → (∀ q ∈ s.reqs, q.handle = h → old.2.2 ≤ q.id) →
         exec (.oldLayoutFree h) s = .next (s.modObj h (fun q => { q with old := none }))))) ∧
  (∀ (s : State) (p n : Nat) (bad : List (Nat × Nat)) (shared : List Nat) (maps : Bool),
     (s.winStart + s.windowCycles ≤ s.now → ∃ t, exec .imbalWindowEnd s = .next t ∧ t.chanLoad = [] ∧ t.trayLoad = [] ∧ t.winStart = s.now ∧
       t.imbC = (s.imbalEnd 512 true s.chanLoad s.imbC Reg.PLACE_CHAN_LOAD_HOT_RUN Reg.PLACE_CHAN_LOAD_REQUESTS).2 ∧
       t.ctxs = s.ctxs ∧ ∀ h, (t.obj? h).map (fun o => o.data) = (s.obj? h).map (fun o => o.data)) ∧
     (let fills := (s.waitingFills p).foldl (fun t f => t.retryFill f) s
      exec (.fillRoomRetry p) s = .next ((fills.waitingMoves p).foldl (fun t e => match e.2.move with
        | some m => t.beginMove e.1 m
        | none => t) fills)) ∧
     (∀ f u, s.roomForExtent f.handle (extentOf f.granule) = (u, .made) →
       let v : State := { u with fills := u.fills.map (fun q =>
         if q.handle = f.handle ∧ q.granule = f.granule then { q with waiting := false } else q) }
       s.retryFill f = (v.fillRead f.handle f.granule).getD (v.endFill f.handle f.granule (some stPoison))) ∧
     (s.fget Reg.NME_SCRUB_CTRL_PERIOD_H [] ≠ 0 →
       let t := shared.foldl (fun (t : State) q => t.triggerReset q 2)
         (bad.foldl (fun t b => t.tier1Error b.1 b.2) (s.fsat Reg.NME_ECC_CORRECTED [] n))
       exec (.scrubPatrol n ⟨bad, shared, maps⟩) s = .next (if maps && !t.devFault then t.enterDeviceFault 2 0 else t)) ∧
     (s.fget Reg.NME_SCRUB_CTRL_PERIOD_H [] = 0 → exec (.scrubPatrol n ⟨bad, shared, maps⟩) s = .next s))

/-- R265 to R267, R284, R285: the end of a near-memory operation that waits for no request or snoop and has no failure. Its effect is that of its
length, its descriptor ends with OK and its two results; a PUBLISH ends OK where the word was as expected and CONFLICT where it
was not, with the word found. R287: the combiner of a home. A line for which at least ENTER requests wait enters where there is
room; the oldest request of a line's queue is applied and counted; a line idle for COOL cycles, at least 1, leaves. -/
def Obligations.NearMemoryAndCombiners : Prop :=
  (∀ (s : State) (id : Nat) (n : NmeOp),
     s.nmes.find? (fun e => decide (e.id = id)) = some n → s.opReady id n.arg = true →
     let done := fun (t : State) (st r0 r1 : Nat) =>
       ({ t.dropReqs (.nme id) with nmes := t.nmes.filter (fun e => decide (e.id ≠ id)) } : State).modQp n.qp (fun q =>
         { q with service := q.service.map (fun v => if v.2 = .nme id then (v.1, .done st r0 r1) else v) })
     ((∀ h off e new, n.arg ≠ .publish h off e new) → (∀ r ∈ n.arg.ranges, s.rangeFails (.nme id) r = []) →
       let e := s.nmeEffect n.arg n.arg.len
       exec (.nmeOperationEnd id none) s = .next (done e.1 stOk e.2.1 e.2.2)) ∧
     (∀ h off e new o, n.arg = .publish h off e new → n.found = none → s.obj? h = some o → o.decl = 0 → worst (s.reqFinals (.nme id)) = none →
       s.readStatus o h (off / 64) (s.sentLine (.nme id) h (off / 64)) = none →
       let w := s.doPublish h off e new
       exec (.nmeOperationEnd id none) s = .next (done w.1 (if w.2 = e then stOk else stConflict) w.2 0))) ∧
  (∀ (s : State) (h l k : Nat) (d : HotLine) (ow : ReqOwner) (r : List ReqOwner),
     (s.combinerOf h l = some k → s.fget Reg.XBAR_FAB_CTRL_ENTER [] ≠ 0 →
       s.fget Reg.XBAR_FAB_CTRL_ENTER [] ≤ (s.waitingAt h l).length → s.hotLine h l = none → s.dirEntry h l = none →
       s.coherentWaits h l = false →
       ((s.hot.filter (fun e => decide (e.home = k))).length < 32 →
         exec (.combinerLineEnter h l) s =
           .next { s.dropLineReqs h l ((s.waitingAt h l).take 64) with
             hot := s.hot ++ [⟨k, h, l, (s.waitingAt h l).take 64, s.now⟩] }) ∧
       (32 ≤ (s.hot.filter (fun e => decide (e.home = k))).length →
         exec (.combinerLineEnter h l) s = .next (s.fsat Reg.XBAR_COMB_STAT_FULL_EVT [] 1))) ∧
     (s.hotLine h l = some d →
       (d.queue = ow :: r → s.hotTurn ow = true →
         let t : State := { s with hot := s.hot.map (fun e => if e = d then { e with queue := r, last := s.now } else e) }
         exec (.combinerApply h l) s = .next (((t.applyHot ow l).fwrap Reg.XBAR_COMB_STAT_APPLIED [] 1).finishAccs)) ∧
       (d.queue = [] → d.last + max 1 (s.fget Reg.XBAR_FAB_CTRL_COOL []) ≤ s.now →
         exec (.combinerLineLeave h l) s = .next { s with hot := s.hot.filter (fun e => decide (e ≠ d)) })))

/-- R351, R352: how a descriptor of the queue pair starts. A reserved byte that is not 0 or a privilege the queue pair does not
hold ends it with ACCESS, and a route-map generation that is not in force with MAP_STALE; nothing else changes. Stated for QUERY
and REGISTER (PRIV bit 0), FILL (bit 2) and OWN_CLAIM (bit 4). -/
def Obligations.DescriptorChecks : Prop :=
  ∀ (s u : State) (q : Nat) (d : List Byte),
    s.takeDesc q = some (d, u) →
    ∀ e ∈ [(Instr.query q, 0x0D, 0, [(16, 8)]), (.register q, 0x08, 0, [(16, 20)]), (.fill q, 0x10, 2, [(16, 32)]),
        (.ownClaim q, 0x28, 4, [(16, 8)])],
      field d 0 1 = e.2.1 → s.turn q e.2.1 →
      let priv := bitAt e.2.2.1 (s.fget Reg.CTX_QP_A_PRIV [q])
      ((descClean d e.2.2.2 && priv) = false → exec e.1 s = .next (u.ends q d stAccess 0 0)) ∧
      ((descClean d e.2.2.2 && priv) = true → field d 4 4 ≠ 0 → field d 4 4 ≠ (s.part (s.qpPart q)).routeCur.gen →
        exec e.1 s = .next (u.ends q d stMapStale 0 0))

/-- R353 to R363, R372: RUN starts the members of its queue pair's group, or ends with NOT_OWNER where its object belongs to
another job; CTX_OPEN takes the lowest free context number and its next generation; CTX_CLOSE ends a parked context at once. -/
def Obligations.ContextDescriptors : Prop :=
  ∀ (s u : State) (q c : Nat) (d : List Byte) (x : Ctx),
    (s.starts q 0x01 none [(16, 48)] d u → u.group q ≠ [] → (s.qp q).service = none →
      (field d 16 8 = 0 → exec (.run q) s = .next ((u.setService q d (.run (u.group q) [] false)).beginRun q)) ∧
      (∀ r, field d 16 8 ≠ 0 → u.ownRec (field d 16 8) = some r →
        (r.owner = u.qpJob q →
          exec (.run q) s = .next (((u.modOwn (field d 16 8) (fun y => { y with orphan := false })).setService q d
            (.run (u.group q) [] false)).beginRun q)) ∧
        (r.owner ≠ u.qpJob q → exec (.run q) s = .next (u.ends q d stNotOwner 0 0)))) ∧
    (s.starts q 0x02 (some 1) [(16, 34)] d u →
      let p := u.qpPart q
      let k := field d 36 2
      let win := field d 40 4 * 1024
      openFieldsOk d = true → u.refOk (field d 16 8) p (u.qpTenant q) true false = true →
      (∀ o, u.objOfRef (field d 16 8) = some o → field d 24 8 + 16 ≤ o.size) → u.qpPart k = p → u.qpValid k = true →
      (u.group k).length < 512 → (∀ i ∈ u.group k, ∀ y, u.ctx? i = some y → y.job = field d 32 4) →
      (field d 48 2 = 0 ∨ u.pinnedRoom p (field d 48 2 * 4096) = true) →
      (u.ctxsOf p).length < u.fget Reg.CTX_PART_CFG_CTX_QUOTA [p] → u.carved p = false → u.freeCtx = some c →
      let g := if kvGet 0 u.ctxGens c = 65535 then 1 else kvGet 0 u.ctxGens c + 1
      let y := Ctx.opened d p g (u.qpTenant q) u.drawTag.1
      exec (.ctxOpen q) s =
        .next (({ u.drawTag.2.setCtx c y with ctxGens := kvSet u.drawTag.2.ctxGens c g } : State).ends q d stOk (y.ref c)
          (imageBytes win (field d 44 2) (field d 47 1)))) ∧
    (s.starts q 0x03 (some 1) [(16, 5)] d u → u.ctxOfRef (field d 16 4) = some c → u.ctx? c = some x → x.part = u.qpPart q →
      x.tenant = u.qpTenant q →
      ((field d 20 1 ≤ 1 ∧ x.phase = .parked) ∨ (field d 20 1 = 0 ∧ u.runOpen c x = false) →
        exec (.ctxClose q) s = .next (((u.endRun c x.qp none).removeCtx c).ends q d stOk 0 0)) ∧
      (x.phase ≠ .parked →
        (field d 20 1 = 1 → exec (.ctxClose q) s =
          .next ((u.modCtx c (fun y => { y with abortPending := true })).setService q d (.close c))) ∧
        (field d 20 1 = 0 → u.runOpen c x = true → exec (.ctxClose q) s =
          .next ((u.modCtx c (fun y => { y with closing := true })).setService q d (.close c)))))

/-- R168, R237 to R244, R248, R253: descriptors that act on an object of the queue pair's partition and tenant. REGISTER makes an
object under a LIVE key slot of the tenant and answers its reference; VALIDATE, RELEASE and STEEP withdraw a right at once and wait;
RECLASS stages a move; QUERY answers the size, the class and how much of it is in tier 1. -/
def Obligations.ObjectDescriptors : Prop :=
  ∀ (s u v : State) (q i : Nat) (d : List Byte) (o : Obj),
    let h := refHandle (field d 16 8)
    (s.starts q 0x08 (some 0) [(16, 20)] d u →
      let p := u.qpPart q
      let pin := pinnedClass (field d 24 1)
      let hgen := kvGet 0 (u.part p).hgens i
      (u.mayRegister p (u.qpTenant q) d = false → exec (.register q) s = .next (u.ends q d stAccess 0 0)) ∧
      (1 ≤ field d 16 8 → field d 16 8 ≤ 2 ^ 48 → field d 24 1 ≤ 5 → 1 ≤ field d 25 1 → field d 25 1 ≤ 3 →
        field d 26 2 < 2048 → u.slotPart (field d 26 2) = some p → u.slotState (field d 26 2) = 1 →
        u.fget Reg.SEC_KS_A_TENANT [field d 26 2] = field d 28 4 → field d 28 4 = u.qpTenant q →
        u.objs.length < 4194304 → (u.objsOf p).length < u.fget Reg.PART_CFG_A_OBJ_QUOTA [p] →
        u.objOfDecl p (field d 32 4) = none →
        (if pin then u.pinnedRoom p (field d 16 8) else u.trayRoom p (field d 16 8)) = true →
        u.freeIndex p ((u.objsOf p).length + (u.part p).hgens.length + 1) 1 = some i →
        let room := u.makeRoom p (if pin then field d 16 8 else 0) (u.extentCount p)
        let obj := Obj.registered d hgen (u.fget Reg.SEC_KS_A_GEN [field d 26 2]) v.draw.1 u.livePairs
        (room = (v, .made) →
          exec (.register q) s =
            .next (({ v.draw.2 with objs := kvSet v.draw.2.objs (p * 2 ^ 28 + i) obj } : State).ends q d stOk
              (mkRef (p * 2 ^ 28 + i) hgen) 0)) ∧
        (room = (v, .wait) → exec (.register q) s = .next (v.ends q d stBusy 0 0)) ∧
        (room = (v, .writing) → exec (.register q) s = .next (v.setService q d .register)))) ∧
    (u.qpObj q (field d 16 8) = some o →
      (s.starts q 0x09 (some 0) [(16, 8)] d u →
        exec (.validate q) s =
          .next ((u.modObj h (fun r => { r with wr := false, validating := true })).setService q d (.validate h))) ∧
      (s.starts q 0x0A (some 0) [(16, 8)] d u →
        exec (.release q) s = .next ((u.modObj h (fun r => { r with releasing := true })).setService q d (.release h))) ∧
      (s.starts q 0x0B (some 0) [(16, 9)] d u → field d 24 1 ≤ 5 →
        (pinnedClass (field d 24 1) = pinnedClass o.cls ∨
          (if pinnedClass (field d 24 1) then u.pinnedRoom (u.qpPart q) o.size else u.trayRoom (u.qpPart q) o.size) = true) →
        exec (.reclass q) s = .next ((u.stageMove h (field d 24 1) u.livePairs).ends q d stOk 0 0)) ∧
      (s.starts q 0x0D (some 0) [(16, 8)] d u →
        exec (.query q) s =
          .next (u.ends q d stOk o.size (o.cls + (if o.move.isSome then 256 else 0) + 65536 * o.tier1Granules)))) ∧
    (∀ c x, s.starts q 0x0C (some 0) [(16, 16)] d u → u.ctxOfRef (field d 16 4) = some c → u.ctx? c = some x →
      x.part = u.qpPart q → u.qpObj q (field d 24 8) = some o → o.cls = 5 →
      exec (.steep q) s = .next ((u.modObj (refHandle (field d 24 8)) (fun r => { r with wr := false })).setService q d
        (.steep c (refHandle (field d 24 8)) (field d 20 4)))) ∧
    (∀ c, (s.starts q 0x09 (some 0) [(16, 8)] d u → u.qpObj q (field d 16 8) = none →
        exec (.validate q) s = .next (u.ends q d stAccess 0 0)) ∧
      (s.starts q 0x0C (some 0) [(16, 16)] d u → u.ctxOfRef (field d 16 4) = some c → u.qpObj q (field d 24 8) = some o →
        o.cls ≠ 5 → exec (.steep q) s = .next (u.ends q d stAccess 0 0)))

/-- R265, R266, R284, R364, R366: descriptors that start a near-memory operation on ranges the queue pair may use, and MAP_STAGE,
which stages the entries of an object as the next generation of the partition's route map. -/
def Obligations.OperationDescriptors : Prop :=
  ∀ (s u : State) (q : Nat) (d : List Byte),
    let at16 := refHandle (field d 16 8)
    let at32 := refHandle (field d 32 8)
    let n := field d 48 8
    let begin := fun (a : NmeArg) => (Host.Outcome.next ((u.startNme q a).1.setService q d (u.startNme q a).2) : Outcome)
    (s.starts q 0x10 (some 2) [(16, 32)] d u → nmeLen (field d 32 8) = true →
      u.rangeOk q (field d 16 8) (field d 24 8) (field d 32 8) false true = true →
      exec (.fill q) s = begin (.fill at16 (field d 24 8) (field d 32 8) (field d 40 8))) ∧
    (nmeLen n = true → u.rangeOk q (field d 16 8) (field d 24 8) n true false = true →
      (s.starts q 0x11 (some 2) [(16, 40)] d u → u.rangeOk q (field d 32 8) (field d 40 8) n false true = true →
        exec (.copy q) s = begin (.copy at16 (field d 24 8) at32 (field d 40 8) n)) ∧
      (s.starts q 0x12 (some 2) [(16, 40)] d u → u.rangeOk q (field d 32 8) (field d 40 8) n true false = true →
        exec (.compare q) s = begin (.compare at16 (field d 24 8) at32 (field d 40 8) n))) ∧
    (s.starts q 0x13 (some 2) [(16, 19), (40, 8)] d u →
      let k := field d 32 1
      let len := field d 40 8
      let off := field d 24 8
      let src := fun (i : Nat) => (u.wordAt at16 (off + 16 * i), u.wordAt at16 (off + 16 * i + 8))
      2 ≤ k → k ≤ 16 → field d 33 1 ∈ reduceFormats (field d 34 1) → nmeLen len = true →
      (∀ f, Fmt.ofCode (field d 33 1) = some f → len % f.bytes = 0) → (Fmt.ofCode (field d 33 1)).isSome = true →
      u.rangeOk q (field d 16 8) off (16 * (k + 1)) true false = true → u.scanStatus at16 [(off, 16 * (k + 1))] = none →
      (∀ i, i < k → u.rangeOk q (src i).1 (src i).2 len true false = true) →
      u.rangeOk q (src k).1 (src k).2 len false true = true →
      exec (.reduce q) s = begin (.reduce ((List.range k).map (fun i => (refHandle (src i).1, (src i).2)))
        (refHandle (src k).1) (src k).2 (field d 33 1) (field d 34 1) len)) ∧
    (s.starts q 0x18 none [(16, 32)] d u → field d 24 8 % 8 = 0 →
      u.rangeOk q (field d 16 8) (field d 24 8) 8 true true = true →
      exec (.publish q) s = begin (.publish at16 (field d 24 8) (field d 32 8) (field d 40 8))) ∧
    (s.starts q 0x20 (some 3) [(16, 12)] d u →
      let p := u.qpPart q
      let m := field d 24 4
      let es := (List.range m).map (fun i => u.bytesAt at16 (32 * i) 32)
      let map := es.zipIdx.foldl (fun (a : KV (List Byte)) e => if reKind e.1 = 0 then a else kvSet a e.2 e.1) []
      1 ≤ m → m ≤ 8192 → u.rangeOk q (field d 16 8) 0 (32 * m) true false = true → u.scanStatus at16 [(0, 32 * m)] = none →
      (∀ e ∈ es, u.entryOk p e = true) → noOverlap es = true →
      exec (.mapStage q) s =
        .next ((u.modPart p (fun x => { x with
          routeStaged := if map = (u.part p).routeCur.entries ∧ u.routeClosing p = false then none else some map })).ends q d stOk
            ((u.part p).routeCur.gen + 1) 0))

/-- R368 to R371: ownership of an object reference. A free reference is claimed at epoch 0; the owner offers it once at its epoch;
only the job it is offered to accepts it, at the next epoch; the owner drops it; an offer lapses OWN_T microseconds after it was
made. Every other attempt ends with NOT_OWNER, or with BUSY while an offer stands, and changes no record. An
event that is not yet due changes nothing: the model's choice, assumption 3. -/
def Obligations.Ownership : Prop :=
  ∀ (s u : State) (q : Nat) (d : List Byte) (o : Obj) (r : OwnRec),
    let ref := field d 16 8
    let job := u.qpJob q
    let e := field d 24 8
    u.qpObj q ref = some o →
    (s.starts q 0x28 (some 4) [(16, 8)] d u →
      (u.ownRec ref = none → u.own.length < 65536 →
        exec (.ownClaim q) s = .next (({ u with own := u.own ++ [⟨ref, job, 0, none, false⟩] } : State).ends q d stOk 0 0)) ∧
      (u.ownRec ref = some r →
        (r.owner = job → exec (.ownClaim q) s =
          .next ((u.modOwn ref (fun y => { y with orphan := false })).ends q d stOk r.epoch 0)) ∧
        (r.owner ≠ job → exec (.ownClaim q) s = .next (u.ends q d stNotOwner 0 0)))) ∧
    (u.ownRec ref = some r →
      (s.starts q 0x29 (some 4) [(16, 20)] d u →
        (r.owner = job ∧ r.epoch = e ∧ r.offer = none → exec (.ownOffer q) s =
          .next ((u.modOwn ref (fun y => { y with offer := some (field d 32 4, u.now), orphan := false })).ends q d stOk 0 0)) ∧
        (r.owner = job ∧ r.epoch = e ∧ r.offer ≠ none → exec (.ownOffer q) s = .next (u.ends q d stBusy 0 0)) ∧
        (r.owner ≠ job ∨ r.epoch ≠ e → exec (.ownOffer q) s = .next (u.ends q d stNotOwner 0 0))) ∧
      (s.starts q 0x2A (some 4) [(16, 16)] d u →
        (∀ t, r.offer = some (job, t) → e = (r.epoch + 1) % 2 ^ 64 → exec (.ownAccept q) s =
          .next ((u.modOwn ref (fun y => { y with
            owner := job
            epoch := (r.epoch + 1) % 2 ^ 64
            offer := none
            orphan := false })).ends q d stOk 0 0)) ∧
        ((∀ t, r.offer ≠ some (job, t)) ∨ e ≠ (r.epoch + 1) % 2 ^ 64 →
          exec (.ownAccept q) s = .next (u.ends q d stNotOwner 0 0))) ∧
      (s.starts q 0x2B (some 4) [(16, 16)] d u →
        (r.owner = job ∧ r.epoch = e ∧ r.offer = none → exec (.ownDrop q) s =
          .next (({ u with own := u.own.filter (fun y => decide (y.ref ≠ ref)) } : State).ends q d stOk 0 0)) ∧
        (r.owner ≠ job ∨ r.epoch ≠ e → exec (.ownDrop q) s = .next (u.ends q d stNotOwner 0 0)))) ∧
    (∀ a t, s.ownRec a = some r → r.offer = some t →
      (t.2 + max 1 (s.fget Reg.CTX_CFG_OWN_T []) * 1700 ≤ s.now → exec (.offerLapse a) s = .next (s.lapseOffer r true)) ∧
      (s.now < t.2 + max 1 (s.fget Reg.CTX_CFG_OWN_T []) * 1700 → exec (.offerLapse a) s = .next s))

/-- R349, R350: the completion of a descriptor that has ended is written where its ring has a free entry: the next of the ring, with
the phase bit of its lap, in pilot host memory or in the ring's object; the queue pair is then free for its next descriptor. -/
def Obligations.CompletionsWritten : Prop :=
  ∀ (s : State) (q hc st r0 r1 : Nat) (d : List Byte),
    s.qpValid q = true → (s.qp q).service = some (d, .done st r0 r1) →
    let p := s.qpPart q
    let n := (s.qp q).written
    let size := s.cqSize q
    let off := 64 + 32 * (n % size)
    let ref := s.fget Reg.CTX_QP_B_CQ_BASE [q]
    let entry := completionEntry (field d 8 8) st (n / size % 2) ((s.qp q).taken % 2 ^ 16) r0 r1
    let done := fun (t : State) => (Host.Outcome.next ((t.digestAdd p [5, q, field d 8 8, st, r0, r1]).modQp q (fun y => { y with
      service := none
      written := y.written + 1
      reported := false })) : Outcome)
    n < (s.qp q).consumed + size →
    (s.cqHost q = true → s.suppressed p = false →
      exec (.completionWrite q hc) s = done ((s.modQp q (fun y => { y with consumed := (s.qp q).consumed })).emit
        (.hostWrite (ref + off) entry))) ∧
    (s.cqHost q = false → s.ringOk q (off + 32) = true →
      (∀ l ∈ blocksOf 64 off 32, s.snooping (refHandle ref) l = false ∧
        ∀ e, s.dirEntry (refHandle ref) l = some e → e.conflicts true = false) →
      exec (.completionWrite q hc) s = done ((s.modQp q (fun y => { y with consumed := (s.qp q).consumed })).storeObj
        (refHandle ref) off entry))

/-- R563: the register map. Every register has an offset for each of its index values, and that offset is its own: looking it up
gives that register and those indices, so no two registers share an offset. -/
def Obligations.RegisterMapResolves : Prop :=
  (∀ (r : RegName) (ix : List Nat), indexOk r.desc.dims ix = true → regAt (r.addr ix) = some (r, ix)) ∧
  (∀ (off : Nat) (r : RegName) (ix : List Nat), regAt off = some (r, ix) →
    off = r.addr ix ∧ off % 8 = 0 ∧ indexOk r.desc.dims ix = true)

/-- R5 to R7, R31, R46, R47, R402, R405, R437, R562: what an access of the pilot function does. An access that is not an aligned
word of 8 bytes, a write without the privilege the register asks for, and one of a partition that is not valid are dropped with a
record, and a read so dropped returns 0; a write that only its access codes govern puts each field where its code says, and a read
returns the register. Nothing is written while BAR0 is closed. The management core stages a value only in the staged copy of a
register, and raises the device flag. An item of the configuration reads as the table gives it. -/
def Obligations.RegisterWrites : Prop :=
  ∀ (s : State) (off n p : Nat) (v : Word) (r : RegName) (ix : List Nat) (i : ConfigItem),
    (s.bar0Open = true → (n ≠ 8 ∨ off % 8 ≠ 0) →
      exec (.bar0UnalignedAccess off ⟨true, n⟩) s = .next (s.refuseAccess off) ∧
      exec (.bar0UnalignedAccess off ⟨false, n⟩) s = .next ((s.refuseAccess off).emit (.bar0 off 0))) ∧
    (s.bar0Open = false → exec (.registerWrite off (.write v)) s = .next s) ∧
    (s.bar0Open = true → regAt off = some (r, ix) →
      (r.desc.owner = .first → s.partValid (ix.headD 0) = false →
        exec (.registerWrite off (.write v)) s = .next (s.refuseAccess off)) ∧
      (s.holdsPriv r.desc.wpriv (s.regPart r ix) = false →
        exec (.registerWrite off (.write v)) s = .next (s.refuseAccess off)) ∧
      (s.mayWrite r ix → s.writeSpecial r ix v = none →
        let old := s.regW r ix
        let rw := r.mask .rw
        let plain := s.setRegW r ix (((old &&& ~~~ rw) ||| (v &&& rw)) &&& ~~~ (v &&& r.mask .w1c))
        let both := if r.mask .st = 0 then plain else plain.setStagedW r ix v
        ((v ^^^ old) &&& r.mask .sl = 0 → exec (.registerWrite off (.write v)) s = .next both) ∧
        ((v ^^^ old) &&& r.mask .sl ≠ 0 → s.fget Reg.PART_SEAL_SEALED [] = 1 →
          exec (.registerWrite off (.write v)) s = .next (both.refuseAccess off))) ∧
      (s.holdsPriv r.desc.rpriv (s.regPart r ix) = true →
        exec (.registerWrite off .read) s = .next (s.emit (.bar0 off (s.readReg r ix)))) ∧
      (s.holdsPriv r.desc.rpriv (s.regPart r ix) = false →
        exec (.registerWrite off .read) s = .next ((s.refuseAccess off).emit (.bar0 off 0)))) ∧
    (s.pwr.phase = .ready → regAt off = some (r, ix) → s.regPart r ix = some p →
      (r.mask .st ≠ 0 → s.partValid p = true →
        exec (.registerWrite off (.health v)) s = .next ((s.setStagedW r ix v).raiseDev p)) ∧
      (r.mask .st = 0 → exec (.registerWrite off (.health v)) s = .next (s.refuseAccess off))) ∧
    (s.fget Reg.LINK_PILOT_STAT_CXL_UP [] ≠ 0 →
      (s.pilot.ready = true → exec (.registerWrite off (.config i)) s = .next (s.emit (.config i (pilotConfig i)))) ∧
      (s.pilot.ready = false → exec (.registerWrite off (.config i)) s = .next (s.emit (.configRetry i))))

/-- R7, R454: the sealed tables do not change after seal. No access of a register, whatever its offset and value, changes an SL
field while SEALED is 1. -/
def Obligations.SealedTablesFixed : Prop :=
  ∀ (s : State) (off : Nat) (a : Access),
    s.fget Reg.PART_SEAL_SEALED [] = 1 → ∃ t, exec (.registerWrite off a) s = .next t ∧ t.sl = s.sl

/-- R46, R319, R347, R416, R422, R449, R467, R482, R485, R490, R493, R502, R506, R518: the writes that command something, by a host
that may make them. -/
def Obligations.CommandWrites : Prop :=
  ∀ (s : State) (n : Nat) (bits : BitVec 16) (ref key h32 : BitVec 32) (ps : BitVec 2) (u : BitVec 5) (w : Word),
    (s.mayWrite .GLB_ORB_RAISE [] → exec (.orbRaise bits) s =
      .next (let named := partIds.filter (fun p => bitAt p bits.toNat)
        let t := (named.filter s.controls).foldl State.raiseHost s
        if named.all s.controls then t else t.refuseAccess (RegName.GLB_ORB_RAISE.addr []))) ∧
    (n < 8192 → s.mayWrite .QPDB_D [n, 7] → s.fget Reg.CTX_QP_A_DB_FABRIC [n] = 0 → s.controls (s.qpPart n) = true →
      s.partValid (s.qpPart n) = true → s.qpValid n = true → s.suppressed (s.qpPart n) = false →
      exec (.pilotDoorbell n w) s =
        .next ((s.modQp n (fun x => { x with bell := kvPut 0 x.bell 7 w })).pushDesc n ((s.qp n).bellBytes w))) ∧
    (n < 256 → s.mayWrite .XBAR_TAG_BUDGET [n] → bitsOf 16 0 w.toNat ≤ min 65536 (bitsOf 45 29 w.toNat) →
      s.minSum - s.fget Reg.XBAR_TAG_BUDGET_TAG_MIN [n] + bitsOf 16 0 w.toNat ≤ 65536 →
      exec (.xbarTagBudget n w) s = .next (s.writeFields .XBAR_TAG_BUDGET [n] w).1) ∧
    (n < 256 → s.mayWrite .LINK_PORT_CTRL [n] →
      let t := s.writePstate n ps.toNat
      exec (.retrain n ps) s = .next (t.trigger n 2 .command) ∧
      exec (.pstateReq n ps) s = .next t) ∧
    (s.mayWrite .GLB_CYC_SNAP [] → exec .snap s = .next (s.writeSnap 2)) ∧
    (s.mayWrite .SEC_KD_CTRL [] → exec .submit s = .next s.submitKey) ∧
    (n < 16 → s.mayWrite .ERR_PQ_PTR [n] → exec (.errHead n h32) s = .next (s.setErrHead n h32.toNat)) ∧
    (s.mayWrite .ERR_DQ_PTR [] → exec (.errHead 16 h32) s = .next { s with devq := s.devq.setHead 1024 h32.toNat }) ∧
    (n < 16 → s.mayWrite .ERR_PQ_STAT [n] → (s.part n).errq.used ≠ 128 → s.devFault = false →
      exec (.fenced n) s = .next (s.modPart n (fun x => { x with fenced := false }))) ∧
    (∀ c x, s.mayWrite .ERR_CTX_ABORT [] → s.ctxOfRef ref.toNat = some c → s.ctx? c = some x → s.controls x.part = true →
      exec (.errCtxAbort ref) s = .next (s.markAbort c)) ∧
    (s.mayWrite .ERR_PART_RESET [] → exec (.errPartReset bits) s =
      .next (let named := partIds.filter (fun p => bitAt p bits.toNat)
        let t := (named.filter s.controls).foldl (fun t p => t.triggerReset p 4) s
        if named.all s.controls then t else t.refuseAccess (RegName.ERR_PART_RESET.addr []))) ∧
    (s.mayWrite .ERR_DEV_RESET [] → s.manages = true →
      exec (.errDevReset 0x54535244) s = .next { s with devResetDue := true } ∧
      (key ≠ 0x54535244 → exec (.errDevReset key) s = .next (s.refuseAccess (RegName.ERR_DEV_RESET.addr [])))) ∧
    (n < 24 → s.mayWrite .PLACE_TRAY_CTRL [n] →
      let t := s.fset Reg.PLACE_TRAY_CTRL_PARTNER [n] u.toNat
      exec (.pair n u) s = .next (t.formPair n u.toNat (RegName.PLACE_TRAY_CTRL.addr [n])) ∧
      exec (.expel n u) s = .next (t.modMir (fun m => { m with due := setIns m.due n })).updateHold)

/-- R467 to R469: a submitted key-delivery record that keeps its form, names a slot under the host's control that is empty and free
of delivery starts the security island's work; any other ends at once, its status in STATUS. -/
def Obligations.KeySubmission : Prop :=
  ∀ (s : State), s.mayWrite .SEC_KD_CTRL [] →
    (s.fget Reg.SEC_KD_STAT_BUSY [] = 1 → exec .submit s = .next s) ∧
    (s.fget Reg.SEC_KD_STAT_BUSY [] = 0 →
      let d := s.kdBytes
      let t := s.fset Reg.SEC_KD_STAT_DONE [] 0
      (kdForm d = true → t.kdControl d = true → t.kdEmpty d = none → t.kdFree d = true →
        exec .submit s = .next { t.fset Reg.SEC_KD_STAT_BUSY [] 1 with kdRec := some d }) ∧
      (kdForm d = false →
        exec .submit s = .next ((t.appendDev (Rec.noPart stAccess clsRefusal 4 0 0 (kdSlot d) 0 s.now)).kdEnd stAccess)))

/-- R36 to R48: the orbit boundary of a partition. Where one is due it begins with its freeze; each further step of the swap is
performed in its order, the staged state that closed at the freeze and no other taking effect, and the release ends the swap after
at most 890 XBAR cycles; a flag raised for longer than ORB_LIMIT without one is reported once. A partition reset that is due lets no
further step run. R44, R60, R96, R142, R362: the copies that park and resume a context. A parked context keeps the cycle counts of
its strand, whose counters are 0 again, and gives up its slot; a resumed one is resident with its counts in its strand's counters. A
copy that fails resets the partition. An event that is not yet due changes nothing: the model's choice, assumption 3. -/
def Obligations.OrbitsParkingAndResuming : Prop :=
  (∀ (s : State) (p c : Nat) (w : Swap),
     ((s.part p).swap = none → s.partValid p = true → s.boundaryDue p = true → (s.part p).fenced = false →
       (s.part p).held = false → (s.part p).resetDue = none → exec (.orbitBoundary p) s = .next (s.freeze p)) ∧
     ((s.part p).swap = none → s.boundaryDue p = false → exec (.orbitBoundary p) s = .next s) ∧
     ((s.part p).swap = some w → (s.part p).resetDue ≠ none → exec (.orbitBoundary p) s = .next s) ∧
     ((s.part p).swap = some w → (s.part p).resetDue = none →
       let goes := fun (t : State) (k : SwapStep) => exec (.orbitBoundary p) s = .next (t.modSwap p (fun v => { v with next := k }))
       (w.next = .snapshot → goes (s.snapshot p w) .keys) ∧
       (w.next = .keys → goes (s.keysStep p w.keys) .maps) ∧
       (w.next = .maps → goes (s.routeStep p w) .shares) ∧
       (w.next = .shares → goes (s.sharesStep p w) .placement) ∧
       (w.next = .placement → goes (s.placementStep p w) .visibility) ∧
       (w.next = .visibility → goes (s.modPart p (fun x => { x with visibility := x.orbit })) .parking) ∧
       (w.next = .parking → goes (s.parkingStep p) .release) ∧
       (w.next = .release → s.now ≤ w.start + 889 →
         ∃ t, exec (.orbitBoundary p) s = .next t ∧ (t.part p).swap = none ∧
           t.fget Reg.GLB_ORB_PAUSE_LAST_PAUSE [p] = s.now + 1 - w.start)) ∧
     (let lim := s.fget Reg.GLB_ORB_LIMIT_ORB_LIMIT []
      (s.part p).raisedAt = some c → s.partValid p = true →
       (lim ≠ 0 → c + lim < s.now → (s.part p).reported = false →
         let t := s.modPart p (fun x => { x with overdue := true, reported := true })
         exec (.overdue p) s =
           .next ((t.appendPart (Rec.ofPart p stBusy clsOrbit 1 0 (t.part p).orbit (t.orbStat p) t.now)).emit (.msix 2))) ∧
       ((lim = 0 ∨ s.now ≤ c + lim ∨ (s.part p).reported = true) → exec (.overdue p) s = .next s))) ∧
  (∀ (s : State) (c sl : Nat) (x : Ctx),
     s.ctx? c = some x → x.slot = some sl →
     (x.phase = .parking → x.comets = [] → x.outst = none →
       let counts := (List.range 9).map (fun k => (s.regW .MOON_CYC [sl / 8, sl % 8, k]).toNat % 2 ^ 64)
       let cleared := (List.range 9).foldl (fun t k => t.setRegW .MOON_CYC [sl / 8, sl % 8, k] 0) s
       let y := { x with phase := .parked, held := false, code := none, slot := none, cycles := counts }
       exec (.contextParkCopyDone c false) s = .next (if (cleared.setCtx c y).runnable c y
         then (cleared.setCtx c y).idleEvent x.part else cleared.setCtx c y) ∧
       exec (.contextParkCopyDone c true) s = .next (s.triggerReset x.part 2)) ∧
     (x.phase = .resuming → x.abortPending = false → s.leaving (sl / 8) = false →
       let y := { x with phase := .resident, held := s.inSwap x.part }
       exec (.contextResumeCopyDone c false) s = .next (((s.setCtx c y).loadCounts y sl).startMember c) ∧
       exec (.contextResumeCopyDone c true) s = .next (s.triggerReset x.part 2)))

/-- R86, R294, R296, R489 to R494, R500 to R502: containment. A context's abort ends it and frees its number; a job teardown is
recorded, orphans what the job owned and aborts its contexts; a crashed accelerator's lines are orphaned once; a Moon that leaves
service loses its contexts; a partition reset runs between its two records. -/
def Obligations.Containment : Prop :=
  ∀ (s : State) (c p job n m k : Nat) (x : Ctx) (t : Nat × Nat × Nat × Nat),
    (s.ctx? c = some x → x.abortPending = true → s.inSwap x.part = true → exec (.contextAbort c) s = .next s) ∧
    (s.ctx? c = some x → x.abortPending = true → s.inSwap x.part = false → (∀ q ∈ s.qps, ∀ d, q.2.service ≠ some (d, .close c)) →
      (∀ q ∈ (s.abortCtx c).qps, ∀ d, q.2.service ≠ some (d, .close c)) →
      exec (.contextAbort c) s = .next (s.abortCtx c)) ∧
    (s.teardowns.find? (fun e => decide (e.1 = p) && decide (e.2.1 = job)) = some t →
      let u := ({ s with teardowns := s.teardowns.erase t } : State).appendBoth
        (Rec.ofPart p stPoison clsTeardown t.2.2.1 2 (job * 2 ^ 32) t.2.2.2 s.now)
      exec (.jobTeardown p job) s = .next ((u.orphanOwned p job).endJob p job)) ∧
    (n < 256 → s.discRole n = 1 →
      (s.crashed.contains n = true → exec (.acceleratorCrash n) s = .next s) ∧
      (s.crashed.contains n = false → ∃ u, exec (.acceleratorCrash n) s = .next u ∧ u.crashed.contains n = true ∧
        u.viral.contains n = false ∧ (∀ q ∈ u.snoops, q.port ≠ n))) ∧
    (s.moonInService m = true →
      let u := (s.fset Reg.GLB_MOON_AVAIL_MOON_IN_SERVICE [] (s.fget Reg.GLB_MOON_AVAIL_MOON_IN_SERVICE [] - 2 ^ m)).appendDev
        (Rec.noPart stAborted clsUnit 1 4 m 0 0 s.now)
      let on := u.ctxs.filter (fun e => decide (e.2.phase ≠ .parked) && (match e.2.slot with
        | some sl => decide (sl / 8 = m)
        | none => false))
      exec (.moonLeavesService m) s = .next (partIds.foldl
        (fun t q => ((t.lostJobs q).foldl (fun v j => v.loseJob q j) t).redeal q) (on.foldl (fun t e => t.loseCtx e.1 e.2) u))) ∧
    ((s.part p).resetDue = some k → s.partValid p = true →
      let ended := (s.ctxs.filter (fun e => decide (e.2.part = p) && !e.2.abortPending)).length
      let u := ((((s.resetRec p 1 3 k 0).openWindow p .partition).shadowFail p 6).resetSteps p).resetRec p 2 0 k ended
      exec (.partitionReset p) s = .next (u.modPart p (fun y => { y with
        windows := []
        resetDue := none
        executed := false
        fenced := u.devFault
        resets := min 0xFFFF (y.resets + 1) })))

/-- R355, R360, R491: what an abort leaves. The context's number is free, none of its requests waits at the crossbar or in a stack,
and the registers and scratch of every other context are as they were. -/
def Obligations.AbortedContextsAreGone : Prop :=
  ∀ (s : State) (c : Nat) (x : Ctx),
    s.ctx? c = some x → x.abortPending = true → s.inSwap x.part = false → kvSorted s.ctxs = true →
    ∃ t, exec (.contextAbort c) s = .next t ∧ t.ctx? c = none ∧
      (∀ r ∈ t.reqs, ∀ id, r.owner = .comet c id ∨ r.owner = .instr c id →
        r.state ≠ .queued ∧ r.state ≠ .needsTag ∧ r.tier ≠ 1) ∧
      ∀ d y, d ≠ c → s.ctx? d = some y → ∃ z, t.ctx? d = some z ∧
        z.s = y.s ∧ z.v = y.v ∧ z.p = y.p ∧ z.st = y.st ∧ z.ac = y.ac ∧ z.xa = y.xa ∧ z.scratch = y.scratch ∧ z.tables = y.tables

/-- R273, R275, R277, R380, R382: the requests of an accelerator that pass every check of ingress. A read or write enters the
input buffer as a cell for the crossbar output of its line's home, its account that of the object's tenant and the entry's class;
the end of a hold takes the port out of the line's holders and is answered with Cmp; MEMSPECRD is discarded. -/
def Obligations.AcceleratorRequestsEnter : Prop :=
  ∀ (s : State) (m : M2S) (p l : Nat) (x : List Byte) (o : Obj) (any : Bool) (data : List Byte) (en : Nat),
    let h := refHandle (reRef x)
    let id := s.fresh.1
    let u := s.fresh.2
    let ch := u.chargeFor p o.tenant (reClass x)
    let enter := fun (wr ex : Bool) (bs : List Byte) (mask : List Bool) =>
      (Host.Outcome.next (({ u with accs := u.accs ++ [{
          id := id, port := m.port, tag := m.tag, write := wr, excl := ex, coh := reCoh x, handle := h, line := l, bytes := bs
          mask := mask, part := p, job := reJob x, gen := (s.part p).routeCur.gen, src := m.who, addr := m.addr, charge := ch
          home := false }] } : State).cellArrives m.port ⟨id, u.homeOut o h l wr, ch, m.spid, h, 80, u.cellTag p, .request id,
            if wr then .m2sRwD else .m2sReq⟩) : Outcome)
    (s.admits m false p x o l →
      exec (.memrd m.port m.spid m.dpid m.tag m.addr any) s = enter false (any && reCoh x) [] [] ∧
      exec (.memrddata m.port m.spid m.dpid m.tag m.addr any) s = enter false (any && reCoh x) [] [] ∧
      (let t := s.modDir h l (fun d => { d with
        holders := setDel d.holders m.port
        excl := d.excl && !d.holders.contains m.port })
       let v := ({ t with dir := t.dir.filter (fun d => d.wide || !d.holders.isEmpty) } : State).respond m.port 6 m.port (.cmp m.port m.tag)
       exec (.meminv m.port m.spid m.dpid m.tag m.addr) s = .next v ∧
       exec (.meminvnt m.port m.spid m.dpid m.tag m.addr) s = .next v)) ∧
    (s.admits m true p x o l → data.length = 64 →
      exec (.memwr m.port m.spid m.dpid m.tag m.addr data) s = enter true false data (List.replicate 64 true) ∧
      exec (.memwrptl m.port m.spid m.dpid m.tag m.addr data en) s =
        enter true false data ((List.range 64).map (fun i => bitAt i en))) ∧
    (s.takesFlit m.port → exec (.memspecrd m.port) s = .next s)

/-- R273, R275, R276, R296: a request of an accelerator that fails a check. The first check that fails names the count and the
record, and the request is answered with poisoned data or Cmp; one from a crashed accelerator vanishes, and one before the link is
secure is discarded and counted; one before the PBR IDs are assigned is discarded. -/
def Obligations.AcceleratorRequestsRefused : Prop :=
  ∀ (s : State) (m : M2S) (any : Bool),
    let read := exec (.memrd m.port m.spid m.dpid m.tag m.addr any) s
    let inv := exec (.meminv m.port m.spid m.dpid m.tag m.addr) s
    (s.active m.port = false → read = .next s) ∧
    (s.active m.port = true → s.secure m.port = false → read = .next (s.fsat Reg.LINK_IDE_STAT_DISCARDS [m.port] 1)) ∧
    (s.active m.port = true → s.secure m.port = true → s.addressed m.port = false → read = .next s) ∧
    (s.takesFlit m.port → (s.role m.port = 1 → s.poolRoom m.port .m2sReq 1 = true) →
      (s.crashed.contains m.port = true → read = .next s) ∧
      (s.crashed.contains m.port = false →
        let refuse := fun (t : State) => t.appendDev (Rec.noPart stAccess clsRefusal 2 0 0 m.addr m.who s.now)
        (s.viral.contains m.port = true → read = .next (s.foreign.answerEmpty m.port m.tag false)) ∧
        (s.viral.contains m.port = false →
          (s.role m.port ≠ 1 ∨ s.ownPbr ≠ some m.dpid →
            read = .next ((refuse s.foreign).answerEmpty m.port m.tag false) ∧
            inv = .next ((refuse s.foreign).answerEmpty m.port m.tag true)) ∧
          (s.role m.port = 1 → s.ownPbr = some m.dpid →
            (s.pbrOfPort m.port ≠ some m.spid →
              read = .next ((refuse (s.fsat Reg.XBAR_FAB_REFUSE_SPID [] 1)).answerEmpty m.port m.tag false)) ∧
            (s.pbrOfPort m.port = some m.spid → s.findWindow m.spid m.addr = none →
              read = .next ((refuse (s.fsat Reg.XBAR_FAB_REFUSE_WINDOW [] 1)).answerEmpty m.port m.tag false))))))

/-- R262, R263, R276, R282, R291, R292, R296, R304, R382, R385, R386: responses. A snoop's answer, or a tray's response to a request,
comes to the response pool of its port, and its tag is free; a snoop's answer that answers none, any other M2S opcode, and a tray's
response to no tag are counted in FOREIGN; the data of the read that precedes a partial store lets its write follow; a snoop
unanswered for BI_TIMEOUT cycles crashes its accelerator. An event that is not yet due changes nothing: the model's choice,
assumption 3. -/
def Obligations.FabricResponses : Prop :=
  ∀ (s : State) (n h l id tag : Nat) (q : Snoop) (r : Req) (keep poison abort : Bool) (data : Option (List Byte)),
    s.takesFlit n →
    let answer := if keep then Instr.birsps n h l else .birspi n h l
    let out := s.snoops.find? (fun e => e.sent && !e.back && decide (e.port = n) && decide (e.handle = h) && decide (e.line = l))
    let limit := if s.fget Reg.XBAR_FAB_CTRL_BI_TIMEOUT [] = 0 then 1700 else s.fget Reg.XBAR_FAB_CTRL_BI_TIMEOUT []
    (s.crashed.contains n = false →
      (out = some q → s.rspRoom n .birsp = true → exec answer s =
        .next (({ s with snoops := s.snoops.map (fun k => if k = q then { k with back := true } else k) } : State).rspArrives n
          (s.homePort h l) 7 (s.cellTag (handlePart h)) (.birsp h l keep) .birsp)) ∧
      (out = none → exec answer s = .next s.foreign)) ∧
    (out = some q →
      (q.since + limit ≤ s.now → exec (.biTimeout n h l) s = .next (s.crashAccel n).finishAccs) ∧
      (s.now < q.since + limit → exec (.biTimeout n h l) s = .next s)) ∧
    (s.crashed.contains n = false →
      exec (.m2sOtherOpcode n tag 0) s = .next s.foreign ∧
      exec (.m2sOtherOpcode n tag 1) s = .next (s.foreign.answerEmpty n tag false) ∧
      exec (.m2sOtherOpcode n tag 2) s = .next (s.foreign.answerEmpty n tag true)) ∧
    (s.role n = 2 → s.rspRoom n .drs = true → s.rspRoom n .ndr = true →
      (s.outstanding n id = none →
        exec (.s2mDrs n id ⟨data, poison⟩ abort) s = .next s.foreign ∧ exec (.s2mNdr n id abort) s = .next s.foreign) ∧
      (s.outstanding n id = some r →
        let cell := fun (t : State) (p a d : Bool) => (t.modReq r.id (fun e => { e with state := .returning })).rspArrives n r.inp 6
          (t.cellTag r.part) (.answer r.id p a d) (if d then .drs else .ndr)
        let got := match data with
          | some b => s.fromTray r.handle r.line b
          | none => s
        ((poison || abort) = true → exec (.s2mDrs n id ⟨data, poison⟩ abort) s = .next (cell s poison abort true)) ∧
        (r.rdFirst = true → exec (.s2mDrs n id ⟨data, false⟩ false) s =
          .next ((got.modReq id (fun e => { e with rdFirst := false })).toTray { r with rdFirst := false })) ∧
        (r.rdFirst = false → r.write = false → exec (.s2mDrs n id ⟨data, false⟩ false) s = .next (cell got false false true)) ∧
        exec (.s2mNdr n id true) s = .next (cell s false true false) ∧
        (r.rdFirst = false → r.write = true → exec (.s2mNdr n id false) s = .next (cell s false false false))))

/-- R146, R273, R278, R301, R304, R381, R383, R386, R389: the other flits. A tray's own requests and snoops are counted in FOREIGN
and its error messages go to the management core; a message run for a ring with room enters its port's input buffer, one for another
device goes on to that device's port; a CXL.io TLP the link's role does not allow is discarded, one that is not posted completed with
Unsupported Request, and a TLP the role allows passes. A run whose ring is full
stays with its sender: the model's choice, assumption 39. -/
def Obligations.OtherFlits : Prop :=
  ∀ (s : State) (n cls dpid p cr c to_ tag : Nat) (hd pl : List Byte) (x : Ctx) (kind : IoKind) (np : Bool),
    (s.takesFlit n →
      (s.role n = 2 →
        exec (.trayOriginatedRequest n) s = .next s.foreign ∧ exec (.trayBisnp n) s = .next s.foreign ∧
        exec (.trayIoRequest n true) s = .next (s.emit (.toMgmt n)) ∧ exec (.trayIoRequest n false) s = .next s) ∧
      (s.role n = 3 → s.poolRoom n .posted (ceilDiv (64 + pl.length) 128) = true →
        let u := s.fresh.2
        let cl := min cls 5
        let run := exec (.deviceMessageRun n cls dpid p cr hd pl) s
        (s.ownPbr = some dpid → s.judge (some n) cr ⟨hd, pl⟩ = .inl c → s.ctx? c = some x →
          (x.ring.length < x.ringSlots → run = .next ((runCells s.fresh.1 (256 + x.slot.getD 0 / 128)
            (u.chargeFor x.part x.tenant cl) (msgSource ⟨hd, pl⟩) (2 ^ 41 + cr) (u.cellTag x.part) (64 + pl.length) (.ring cr ⟨hd, pl⟩)).foldl
              (fun v k => v.cellArrives n k) u)) ∧
          (x.ringSlots ≤ x.ring.length → run = .next s)) ∧
        (∀ q, s.ownPbr = some dpid → s.judge (some n) cr ⟨hd, pl⟩ = .inr q →
          run = .next (s.refuseMessage (some n) q ⟨hd, pl⟩)) ∧
        (∀ any, s.ownPbr ≠ some dpid → s.transitPort dpid = (some to_, any) →
          run = .next ((runCells s.fresh.1 to_ (deviceCharge cl) (msgSource ⟨hd, pl⟩) (2 ^ 42 + dpid * 2 ^ 32 + cr)
            (deviceOuter, 0) (64 + pl.length) (.transit dpid p cr ⟨hd, pl⟩)).foldl (fun v k => v.cellArrives n k) u)) ∧
        (s.ownPbr ≠ some dpid → s.transitPort dpid = (none, false) → run = .next s.foreign))) ∧
    (s.active n = true → kind ≠ .doe →
      (s.secure n = false → exec (.fabricIoTlp n tag kind np) s = .next (s.fsat Reg.LINK_IDE_STAT_DISCARDS [n] 1)) ∧
      (s.secure n = true → ioAllowed kind (s.role n) = true → exec (.fabricIoTlp n tag kind np) s = .next s) ∧
      (s.secure n = true → ioAllowed kind (s.role n) = false → exec (.fabricIoTlp n tag kind np) s =
        .next (let t := if kind = .atomicOp then s.foreign else s
          if np then t.respond n 7 n (.unsupported n tag) else t)))

/-- R300, R302, R304 to R314, R317, R319, R324 to R332: the crossbar. An output grants the head it chooses where its input accepts it;
a message of classes 0 to 5 is charged; what leaves an input buffer comes to its output: a request to its home, an answer to the
request it answers, a push to its queue pair, a message to its ring or to another device; a response of the device leaves through its
port. A return of a spilled segment starts with at most 32 records, one in a cycle, and ends 300 cycles later with them at the back of
the head; a freed tag admits a waiting snoop before any waiting request. -/
def Obligations.Crossbar : Prop :=
  ∀ (s : State) (out n k : Nat) (ch : Charge) (inp id : Nat) (cell : Cell) (r : Req) (q : Snoop) (w : Rsp) (bad : Bool) (lost : List Nat),
    (∀ h : Head, s.choose out = some h → s.accepted out h = false → exec (.crossbarGrant ⟨out, bad⟩) s = .next s) ∧
    (let grant := fun (g : Granted) (t : State) =>
      s.choose out = some ⟨ch, inp, g⟩ → s.accepted out ⟨ch, inp, g⟩ = true → exec (.crossbarGrant ⟨out, bad⟩) s = .next t
     let s0 := s.countGrant out inp
     let t := (if ch.cls < 6 then s0.passOver out ch else s0).modShare out (fun e => { e with rr := kvSet e.rr ch.cls inp })
     let moved := (if ch.cls < 6 then t.chargeOutput out ch cell.len else t).modXin inp (fun x =>
       x.modQueue cell.key (fun e => { e with head := e.head.tail }))
     (cell.charge = ch →
       (cell.body = .request id → grant (.cell cell) (moved.requestHome id bad)) ∧
       (∀ tag a qp d, cell.body = .doorbell tag a qp d →
         grant (.cell cell) ((moved.fabricPush inp cell.src a qp d).respond inp 6 cell.out (.cmp inp tag))) ∧
       (∀ p a d, cell.body = .answer id p a d → grant (.cell cell) (moved.trayAnswers id cell.out p a)) ∧
       (∀ h l keep, cell.body = .birsp h l keep →
         moved.snoops.find? (fun e => e.back && decide (e.port = inp) && decide (e.handle = h) && decide (e.line = l)) = some q →
         grant (.cell cell) (moved.snoopAnswered q keep).finishAccs) ∧
       (cell.body = .part → grant (.cell cell) moved) ∧
       (∀ pbr p c m, cell.body = .transit pbr p c m → moved.outLost cell.out = false →
         grant (.cell cell) (moved.emit (.transit cell.out pbr p c m)))) ∧
     (t.req? id = some r → grant (.req id) ((t.chargeOutput out ch (t.reqLen r)).deliverReq r)) ∧
     (let u : State := { t with rsp := t.rsp.erase w }
      grant (.rsp w) (if u.canSend w.out then u.emit w.what else u))) ∧
    (let x := s.xinOf n
     let e := x.queue (8 * out + k)
     let m := min 32 (poolSize - x.used)
     (e.head.length < 8 → e.spill ≠ [] → e.back = [] → x.used < poolSize → s.spillBusy n = false →
       min poolSize (s.fget Reg.XBAR_CFG_RET_FREE []) ≤ poolSize - x.used →
       exec (.spillReturn n out k) s = .next ((s.modXin n (fun y => { y.modQueue (8 * out + k) (fun z => { z with
         back := z.spill.take m
         spill := z.spill.drop m
         since := s.now }) with retBusy := s.now + (e.spill.take m).length })).noteStall n)) ∧
     (e.back ≠ [] → e.since + 300 ≤ s.now →
       let gone := (e.back.zipIdx.filter (fun c => lost.contains c.2 && s.partValid c.1.tag.1)).map (fun c => c.1)
       let good := e.back.filter (fun c => !gone.contains c)
       let t := good.foldl (fun t c => t.wake out c.charge) s
       let b := e.back.length
       exec (.spillReturnFilled n out ⟨k, lost⟩) s = .next (gone.foldl (fun v c => (v.purgeCell n c).triggerReset c.tag.1 2)
         ((t.modXin n (fun y => y.modQueue (8 * out + k) (fun z =>
           if z.spill.isEmpty then { z with
             head := z.head ++ good ++ z.tail
             back := []
             tail := []
             off := 0
             since := 0
             pairs := [] }
           else { z with head := z.head ++ good, back := [], off := (z.off + b) % 32, since := 0 }))).fsat
             Reg.XBAR_PORT_EVT_RETURNED [n] b).noteRing))) ∧
    (s.tagFree n = true →
      (s.snoops.find? (fun e => !e.sent && decide (e.port = n)) = some q →
        exec (.tagAdmit n) s = .next (({ s with snoops := s.snoops.map (fun e =>
          if e = q then { e with sent := true, since := s.now } else e) } : State).respond n 7 (s.homePort q.handle q.line)
            (.snoop n q.handle q.line q.inv))) ∧
      (s.snoops.find? (fun e => !e.sent && decide (e.port = n)) = none → s.nextWaiter n = some r →
        exec (.tagAdmit n) s = .next (s.takeTag r.id)))

/-- R395 to R400, R531, R543, R545, R566: the fabric manager's commands, over the mailbox under the MANAGEMENT privilege and over
MCTP. A standard command is answered with its return code and output. A vendor command whose input is well formed does what R399
gives and returns its status; one that works in the background answers at once, answers Busy while another runs, and ends by
BACKGROUND_OP_END with its output. -/
def Obligations.FabricManagerCommands : Prop :=
  (∀ (s : State) (mail : Bool) (n : Nat) (pol : List Byte) (ports : List Nat),
     (if mail then s.bar0Open = true ∧ s.devResetDue = false ∧ s.manages = true else s.mctpServes) →
     let reply := fun (t : State) (rc : FmRc) (body : FmBody) => (Host.Outcome.next (if mail then
       (t.emit (.fm mail rc body)).emit (.msix 0) else t.emit (.fm mail rc body)) : Outcome)
     exec (.identify mail) s = reply s .success (.identify (s.regW .GLB_ID []).toNat (s.regW .GLB_TOPO []).toNat) ∧
     exec (.backgroundOperationStatus mail) s = reply s .success (.background s.mgmt.bg.isSome (match s.mgmt.bgDone with
       | some d => d.2
       | none => [])) ∧
     exec (.getResponseMessageLimit mail) s = reply s .success (.limit (kvGet 12 s.mgmt.limits (if mail then 1 else 0))) ∧
     exec (.setResponseMessageLimit mail n) s =
       (if 8 ≤ n ∧ n ≤ 12 then
         reply { s with mgmt := { s.mgmt with limits := kvPut 12 s.mgmt.limits (if mail then 1 else 0) n } } .success (.limit n)
        else reply s .invalidInput .none) ∧
     exec (.getEventRecords mail) s = reply s .success (.events s.mgmt.events) ∧
     exec (.clearEventRecords mail n) s =
       reply { s with mgmt := { s.mgmt with events := s.mgmt.events.drop n } } .success .none ∧
     exec (.getEventInterruptPolicy mail) s = reply s .success (.policy s.mgmt.policy) ∧
     exec (.setEventInterruptPolicy mail pol) s = reply { s with mgmt := { s.mgmt with policy := pol } } .success .none ∧
     ((∀ k ∈ ports, k < 256) → exec (.getPhysicalPortState mail ports) s = reply s .success
       (.ports (ports.map (fun k => (k, (s.regW .LINK_PORT_CFG [k]).toNat, (s.regW .LINK_PORT_STAT [k]).toNat))))) ∧
     ((∃ k ∈ ports, 256 ≤ k) → exec (.getPhysicalPortState mail ports) s = reply s .invalidInput .none) ∧
     exec (.gfdComponentCommands mail) s = reply s .success (.windows s.windowTable) ∧
     exec (.getDcRegionConfiguration mail) s = reply s .success (.region 0 (2 ^ 52) (2 ^ 30)) ∧
     exec (.getDcRegionExtentLists mail n) s = reply s .success (.extents (((s.extentsOf n).take 256).map (fun w =>
       (s.fget Reg.PART_WIN_B_BASE [w], s.fget Reg.PART_WIN_B_SIZE_GIB [w], s.fget Reg.PART_WIN_A_PART [w])))) ∧
     exec (.fmUnsupportedCommand mail) s = reply s .unsupported .none) ∧
  (∀ (s : State) (mail : Bool) (input : List Byte) (h off len p : Nat),
     ((if mail then s.bar0Open = true ∧ s.devResetDue = false ∧ s.manages = true else s.mctpServes) →
       let reply := fun (t : State) (rc : FmRc) (body : FmBody) => (Host.Outcome.next (if mail then
         (t.emit (.fm mail rc body)).emit (.msix 0) else t.emit (.fm mail rc body)) : Outcome)
       let done := fun (t : State) (st : Nat) (bs : List Byte) => reply t .success (.bytes (natBytes 1 st ++ bs))
       (input = [] → exec (.skGetId mail input) s = done s stOk (natBytes 8 (s.regW .GLB_ID []).toNat ++
         natBytes 8 (s.regW .GLB_TOPO []).toNat ++ natBytes 2 (s.ownPbr.getD 0xFFFF))) ∧
       (input.length = 4 → field input 2 2 < 4096 →
         let n := field input 0 2
         let id := field input 2 2
         (s.mayAssign n id = false → exec (.skAssignPbr mail input) s = done s stAccess []) ∧
         (s.mayAssign n id = true → n = 0xFFFF →
           exec (.skAssignPbr mail input) s = done { s with ownPbr := some id } stOk []) ∧
         (s.mayAssign n id = true → n ≠ 0xFFFF → exec (.skAssignPbr mail input) s =
           done ((s.fset Reg.MGT_DISC_PBR [n] id).fset Reg.MGT_DISC_PBR_VALID [n] 1) stOk [])) ∧
       (input.length = 2 →
         (s.portsHolding (field input 0 2) = [] → exec (.skDeclareDead mail input) s = done s stAccess (natBytes 8 0)) ∧
         ∀ n ns, s.portsHolding (field input 0 2) = n :: ns →
           exec (.skDeclareDead mail input) s = done (s.crashAccel n).finishAccs stOk (natBytes 8 s.now)) ∧
       (input.length = 24 →
         let r := field input 0 8
         let o := field input 8 8
         let l := field input 16 8
         (s.mgmt.bg.isSome = true → exec (.skClearOrphans mail input) s = reply s .busy .none) ∧
         (s.mgmt.bg = none → s.orphanRangeOk r o l = false →
           exec (.skClearOrphans mail input) s = done s stAccess (natBytes 8 0)) ∧
         (s.mgmt.bg = none → s.orphanRangeOk r o l = true → exec (.skClearOrphans mail input) s =
           done { s with mgmt := { s.mgmt with bg := some (.clearOrphans (refHandle r) o l) } } stOk [])) ∧
       (input.length = 8 → field input 0 1 < 16 → field input 1 3 = 0 →
         let q := field input 0 1
         let job := field input 4 4
         (s.partValid q = false → exec (.skJobTeardown mail input) s = done s stAccess (natBytes 4 0)) ∧
         (s.partValid q = true → exec (.skJobTeardown mail input) s = done (s.triggerTeardown q job 4 0) stOk
           (natBytes 4 (s.ctxs.filter (fun e => decide (e.2.part = q) && decide (e.2.job = job))).length))) ∧
       (16 ≤ field input 0 1 →
         (input.length = 8 → exec (.skJobTeardown mail input) s = reply s .invalidInput .none) ∧
         (input.length = 1 → exec (.skPartReset mail input) s = reply s .invalidInput .none)) ∧
       (input.length = 8 → exec (.skSetWallclock mail input) s =
         done { s with mgmt := { s.mgmt with wall := some (field input 0 8, s.cycles 7) } } stOk (natBytes 8 (s.cycles 7))) ∧
       (input.length = 1 → field input 0 1 < 16 →
         let q := field input 0 1
         (s.mgmt.bg.isSome = true → exec (.skPartReset mail input) s = reply s .busy .none) ∧
         (s.mgmt.bg = none → s.partValid q = false → exec (.skPartReset mail input) s = done s stAccess []) ∧
         (s.mgmt.bg = none → s.partValid q = true → exec (.skPartReset mail input) s =
           done (({ s with mgmt := { s.mgmt with bg := some (.partReset q) } } : State).triggerReset q 5) stOk [])) ∧
       (input.length = 1 → 1 ≤ field input 0 1 → field input 0 1 ≤ 120 →
         let n := min (field input 0 1) s.devq.used
         exec (.skGetErr mail input) s = done { s with devq := { s.devq with head := (s.devq.head + n) % 2 ^ 32 } } stOk
           (natBytes 1 n ++ natBytes 6 0 ++ s.devq.oldest n))) ∧
     (s.mgmt.bg = some (.clearOrphans h off len) →
       let r := s.clearOrphans h (blocksOf 64 off len) 0
       exec .backgroundOpEnd s = .next { r.1 with mgmt := { r.1.mgmt with
         bg := none
         bgDone := some (.clearOrphans h off len, natBytes 1 r.2.1 ++ natBytes 8 r.2.2) } }) ∧
     (s.mgmt.bg = some (.partReset p) → (s.part p).resetDue = none → exec .backgroundOpEnd s = .next { s with mgmt := { s.mgmt with
       bg := none
       bgDone := some (.partReset p, natBytes 1 stOk) } }))

/-- R408 to R416, R421, R422, R424: the optical link of a port with a role. A frame in ACTIVE counts its corrected symbols by lane; it
is discarded and counted where a codeword is beyond the code, takes the port out of ACTIVE where it trains or carries DARK, and else
brings the flits of its slots, those that fail their CRC counted and asked for again. What a receiver takes from the frame a
transmitter sends, over whichever fibres its codewords come, is the flits it was given, in order. A training state that ends its work
enters the next and ends in ACTIVE at the trained width; a bound that passes fails the training with its state's cause, and it begins
again at DETECT; light, codeword or laser trouble, a partner's training frame and DARK take a port out of ACTIVE; an idle transmitter
enters P1 and a flit ends it. -/
def Obligations.LinkTraining : Prop :=
  (∀ (w fseq : Nat) (flits : List (List Byte)) (cs : List Codeword),
     w ∈ [2, 4, 8, 16] → flits ≠ [] → (∀ f ∈ flits, f.length = 256 ∧ f ≠ idleBytes) → cs.Perm (sendFrame w fseq flits).1 →
     receiveFrame w cs [] = flits.take (slotCount w) ∧ (sendFrame w fseq flits).2 = flits.drop (slotCount w)) ∧
  ∀ (s : State) (n lock w k v f c : Nat) (words : List Codeword) (errors slots : List Nat) (bad : Bool),
    (s.active n = true →
      (let t := ((errors.take (s.boundLanes n)).zipIdx).foldl (fun (t : State) e =>
        if e.1 ≤ 15 then t.fwrap Reg.LINK_LANE_MARGIN_CORR_SYM [2 * n + e.2] e.1 else t) s
       let run := exec (.dataFrame n words errors slots) s
       ((∃ e ∈ errors, 15 < e) → run = .next ((t.fsat Reg.LINK_PORT_ERR_UNCORR [n] 1).emit (.retry n []))) ∧
       ((∀ e ∈ errors, e ≤ 15) →
         ((∃ x ∈ words, x.lcw = 1 ∨ x.type = 2) → run = .next (t.leaveActive n 2 .peer)) ∧
         ((∀ x ∈ words, x.lcw ≠ 1 ∧ x.type ≠ 2) → ∀ x xs, words = x :: xs → x.type = 0 →
           let wide := widthLanes (t.fget Reg.LINK_PORT_STAT_TRAINED_W [n])
           let fails := (List.range (slotCount wide)).filter (fun i => slots.contains i)
           let u := (t.modLink (fun l => { l with
             fseq := kvSet l.fseq n x.fseq
             flits := kvPut [] l.flits n (receiveFrame wide words slots) })).fsat Reg.LINK_PORT_ERR_CRC_FAIL [n] fails.length
           run = .next (if fails = [] then u else u.emit (.retry n fails))))) ∧
      (s.livePort n = true → exec (.lossOfLight n) s = .next (s.leaveActive n 2 .los) ∧
        (max 1 (s.fget Reg.LINK_CFG_UNC_MAX []) < k → exec (.uncorrLimit ⟨n, k⟩) s = .next (s.leaveActive n 2 .uncorr)) ∧
        exec (.darkReceived n) s = .next (s.leaveActive n 2 .peer)) ∧
      (s.fget Reg.LINK_CFG_IDLE_T [] ≠ 0 → s.fget Reg.LINK_PORT_CTRL_PSTATE_REQ [n] ≠ 1 →
        s.fget Reg.LINK_PORT_STAT_PSTATE [n] = 0 →
        exec (.p1Entry n) s = .next (s.fset Reg.LINK_PORT_STAT_PSTATE [n] 1)) ∧
      (s.fget Reg.LINK_PORT_STAT_PSTATE [n] = 1 →
        exec (.p1Exit n) s = .next (s.fset Reg.LINK_PORT_STAT_PSTATE [n] 0))) ∧
    (f < 64 →
      (v < 10 * s.fget Reg.LINK_CFG_LASER_MIN [] → exec (.laserLow f v) s =
        .next (((List.range 256).filter (fun n => s.livePort n && (s.fibresOf n).contains f)).foldl
          (fun (t : State) n => t.trigger n 1 .laser)
          ((s.setLaser f v).modLink (fun l => { l with dim := setIns l.dim f })))) ∧
      (10 * s.fget Reg.LINK_CFG_LASER_MIN [] ≤ v → exec (.laserRestored f v) s =
        .next ((s.setLaser f v).modLink (fun l => { l with dim := setDel l.dim f })))) ∧
    (s.livePort n = true →
      (let keep := s.modLink (fun l => { l with partner := kvSet l.partner n (if v = 1 then w % 4 else 4, lock % 2 ^ 16) })
       let run := exec (.trainingFrame n w lock v bad) s
       (s.active n = true → run = .next (keep.leaveActive n 2 .peer)) ∧
       (s.portState n = 5 → bad = true → run = .next (keep.failTraining n .map)) ∧
       (s.active n = false → kvGet? s.link.exits n ≠ some s.now → (s.portState n ≠ 5 ∨ bad = false) → run = .next keep)) ∧
      (s.link.failed.contains n = true → exec (.trainingRestart n) s = .next ((s.setPort n 1).modLink (fun l => { l with
        failed := setDel l.failed n
        partner := kvDel l.partner n }))) ∧
      (s.link.failed.contains n = false →
        (let run := exec (.trainingStateEnd n lock) s
         (s.portState n = 1 → (∀ g ∈ s.fibresOf n, s.link.dim.contains g = false) → 2 ≤ popCount lock → run = .next (s.setPort n 2)) ∧
         (s.portState n = 2 → run = .next (s.setPort n 3)) ∧
         (s.portState n = 3 → run = .next ((s.setPort n 4).fset Reg.LINK_PORT_STAT_LANE_LOCK [n] lock)) ∧
         (s.portState n = 4 → run = .next (s.setPort n 5)) ∧
         (s.portState n = 5 → ∀ theirs, kvGet? s.link.partner n = some (w, theirs) → w < 4 →
           let width := trainedWidth (s.fget Reg.LINK_PORT_CFG_WIDTH [n]) w (s.fget Reg.LINK_PORT_STAT_LANE_LOCK [n]) theirs
             (s.fget Reg.LINK_PORT_CFG_FALLBACK [n] == 1)
           (width = some c → run = .next (s.enterActive n c)) ∧
           (width = none → run = .next (s.failTraining n .width)))) ∧
        (let run := exec (.trainingTimeout n) s
         (s.portState n = 2 ∨ s.portState n = 3 → run = .next (s.failTraining n .los)) ∧
         (s.portState n = 4 → run = .next (s.failTraining n .skew)) ∧
         (s.portState n = 5 → run = .next (s.failTraining n .width)))))

/-- R390 to R394, R401, R405, R418, R425, R426, R462, R542, R544: keys, loss and presence. A link whose partner is anchored is keyed,
and its keys are refreshed by exchanging the key sets; a failed MAC fails the stream, is recorded and retrains the link; a port out
of ACTIVE for RETRAIN_T is lost; an engine that fails loses its ports; a partner that appears or goes is recorded, admitted or made
crashed; the pilot link comes up at a width and rate CXL allows, or not at all. -/
def Obligations.LinkKeysLossAndPresence : Prop :=
  ∀ (s : State) (n j fault w r cap : Nat) (root : BitVec 512) (fit : Bool),
    (s.anchors = [] ∨ s.anchors.contains root = true ∨ s.ideRequester n = false →
      (n < 256 → s.active n = true → s.fget Reg.LINK_IDE_STAT_STATE [n] = 1 → exec (.ideKeyManagement n root) s =
        .next ((s.fset Reg.LINK_IDE_STAT_STATE [n] 2).fset Reg.LINK_IDE_STAT_REQUESTER [n] (if s.ideRequester n then 1 else 0))) ∧
      (n = 256 → s.fget Reg.LINK_PILOT_STAT_CXL_UP [] = 1 →
        exec (.ideKeyManagement n root) s = .next (s.fset Reg.LINK_PILOT_STAT_IDE_STATE [] 2))) ∧
    (s.anchors ≠ [] → s.anchors.contains root = false → s.ideRequester n = true →
      exec (.ideKeyManagement n root) s = .next s) ∧
    (n < 256 → s.secure n = true → exec (.ideKeyRefresh n) s =
      .next ((s.fset Reg.LINK_IDE_STAT_KEYSET [n] (1 - s.fget Reg.LINK_IDE_STAT_KEYSET [n])).fsat
        Reg.LINK_IDE_STAT_ROLLOVERS [n] 1)) ∧
    (n < 256 → s.active n = true → s.secure n = true →
      let t := ((((s.fset Reg.LINK_IDE_STAT_STATE [n] 3).fsat Reg.LINK_IDE_STAT_MAC_FAILS [n] 1).linkRec stAccess 1 n).linkEvent
        n 64).leaveActive n 2 .ide
      exec (.ideIntegrityFailure n) s = .next (match s.role n with
        | 1 => (t.crashAccel n).finishAccs
        | 2 => t.failPort n
        | 3 => t.rerouteParts n
        | _ => t)) ∧
    (s.fget Reg.LINK_PILOT_STAT_IDE_STATE [] = 2 →
      exec (.ideIntegrityFailure 256) s = .next ((s.fset Reg.LINK_PILOT_STAT_IDE_STATE [] 3).linkRec stAccess 1 256)) ∧
    (s.active n = true → exec (.viralReceived n) s = .next (s.linkRec stAborted 3 n)) ∧
    (s.link.away.contains n = true → s.portState n ≠ 6 → exec (.portLost n) s = .next (s.losePort n)) ∧
    (fault = 2 ∨ fault = 3 → j < 32 → bitAt j (s.fget Reg.GLB_UNIT_AVAIL_OE_IN_SERVICE []) = true →
      let up := s.fget Reg.GLB_UNIT_AVAIL_OE_IN_SERVICE []
      let t := (((s.fset Reg.GLB_UNIT_AVAIL_OE_IN_SERVICE [] (up - 2 ^ j)).fset Reg.LINK_OE_STAT_IN_SERVICE [j] 0).fset
        Reg.LINK_OE_STAT_FAULT [j] fault).appendDev (Rec.noPart stAborted clsUnit 3 4 j 0 0 s.now)
      exec (.oeLeavesService j fault) s = .next (((span (8 * j) (8 * j + 8)).filter (fun n => s.livePort n)).foldl
        (fun (t : State) n => (t.leaveActive n 0 .oe).losePort n) t)) ∧
    (s.livePort n = true →
      let seen := fun (arrive : Bool) =>
        let t := ((s.fset Reg.MGT_DISC_PRESENT [n] (if arrive then 1 else 0)).fsat Reg.MGT_DISC_PLUGS [n] 1).modLink
          (fun l => { l with anew := setDel l.anew n })
        ({ t with mgmt := { t.mgmt with events := t.mgmt.events ++ [(n, arrive)] } } : State)
      (s.link.anew.contains n = true → s.active n = true →
        (s.role n = 2 → exec (.presenceChange n true cap fit) s = .next ((seen true).admitTray n cap fit)) ∧
        (s.role n = 1 → exec (.presenceChange n true cap fit) s = .next ((seen true).renewPort n))) ∧
      (s.fget Reg.MGT_DISC_PRESENT [n] = 1 ∨ s.role n = 3 → s.active n = false →
        exec (.presenceChange n false cap fit) s =
          .next (if s.role n = 1 then ((seen false).crashAccel n).finishAccs else seen false))) ∧
    (s.railsDown = false →
      let link := fun (a b d e i : Nat) => ((((s.fset Reg.LINK_PILOT_STAT_WIDTH [] a).fset Reg.LINK_PILOT_STAT_RATE [] b).fset
        Reg.LINK_PILOT_STAT_DEGRADED [] d).fset Reg.LINK_PILOT_STAT_CXL_UP [] e).fset Reg.LINK_PILOT_STAT_IDE_STATE [] i
      (w = 1 ∨ w = 2 → r = 1 ∨ r = 2 → exec (.pilotLinkTraining w r true) s =
        .next ((link w r (if w < 2 ∨ r < 2 then 1 else 0) 1 1).emit (.ideStart 256))) ∧
      (w ≠ 1 ∧ w ≠ 2 ∨ r ≠ 1 ∧ r ≠ 2 → exec (.pilotLinkTraining w r true) s = .next (link 0 0 0 0 0)) ∧
      exec (.pilotLinkTraining w r false) s = .next (link 0 0 0 0 0)) ∧
    (s.pilot.ready = true →
      exec (.pilotD3hot true) s = .next { s with pilot := { s.pilot with d3hot := true } } ∧
      exec (.pilotD3hot false) s = .next { s with pilot := { s.pilot with d3hot := false } } ∧
      exec .pilotFlr s = .next { s with pilot := { s.pilot with d3hot := false, msix := [] } })

/-- R433 to R445, R449, R450, R477: power, temperature and clocks. The start-up steps follow one another as the supplies and rail groups
become good; a rail fault, a thermal trip, an input current limit held too long and a supply out of its range end in the held-off
state or with every rail down; a droop, a hot sensor and the power cap demand clock stretch and give it up level by level; the window
ends set what the registers and the tenants see. -/
def Obligations.PowerTemperatureAndClocks : Prop :=
  ∀ (s : State) (r mv cur pw vin iin pin avg x i v : Nat),
    let raised := s.raiseRail r mv cur pw
    let shown := fun (t : State) =>
      (t.fset Reg.MGT_PWR_STAT_DERATED [] (if vin < 4600 then 1 else 0)).fset Reg.MGT_PWR_STAT_VIN [] vin
    (s.pwr.phase = .off → 4500 < vin →
      exec (.vinRise vin) s = .next (shown (s.modPwr (fun w => { w with phase := .debounce })))) ∧
    (s.pwr.phase = .debounce → exec .debounceEnd s = .next (s.modPwr (fun w => { w with phase := .bus }))) ∧
    (s.pwr.phase = .bus → r = 48 →
      exec (.railGood r mv cur pw) s = .next (raised.modPwr (fun w => { w with phase := .aon }))) ∧
    (s.pwr.phase = .aon → r = 0 →
      exec (.railGood r mv cur pw) s = .next (raised.modPwr (fun w => { w with phase := .boot, pwrgd := true }))) ∧
    (s.pwr.phase = .rails → (railGroup s.pwr.group).contains r = true → s.railGood r = false → s.tap.acted = false →
      ((∀ q ∈ railGroup s.pwr.group, raised.railGood q = true) → exec (.railGood r mv cur pw) s = .next (raised.modPwr (fun w =>
        if w.group = 5 then { w with phase := .train } else { w with group := w.group + 1 }))) ∧
      ((∃ q ∈ railGroup s.pwr.group, raised.railGood q = false) → exec (.railGood r mv cur pw) s = .next raised)) ∧
    (s.aonUp = true → s.pwr.phase ≠ .heldOff →
      let held := fun (cause rail : Nat) => (((((s.dropRails .heldOff).modPwr (fun w => { w with
        thermtrip := false })).fset Reg.MGT_PWR_FAULT_CAUSE [] cause).fset Reg.MGT_PWR_FAULT_RAIL [] rail).fset
        Reg.MGT_PWR_FAULT_SENSOR [] 0)
      (r < 49 → exec (.railFault r) s = .next (held 1 r)) ∧
      (s.fget Reg.MGT_PWR_STAT_ILIMIT [] = 1 → exec .ilimitTimeout s = .next (held 3 0))) ∧
    (s.pwr.phase = .bus ∨ s.pwr.phase = .aon →
      exec .earlySupplyFault s = .next ((s.powerDown .earlyFault).modPwr (fun w => { w with alert := true }))) ∧
    (s.pwr.phase ≠ .off → s.pwr.phase ≠ .debounce → s.pwr.phase ≠ .earlyFault → vin < 4400 ∨ 5800 < vin →
      exec (.vinOutOfRange vin) s = .next (s.powerDown .off)) ∧
    (s.aonUp = true →
      (4400 ≤ vin → vin ≤ 5800 → exec (.derated vin) s = .next (shown s)) ∧
      exec .ilimit s = .next (s.fset Reg.MGT_PWR_STAT_ILIMIT [] 1) ∧
      exec .ilimitRelease s = .next (s.fset Reg.MGT_PWR_STAT_ILIMIT [] 0)) ∧
    (x < 5 →
      (s.railsDown = false →
        let l1 := max 20 (s.fget Reg.MGT_SAG_CTRL_L1 [])
        let l2 := max (l1 + 10) (s.fget Reg.MGT_SAG_CTRL_L2 [])
        (v < l1 → exec (.sagDetect x v) s = .next s) ∧
        (l1 ≤ v → v < l2 → exec (.sagDetect x v) s = .next (s.setDemand x 0 (max (s.demand x 0) 1))) ∧
        (l2 ≤ v → exec (.sagDetect x v) s = .next (s.setDemand x 0 (max (s.demand x 0) 2)))) ∧
      (0 < s.demand x 0 → exec (.sagRecover x) s = .next (s.setDemand x 0 (s.demand x 0 - 1))) ∧
      (0 < s.demand x 1 → s.temp x < 90 → exec (.thermRecover x) s = .next (s.setDemand x 1 (s.demand x 1 - 1)))) ∧
    (s.aonUp = true → v ≤ 255 →
      let t := s.setTemp i v
      let run := exec (.thermalReading i v) s
      (i < 5 → v < 95 → run = .next t) ∧
      (i < 5 → 95 ≤ v → v < 102 → run = .next (t.setDemand i 1 (max 1 (t.demand i 1)))) ∧
      (i < 5 → 102 ≤ v → v < 110 → run = .next (t.setDemand i 1 2)) ∧
      (i < 6 → 110 ≤ v → run = .next (t.holdOff 2 0 i)) ∧
      (i = 5 → v < 110 → run = .next t) ∧
      (s.railsDown = false →
        (6 ≤ i → i < 14 → v < 105 → run = .next t) ∧
        (6 ≤ i → i < 14 → 105 ≤ v → run = .next (t.holdOff 2 0 i)) ∧
        (14 ≤ i → i < 46 →
          let u := t.modPwr (fun w => { w with
            hot := if 75 ≤ v then setIns w.hot (i - 14) else if v < 70 then setDel w.hot (i - 14) else w.hot })
          run = .next (if 85 ≤ v then u.loseEngine (i - 14) 1 else u)))) ∧
    (s.railsDown = false →
      exec (.tenantPowerWindow avg) s = .next (s.modPwr (fun w => { w with seen := avg / 10 })) ∧
      (let read := ((shown s).fset Reg.MGT_PWR_STAT_IIN [] iin).fset Reg.MGT_PWR_STAT_PIN [] pin
       let lim := s.pwr.capLimit
       let take := fun (d runOver : Nat) => (((List.range 4).foldl (fun (t : State) y => t.setDemand y 2 d) read).fset
         Reg.MGT_PWR_STAT_CAPPING [] (if 0 < d then 1 else 0)).modPwr (fun w => { w with
           overRun := runOver
           capLimit := max 1000 (min 1800 (s.fget Reg.MGT_PWR_CTRL_PWR_LIMIT []))
           capEn := s.fget Reg.MGT_PWR_CTRL_CAP_EN [] == 1 })
       let run := exec (.powerCapWindow avg vin iin pin) s
       (s.pwr.capEn = false → avg ≤ lim → run = .next ((take 0 0).fset Reg.MGT_PWR_STAT_OVER [] 0)) ∧
       (s.pwr.capEn = true → lim < avg → s.demand 0 2 < 2 → run = .next (take (s.demand 0 2 + 1) 0)) ∧
       (s.pwr.capEn = true → lim < avg → s.demand 0 2 = 2 → s.fget Reg.MGT_PWR_STAT_OVER [] = 0 →
         (s.pwr.overRun < 9 → run = .next (take 2 (s.pwr.overRun + 1))) ∧
         (9 ≤ s.pwr.overRun → run = .next (((take 2 (s.pwr.overRun + 1)).fset Reg.MGT_PWR_STAT_OVER [] 1).appendDev
           (Rec.noPart stBusy clsCapacity 2 0 0 pin 0 s.now)))) ∧
       (s.pwr.capEn = true → avg ≤ lim → 95 * lim < 100 * avg →
         run = .next ((take (s.demand 0 2) 0).fset Reg.MGT_PWR_STAT_OVER [] 0)) ∧
       (s.pwr.capEn = true → 100 * avg ≤ 95 * lim →
         run = .next ((take (s.demand 0 2 - 1) 0).fset Reg.MGT_PWR_STAT_OVER [] 0)))) ∧
    exec .snapLatchDone s = .next ((kvKeys s.clk.latching).foldl (fun (t : State) d => t.latch d) s).latchDone

/-- R464, R466 to R470, R473, R474: key slots and data at rest. A delivery that opens reserves the next generation of its slot and
stages the binding with the tenant key; one that does not, or whose slot has no generation left, ends with ACCESS. A line is encrypted
under the data key of its object's slot and generation, and no two lines of any two objects or generations have one tweak. When the
drain bound passes, the work under the generation has ended and its objects are released; when every granule has been scrubbed, the
tenant key is gone and the slot is EMPTY, or EXHAUSTED after its last generation. -/
def Obligations.KeySlots : Prop :=
  (∀ (g1 g2 : BitVec 32) (n1 n2 : BitVec 16) (h1 h2 : BitVec 32) (l1 l2 : BitVec 42),
     lineTweak g1.toNat n1.toNat h1.toNat l1.toNat = lineTweak g2.toNat n2.toNat h2.toNat l2.toNat →
     g1 = g2 ∧ n1 = n2 ∧ h1 = h2 ∧ l1 = l2) ∧
  ∀ (s : State) (k h l : Nat) (d : List Byte) (o : Obj),
    (s.obj? h = some o → s.atRest h l = Config.xtsEncrypt
      (Config.kmac256 (kvGet 0 s.tenantKeys o.keyslot) ([0x58, 0x54, 0x53] ++ natBytes 2 o.keyslot ++ natBytes 4 o.keyGen) 512
        Config.thorix) (lineTweak o.keyGen o.hgen h l) (memRead o.data (64 * l) 64)) ∧
    (s.kdRec = some d →
      let j := kdSlot d
      let g := kvGet 0 s.nv.gens j + 1
      let kek := Config.kmac256 (Config.kemDecap s.kemSeed ((d.drop 64).take 1568)) ([0x57, 0x52, 0x41, 0x50] ++ d.take 64) 256
        Config.thorix
      let opened := Config.gcmOpen kek (List.replicate 12 0) (d.take 64) ((d.drop 1632).take 32) ((d.drop 1664).take 16)
      exec .keyDeliveryDone s = .next (match opened with
        | none => s.kdEnd stAccess
        | some bs =>
          let t : State := { s with
            nv := { s.nv with gens := kvSet s.nv.gens j g }
            kdStaged := kvSet s.kdStaged j (g, kdTenant d, BitVec.ofNat 256 (bytesNat (bs.take 32))) }
          if g < 2 ^ 32 then ((t.fset Reg.SEC_KS_B_PENDING [j] 1).fset Reg.SEC_KD_STAT_GEN [] g).kdEnd stOk
          else s.kdEnd stAccess)) ∧
    (k < 2048 → s.slotState k = 2 →
      let hs := s.underKey k
      let u := s.endUnder hs
      let os := hs.filterMap (fun x => (u.obj? x).map (fun y => (x, y)))
      let t := hs.foldl State.freeObject u
      let scrub : Scrub := ⟨k, (s.slotPart k).getD 0, (os.map (fun e => e.2.scrubs.1)).sum, (os.map (fun e => e.2.scrubs.2)).sum, 0,
        os.flatMap (fun e => u.scrubItems e.1 e.2)⟩
      exec (.drainBound k) s = .next ((({ t with scrubs := t.scrubs ++ [scrub] } : State).fset Reg.SEC_KS_B_STATE [k] 3).fset
        Reg.SEC_KS_B_SCRUB_GIB [k] 0)) ∧
    (k < 2048 → s.slotState k = 3 → (∀ c ∈ s.scrubs, c.slot = k → c.todo = []) →
      let clear := fun (t : State) (st : Nat) => (((t.fset Reg.SEC_KS_B_STATE [k] st).fset Reg.SEC_KS_B_RETIRE [k] 0).fset
        Reg.SEC_KS_A_GEN [k] 0).fset Reg.SEC_KS_A_TENANT [k] 0
      let t : State := { s with
        scrubs := s.scrubs.filter (fun c => decide (c.slot ≠ k))
        tenantKeys := kvDel s.tenantKeys k
        staged := kvDel s.staged (RegName.SEC_KS_B.addr [k]) }
      (s.fget Reg.SEC_KS_A_GEN [k] ≠ 2 ^ 32 - 1 → exec (.scrubComplete k) s = .next (clear t 0)) ∧
      (s.fget Reg.SEC_KS_A_GEN [k] = 2 ^ 32 - 1 → exec (.scrubComplete k) s =
        .next (clear { t with nv := { t.nv with exhausted := setIns t.nv.exhausted k } } 4)))

/-- R505, R511 to R513, R516 to R518: mirrors. The target of a rebuild whose last granule is copied becomes SHADOW; a check window checks
the lines read back of every tray in turn, lets the scores rise and performs the expulsion that is due; the loss log of a partition takes one entry for the
next run of its granules that still hold a mark, where it has room, and drops a run that holds none. -/
def Obligations.MirrorsAndLossLog : Prop :=
  ∀ (s : State) (p h : Nat) (reads : List (Nat × Nat × Nat × List Byte)) (k cap n : Nat) (r : Nat × List (Nat × Nat)) (e : Nat × List Nat) (o lg : Obj),
    (kvGet? s.mir.rebuild k = some r → s.pairState k = 3 → r.2 = [] →
      let t := s.fget Reg.PLACE_PAIR_STAT_NEW [k]
      let u := (((s.setTray t 4 k).fset Reg.PLACE_TRAY_STAT_CLEAN [t] (s.fget Reg.PLACE_TRAY_STAT_CLEAN [t])).fset
        Reg.PLACE_PAIR_STAT_STATE [k] 4).fset Reg.PLACE_PAIR_STAT_COPIED_GIB [k] (r.1 * 4096 / 2 ^ 30)
      exec (.rebuildCopyDone k) s = .next ((u.modMir (fun m => { m with
        rebuild := kvDel m.rebuild k
        credit := kvDel m.credit k
        shadowClean := kvDel m.shadowClean t })).mirrorRec stOk 5 t t k)) ∧
    (let t := ((List.range 24).foldl (fun (t : State) y => t.checkTray y (s.windowClean y reads)) s).healthRise.expel.settleMirrors
     exec (.checkWindow reads) s = .next (t.modMir (fun m => { m with
       began := (List.range 24).filter (fun y => decide (t.trayState y = 4))
       sent := [] }))) ∧
    (s.mir.runs.find? (fun q => decide (handlePart q.1 = p)) = some e → s.obj? e.1 = some o →
      let gs := e.2.filter (fun g => (span (64 * g) (64 * g + 64)).any (fun l => o.lost.contains l))
      let ref := s.fget Reg.PLACE_LOSS_LOG_LOG [p]
      let run := exec (.lossLogWrite p) s
      (gs = [] → run = .next (s.modMir (fun m => { m with runs := m.runs.erase e }))) ∧
      (gs ≠ [] → ref ≠ 0 → refHandle ref = h → handlePart h = p → s.objOfRef ref = some lg → lg.rd = true → lg.wr = true →
        cap = (lg.size - 64) / 16 → n = s.wordAt h 8 →
        (n < s.wordAt h 0 + cap →
          let f := firstRun gs
          let len := min f.2 (2 ^ 24 - 1)
          let t := (s.storeObj h (64 + 16 * (n % cap)) (natBytes 8 (mkRef e.1 o.hgen) ++ natBytes 5 f.1 ++ natBytes 3 len)).storeObj
            h 8 (natBytes 8 (n + 1))
          run = .next (t.modMir (fun m => { m with runs := m.runs.map (fun q =>
            if q = e then (e.1, gs.filter (fun g => decide (f.1 + len ≤ g))) else q) }))) ∧
        (s.wordAt h 0 + cap ≤ n → run = .next s)))

/-- R520 to R527: shadowing. JOIN gives the shadow its key and first orbit and lifts its hold; a forwarded input is applied to the
partition, and one that cannot be fails the shadowing; a digest is compared once both are known, and one too far ahead of the shadow
fails it; promotion ends at the boundary the leader names. -/
def Obligations.Shadowing : Prop :=
  ∀ (s : State) (p n cause : Nat) (key d : BitVec 256) (v : Bool) (i : ShadowInput) (h : Shadow),
    (1 ≤ cause → cause ≤ 7 → exec (.shadowFail p cause) s = .next (s.shadowFail p cause)) ∧
    ((s.part p).shadow = some h →
      (p < 16 → h.leader = false → h.joined = false →
        exec (.shadowJoin p n key) s = .next (s.modPart p (fun x => { x with
          orbit := n % 2 ^ 40
          held := false
          shadow := some { h with joined := true, n0 := n % 2 ^ 40, key := key }
          shadowState := 2 }))) ∧
      (h.joined = true → h.leader = false →
        (∀ t, s.applyForward p i = some t → exec (.shadowForward p i) s = .next t) ∧
        (s.applyForward p i = none → exec (.shadowForward p i) s = .next (s.shadowFail p 7)) ∧
        (let g := { h with received := kvSet h.received n (d, v) }
         let t := s.modPart p (fun x => { x with shadow := some g })
         (g.lag (s.part p).orbit ≤ s.fget Reg.GLB_SHD_CTRL_LAG_MAX [p] →
           exec (.shadowDigest p n d v) s = .next (t.compareDigest p n)) ∧
         (s.fget Reg.GLB_SHD_CTRL_LAG_MAX [p] < g.lag (s.part p).orbit →
           exec (.shadowDigest p n d v) s = .next (t.shadowFail p 3))) ∧
        (h.promoting = true → exec (.shadowPromote p n) s =
          .next ((s.modPart p (fun x => { x with shadow := some { h with upTo := some n } })).promoteAt p))) ∧
      (h.joined = true → h.leader = true → exec (.shadowPromote p n) s =
        .next (s.modPart p (fun x => { x with shadow := some { h with promoting := true } }))))

/-- R10, R533 to R541, R546, R552: the services, over MCTP with the response they send and over the service mailbox with DONE and MSI-X
vector 0. Each answers with its status and payload; a malformed request answers ACCESS; a flash slot is opened, committed or erased
under the rules of its owner, its room and the other slot, ACCESS before BUSY where both apply (R10). In a boot halt only what R541
names is served. -/
def Obligations.ServicesAnswer : Prop :=
  ∀ (s : State) (q : List Byte),
    let reply := fun (t : State) (st : Nat) (pay : List Byte) =>
      (Host.Outcome.next (t.emit (.service (natBytes 1 (svcOp q) ++ natBytes 1 st ++ natBytes 2 pay.length ++
        natBytes 4 (field q 4 4) ++ pay))) : Outcome)
    let req := some q
    let p := svcPayload q
    let k := field p 0 1
    let f := s.flash k
    let off := field p 4 4
    (s.mctpServes → q.length ≤ 4096 → svcOk q = true →
      (svcOp q = 1 → exec (.status req) s = reply s stOk (natBytes 8 (s.regW .SEC_BOOT_STAT []).toNat ++
        natBytes 8 (s.regW .PART_SEAL []).toNat ++ natBytes 8 (s.regW .SEC_FLOOR []).toNat ++
        natBytes 8 (s.regW .MGT_PWR_FAULT []).toNat ++ natBytes 8 (s.cycles 7))) ∧
      (svcOp q = 2 → exec (.flashInfo req) s = reply s stOk ([0, 1, 2, 3].flatMap (fun j => (s.flash j).info))) ∧
      (svcOp q = 3 → let bs := p.drop 8
        let no := 4 ≤ k ∨ s.flashGuard k = true ∨ flashRoom k < off + bs.length
        (no → exec (.flashWrite req) s = reply s stAccess []) ∧
        (¬no → f.foreign 2 = true → exec (.flashWrite req) s = reply s stBusy []) ∧
        (¬no → f.foreign 2 = false →
          exec (.flashWrite req) s = reply (s.setFlash k ⟨1, 2, 0, 0, 0, memWrite f.data off bs⟩) stOk [])) ∧
      (svcOp q = 4 → let m := imageTo f.data off
        (4 ≤ k ∨ f.st ≠ 1 → exec (.flashCommit req) s = reply s stAccess []) ∧
        (k < 4 → f.st = 1 → exec (.flashCommit req) s =
          (if s.commitOk k off m then
            if f.foreign 2 then reply s stBusy []
            else reply (({ s with nv := { s.nv with commits := s.nv.commits + 1 } } : State).setFlash k
              ⟨2, 0, off, imageSvn k m off, s.nv.commits + 1, m⟩) stOk []
           else reply s stAccess []))) ∧
      (svcOp q = 5 →
        (4 ≤ k ∨ s.flashGuard k = true → exec (.flashErase req) s = reply s stAccess []) ∧
        (k < 4 → s.flashGuard k = false → f.foreign 2 = true → exec (.flashErase req) s = reply s stBusy []) ∧
        (k < 4 → s.flashGuard k = false → f.foreign 2 = false →
          exec (.flashErase req) s = reply (s.setFlash k ⟨0, 0, 0, 0, 0, []⟩) stOk [])) ∧
      (svcOp q = 6 → let set := field p 0 2
        let n := field p 8 2
        (13 ≤ set ∨ n = 0 ∨ 511 < n ∨ telemSize set < off + n → exec (.telemRead req) s = reply s stAccess []) ∧
        (set < 13 → 1 ≤ n → n ≤ 511 → off + n ≤ telemSize set →
          exec (.telemRead req) s = reply s stOk ((span off (off + n)).flatMap (fun i => match telemAt set i with
            | some (r, ix) => natBytes 8 (s.readReg r ix).toNat
            | none => natBytes 8 0)))) ∧
      (svcOp q = 7 → let a := field p 0 2
        let n := field p 2 2
        (n = 0 ∨ 256 < a + n → exec (.discRead req) s = reply s stAccess []) ∧
        (1 ≤ n → a + n ≤ 256 → exec (.discRead req) s = reply s stOk ((span a (a + n)).flatMap (fun i =>
          natBytes 8 (s.regW .MGT_DISC [i]).toNat))))) ∧
    (s.mctpServes → q.length ≤ 4096 → svcOk q = false → ∀ c ∈ [Instr.status req, .flashInfo req, .flashWrite req, .flashCommit req,
      .flashErase req, .telemRead req, .discRead req], exec c s = reply s stAccess []) ∧
    (s.mctpUp = true → s.pwr.phase = .halted → q.length ≤ 4096 → svcOk q = true →
      (svcOp q = 6 → exec (.telemRead req) s = reply s stAccess []) ∧
      (svcOp q = 7 → exec (.discRead req) s = reply s stAccess []) ∧
      (2 ≤ k → svcOp q = 3 → exec (.flashWrite req) s = reply s stAccess []) ∧
      (2 ≤ k → svcOp q = 5 → exec (.flashErase req) s = reply s stAccess [])) ∧
    (4096 < q.length → ∀ c ∈ [Instr.status req, .flashInfo req, .flashWrite req, .flashCommit req,
      .flashErase req, .telemRead req, .discRead req], exec c s = .next s) ∧
    (s.fget Reg.MGT_SVC_STAT_BUSY [] = 1 → s.svcBuf = q →
      (let r := s.answerSvc 1 q
       let done := ((((r.1.putSvcBuf r.2.2).fset Reg.MGT_SVC_STAT_STATUS [] r.2.1).fset Reg.MGT_SVC_STAT_DONE [] 1).fset
         Reg.MGT_SVC_STAT_BUSY [] 0).emit (.msix 0)
       ∀ e ∈ [(1, Instr.status none), (2, .flashInfo none), (3, .flashWrite none), (4, .flashCommit none), (5, .flashErase none),
         (6, .telemRead none), (7, .discRead none)], svcOp q = e.1 → exec e.2 s = .next done)) ∧
    (∀ j, j < 4 → (s.flash j).st = 1 → exec (.flashSlotTimeout j) s = .next (s.setFlash j ⟨0, 0, 0, 0, 0, []⟩))

/-- R461, R463, R531, R532, R547, R549 to R551: the management port, the test port and the tenant views. MCTP control answers whenever
VDD_AON is up; the test port selects the instruction and shifts its register out, or selects BYPASS where it does not act; a view's
capture is written under an odd and then an even SEQ where its object stands, and ends where it has gone. -/
def Obligations.ManagementPortsAndViews : Prop :=
  ∀ (s : State) (a : Nat) (eid : BitVec 8) (nonce : List Byte) (p v ref : Nat) (bs : List Byte) (o : Obj),
    (s.aonUp = true →
      let shift := fun (code : Nat) (out : List Byte) =>
        ({ s with tap := { s.tap with ir := code } } : State).emit (.tdo out)
      let pass : State := { s with tap := { s.tap with ir := 0xFF } }
      exec (.i3cEntdaa a) s = .next { s with mgmt := { s.mgmt with i3c := some a } } ∧
      (s.devResetDue = false →
        exec (.setEndpointId eid) s =
          .next (({ s with mgmt := { s.mgmt with eid := eid.toNat } } : State).emit (.mctp (.setEndpoint eid.toNat))) ∧
        exec .getEndpointId s = .next (s.emit (.mctp (.getEndpoint s.mgmt.eid))) ∧
        exec .getMctpVersionSupport s = .next (s.emit (.mctp .versions)) ∧
        exec .getMessageTypeSupport s = .next (s.emit (.mctp (.types [0x07, 0x7E]))) ∧
        exec .getVendorDefinedMessageSupport s = .next (s.emit (.mctp (.vendors [0x5C0D])))) ∧
      exec .tapReset s = .next { s with tap := { s.tap with ir := 1 } } ∧
      exec .bypass s = .next pass ∧
      exec .idcode s = .next (shift 0x01 (natBytes 4 0x1480056F)) ∧
      exec .samplePreload s = .next (shift 0x02 (Config.testBytes 0x02)) ∧
      (s.railsDown = true → exec .extest s = .next (shift 0x00 (Config.testBytes 0x00)) ∧
        exec .clamp s = .next (shift 0x04 []) ∧ exec .highz s = .next (shift 0x05 [])) ∧
      (s.railsDown = false → exec .extest s = .next pass ∧ exec .clamp s = .next pass ∧ exec .highz s = .next pass) ∧
      exec .skRailmon s = .next (if Config.isEV then shift 0x10 ((List.range 49).flatMap (fun r =>
        natBytes 8 (s.regW .MGT_RAIL [r]).toNat)) else pass) ∧
      (let acted := fun (code : Nat) => ({ shift code (Config.testBytes code) with tap := ⟨code, true⟩ } : State)
       exec .skScan s = .next (if s.testable then acted 0x20 else pass) ∧
       exec .skMembist s = .next (if s.testable then acted 0x21 else pass))) ∧
    (s.railsDown = false → s.devResetDue = false →
      exec (.spdmMeasurements nonce) s = .next (s.emit (.measurements nonce s.measurementBlocks
        (Config.attest s.signSeed nonce s.measurementBlocks)))) ∧
    (p < 16 → v < 16 →
      let w := s.view p v
      let h := refHandle ref
      let run := exec (.viewWrite p v) s
      let ended := (s.dropReqs (.view (16 * p + v))).modView p v (fun x => { x with
        capture := x.capture.filter (fun c => decide (c.1 ≠ ref))
        writing := none })
      (w.writing = some (ref, bs) ∨ (w.writing = none ∧ w.capture = some (ref, bs)) →
        s.objOfRef ref = none ∨ (∃ y, s.objOfRef ref = some y ∧ s.keyRetired y = true) →
        run = .next (if s.viewRef p v = ref then ended.fset Reg.TELEM_VIEW_ACTIVE [p, v] 0 else ended)) ∧
      (s.objOfRef ref = some o → s.keyRetired o = false →
        (w.writing = none → w.capture = some (ref, bs) → s.inSwap p = false →
          run = .next (((s.modView p v (fun x => { x with
            capture := none
            writing := some (ref, bs.take 8 ++ natBytes 8 (w.seq + 2) ++ bs.drop 16) })).storeObj h 8
              (natBytes 8 (w.seq + 1))).requestLines (.view (16 * p + v)) h (blocksOf 64 0 bs.length) true)) ∧
        (w.writing = some (ref, bs) → s.ready (.view (16 * p + v)) h (blocksOf 64 0 bs.length) true = true →
          let st := worst (s.reqFinals (.view (16 * p + v)) ++ (blocksOf 64 0 bs.length).map (fun l =>
            s.writeStatus o h l true (s.sentLine (.view (16 * p + v)) h l)))
          let t := (s.dropReqs (.view (16 * p + v))).modView p v (fun x => { x with writing := none })
          (st ≠ none → run = .next t) ∧
          (st = none → run = .next (((t.modView p v (fun x => { x with seq := w.seq + 2 })).storeObj h 0 bs).fset
            Reg.TELEM_VIEW_TRUNC [p, v] (field bs 52 1 % 2))))))

/-- R437, R438, R456, R458, R460, R502, R551, R553 to R555: start-up and resets. Boot code ends in a boot halt with its cause and last stage, or
lets the rails rise, the keys of R458 derived from what runs; the end of stack training draws the placement and spill keys, enables the lasers that are needed, puts every port with a role
into DETECT and loses the stacks that did not train; SYS_RST_N restarts at boot and keeps only the replay-protected region, the flash,
MGT_PWR_FAULT and what its lands hold; a device reset sends viral and DARK, keeps the PILOT domain and boots again. -/
def Obligations.StartUpAndResets : Prop :=
  ∀ (s : State) (puf rpr write maps : Bool) (bad : List Nat),
    (s.pwr.phase = .boot → s.tap.acted = false →
      let r := s.bootCode puf rpr write
      exec (.boot puf rpr write) s = .next (if r.2 then (r.1.fset Reg.SEC_BOOT_STAT_STAGE [] 8).modPwr (fun w => { w with
        phase := .rails
        group := 0 }) else r.1) ∧
      exec (.boot false rpr write) s = .next (s.bootHalt 1 0) ∧
      exec (.boot true false write) s = .next (s.bootHalt 2 1) ∧
      (s.nv.committed [0, 1] = [] → exec (.boot true true write) s = .next (s.bootHalt 3 2)) ∧
      (∀ k f, s.nv.committed [0, 1] = [(k, f)] → f.svn < s.nv.fwFloor → exec (.boot true true write) s =
        .next (if Config.firmwareSigned (memRead f.data 0 f.len) then s.bootHalt 4 3 else s.bootHalt 3 2)) ∧
      ∃ t, exec (.boot puf rpr write) s = .next t ∧ (t.pwr.phase = .rails → ∃ j f, t.running = some j ∧
        kvGet? s.nv.slots j = some f ∧
        let kmac := fun (x : List Byte) (l : Nat) => Config.kmac256 Config.deviceSecret x l Config.thorix
        let code := natBytes 64 (Config.sha3 (memRead f.data 0 f.len)).toNat
        t.island = some {
          idSeed := kmac ([0x49, 0x44] ++ natBytes 64 Config.romHash.toNat) 256
          signSeed := kmac ([0x41, 0x4C, 0x49, 0x41, 0x53] ++ code) 256
          kemSeed := kmac ([0x4B, 0x45, 0x4D] ++ code) 512
          rpr := kmac [0x52, 0x50, 0x52] 256 })) ∧
    (s.pwr.phase = .train →
      let k := s.rng
      let u := ({ s with rng := k + 2, placeKey := k, spillKey := k + 1 } : State).fset Reg.MGT_PWR_CTRL_LSEN []
        ((s.neededLasers.map (fun j => 2 ^ j)).sum)
      let v := ((List.range 256).filter u.livePort).foldl (fun (t : State) n => t.setPort n 1) u
      let w := (bad.filter (fun i => decide (i < 8))).foldl (fun (t : State) i => t.loseStack i) v
      exec (.hbmTrainingEnd ⟨bad, maps⟩) s = .next ((if maps then w.enterDeviceFault 2 0 else w).modPwr (fun y => { y with phase := .ready }))) ∧
    (s.aonUp = true → ∃ t, exec .sysRstN s = .next t ∧ t.pwr.phase = .boot ∧ t.nv = s.nv ∧ t.pwr.pwrgd = s.pwr.pwrgd ∧
      t.regW .MGT_PWR_FAULT [] = s.regW .MGT_PWR_FAULT [] ∧ t.mgmt.i3c = s.mgmt.i3c ∧ t.mgmt.eid = s.mgmt.eid ∧
      t.ctxs = [] ∧ t.objs = [] ∧ t.qps = [] ∧ t.parts = [] ∧ t.sl = [] ∧ t.staged = [] ∧ t.clk.up = [7, 8] ∧
      t.ownPbr = none ∧ t.devResetDue = false ∧ t.running = none ∧ t.island = none ∧ t.tenantKeys = []) ∧
    exec .perstN s = .next { s with pwr := { s.pwr with perst := true } } ∧
    (s.railsDown = false → s.pwr.perst = true →
      exec .pilotFunctionReady s = .next { s with pilot := { s.pilot with ready := true } }) ∧
    (s.devResetDue = true → s.pwr.phase = .ready →
      let ports := (List.range 256).filter s.livePort
      let told := ports.foldl (fun (t : State) n => t.emit (.dark n))
        ((ports.filter (fun n => decide (s.role n = 1))).foldl (fun (t : State) n => t.emit (.viral n)) s)
      let base := (told.resetBase (List.range 49) .train).modClk (fun c => { c with
        up := s.clk.up
        count := kvFilter (fun d _ => decide (d = 6)) s.clk.count
        frac := kvFilter (fun d _ => decide (d = 6)) s.clk.frac })
      exec (.deviceReset puf rpr write) s = .next (({ base with pilot := s.pilot } : State).setRegW .LINK_PILOT_STAT []
        (s.regW .LINK_PILOT_STAT [])|>.bootCode puf rpr write).1)

/-- One step of the device. A step takes the command at the front of the queue and performs it with the rest of the queue; with an
empty queue one period of the XBAR clock passes (a design choice, logged as assumption 2). -/
def Obligations.StepTakesTheFront : Prop :=
  ∀ (s : State) (c : Instr) (r : List Instr),
    (s.pending = c :: r → step s = exec c { s with pending := r }) ∧ (s.pending = [] → step s = .next s.tick)

/-- Every command answers a next state, in every state, and leaves the commands that wait as they are. -/
def Obligations.CommandsKeepTheQueue : Prop :=
  ∀ (c : Instr) (s : State), ∃ t, exec c s = .next t ∧ t.pending = s.pending

/-- R459, R460, R464: nothing lowers a rollback floor, the highest generation reserved for a key slot, or the record that there is an
owner. Whatever stood in the replay-protected region before a step is not undone by it: every step keeps that the region stands no
lower than an earlier one. -/
def Obligations.RollbackMaximaNeverFall : Prop :=
  ∀ (m : Nv) (s t : State), m.notBelow s.nv → step s = .next t → m.notBelow t.nv

/-- R8, R437, R476, R482, R550 and the register maps: the device when power is first applied. Registers hold the reset values of their
maps, those not listed here 0; no context, object, partition state, request or staged copy exists; the queues are empty; the test port
holds IDCODE; and the replay-protected region stands no lower than itself, so the invariant of RollbackMaximaNeverFall starts. -/
def Obligations.ResetState : Prop :=
  let r := State.reset
  (let listed : List (RegName × Word) := 
        [(.GLB_ID, 0x5C0D480042000000), (.GLB_TOPO, 0x102008081004), (.GLB_MOON_AVAIL, 0xFFFFFFFFFFFFFFFF),
         (.GLB_UNIT_AVAIL, 0xFFFFFFFFFF), (.GLB_ORB_LIMIT, 0x1036640), (.GLB_ORB_STAT, 0x1), (.GLB_CYC_SNAP, 0x1),
         (.GLB_SHD_CTRL, 0x10000040), (.CTX_QP_A, 0x6600000000000), (.CTX_PART_CFG, 0x4), (.CTX_CFG, 0x200000000186A0),
         (.XBAR_CFG, 0x1000020001000001), (.XBAR_SPILL_CTRL, 0x10000), (.XBAR_TAG_BUDGET, 0x20000000000),
         (.XBAR_FAB_CTRL, 0x19F0A004000008), (.SCHED_PART_WT, 0x100),
         (.SCHED_DEV_WT, 0x40), (.SCHED_PORT_OVH, 0x1000008), (.SCHED_ACCT, 0x1000000),
         (.PLACE_IMBAL_CTRL, 0x1E164430801401), (.PLACE_MOVE_CTRL, 0x10), (.PLACE_TIER1_T, 0x2981000000D48),
         (.PLACE_TIER2_T, 0x19F0A000004268), (.PLACE_AGE, 0x2), (.NME_SCRUB_CTRL, 0x18), (.PLACE_MIR_CTRL, 0x400000101E0040),
         (.PLACE_TRAY_STAT, 0xF00000000000000), (.PLACE_PAIR_STAT, 0x1F1F1F0000000000), (.MOON_STAT, 0x1),
         (.LINK_PORT_CFG, 0x1), (.LINK_OE_STAT, 0x1), (.LINK_CFG, 0x271003E800103200),
         (.LINK_PORT_HEALTH, 0xFF), (.MGT_DISC, 0xF800000000), (.MGT_PWR_CTRL, 0x10708), (.MGT_SAG_CTRL, 0x404628)]
   (∀ e ∈ listed, ∀ ix, r.regW e.1 ix = e.2) ∧
   ∀ n ix, (∀ e ∈ listed, e.1 ≠ n) → r.regW n ix = 0) ∧
  r.pwr.phase = .off ∧ r.ctxs = [] ∧ r.objs = [] ∧ r.parts = [] ∧ r.qps = [] ∧ r.reqs = [] ∧ r.staged = [] ∧ r.sl = [] ∧
  r.devq.tail = 0 ∧ r.devq.head = 0 ∧ r.devq.recs = [] ∧ r.devFault = false ∧ r.tagGen = 1 ∧ r.tap.ir = 1 ∧ r.ownPbr = none ∧
  r.pending = [] ∧ r.nv.notBelow r.nv

/-- R67: a reduction that spans several instructions gives the result of R66 over its whole length. Whatever sum is used, values pushed
one by one on a partial-sum stack, in which two top nodes of equal size become their sum with the lower-index node on the left, give
when the stack is closed the tree of R66 exactly. -/
def Obligations.PartialSumsAreTheTree : Prop :=
  (∀ (α : Type) (add : α → α → α) (d : α) (l : List α), stackClose add d (l.foldl (stackPush add) []) = fixedTree add d l) ∧
  ∀ (α : Type) (add : α → α → α) (d x0 x1 x2 x3 x4 x5 x6 : α),
    fixedTree add d [x0, x1, x2, x3, x4, x5, x6] = add (add (add x0 x1) (add x2 x3)) (add (add x4 x5) x6)

/-- R70 to R72, R75: an exact accumulator holds the exact sum of what is added to it, whatever the order of the adds. Each add of a value
that fits its bins adds exactly that value times 2 to the 160; normalisation changes no value that
the bins, the last of 64 bits, can hold, and leaves the lower nine bins within 0 to 2^32 − 1; merging is commutative and associative,
and gives the state that all the adds would have produced in one accumulator. -/
def Obligations.ExactSumsAreExact : Prop :=
  let exact := fun (v : FVal) => match v with
    | .fin n m e => (if n then -1 else 1) * ((m * 2 ^ (e + 160).toNat : Nat) : Int)
    | .inf _ => 0
    | .nan => 0
  let held := fun (v : Int) => -(2 ^ 351 : Int) ≤ v ∧ v < 2 ^ 351
  let fits := fun (v : FVal) => match v with
    | .fin _ m e => m < 2 ^ 32 ∧ -160 ≤ e ∧ e ≤ 104
    | .inf _ => True
    | .nan => True
  (∀ (a : XAcc) (l r : List FVal), l.Perm r → l.foldl XAcc.add a = r.foldl XAcc.add a) ∧
  (∀ (a : XAcc) (l : List FVal), a.bins.length = 10 → (∀ v ∈ l, fits v) →
    binsValue (l.foldl XAcc.add a).bins = binsValue a.bins + (l.map exact).sum ∧ (l.foldl XAcc.add a).count = a.count + l.length) ∧
  (∀ a : XAcc, a.bins.length = 10 → (held (binsValue a.bins) → binsValue a.normalise.bins = binsValue a.bins) ∧
    ∀ b ∈ a.normalise.bins.take 9, 0 ≤ b ∧ b < 2 ^ 32) ∧
  (∀ a b c : XAcc, a.bins.length = 10 → b.bins.length = 10 → c.bins.length = 10 →
    (held (binsValue a.bins + binsValue b.bins) → binsValue (a.merge b).bins = binsValue a.bins + binsValue b.bins) ∧
    a.merge b = b.merge a ∧
    (a.merge b).merge c = a.merge (b.merge c)) ∧
  ∀ l r : List FVal, (l.foldl XAcc.add XAcc.clear).merge (r.foldl XAcc.add XAcc.clear) =
    ((l ++ r).foldl XAcc.add XAcc.clear).normalise

/-- R89, R90, R97, R98, R105, R127: what every instruction of the Moons does with a word whose reserved bits are not zero, and with a
predicate that disables it. The first raises ILLEGAL, as does an opcode that no chapter lists; a PC outside the program object raises
FETCH. A whole instruction whose effective predicate is 0 in bit 0 only advances, and so does an element-wise instruction whose
effective predicate is 0 in every bit. A command that names another instruction than the one at the PC changes nothing: the model's
choice, assumption 3. -/
def Obligations.DisabledAndIllFormed : Prop :=
  let all : List (Nat × (Nat → MWord → Instr)) :=
    [(0x00, Instr.nop), (0x01, .sadd), (0x02, .saddi), (0x03, .ssub), (0x04, .smul), (0x05, .sand), (0x06, .sor),
     (0x07, .sxor), (0x08, .sshf), (0x09, .smovi), (0x0A, .scmp), (0x0B, .br), (0x0C, .halt), (0x0D, .sdset),
     (0x0E, .sdget), (0x10, .vadd), (0x11, .vsub), (0x12, .vmul), (0x13, .vfma), (0x14, .vmin), (0x15, .vmax),
     (0x16, .vabs), (0x17, .vneg), (0x18, .vand), (0x19, .vor), (0x1A, .vxor), (0x1B, .vsel), (0x1C, .vbcst),
     (0x1D, .vext), (0x1E, .vins), (0x1F, .vmov), (0x20, .vcmp), (0x21, .plog), (0x22, .pcnt), (0x23, .pfst),
     (0x24, .pset), (0x30, .vcvt), (0x40, .mma), (0x50, .ltb), (0x51, .ltld), (0x52, .lac), (0x53, .lexpw),
     (0x54, .lbin), (0x60, .xclr), (0x61, .xadd), (0x62, .xaddl), (0x63, .xdot), (0x64, .xrd), (0x65, .xexp),
     (0x66, .ximp), (0x67, .xmrg), (0x70, .vexp2), (0x71, .vrcp), (0x72, .vrmax), (0x73, .vrsum), (0x80, .ld),
     (0x81, .st), (0x82, .cld), (0x83, .cst), (0x84, .expd), (0x85, .amo), (0x86, .pub), (0x87, .kvenc), (0x90, .wait),
     (0x91, .acset), (0x92, .acrd), (0x93, .fence), (0x94, .orbit), (0x95, .orq), (0x98, .msgs), (0x99, .msgr),
     (0x9C, .tbegin), (0x9D, .tclm), (0x9E, .tcmt), (0x9F, .tld), (0xA0, .wkinit), (0xA1, .cqpush), (0xA2, .cqpop),
     (0xA3, .visit), (0xA4, .bmtst), (0xA5, .tkins), (0xA6, .tkrd)]
  ∀ (s : State) (slot c : Nat) (x : Ctx) (w : MWord) (pn : Bool) (pr : BitVec 3),
    (∀ e ∈ all,
      (w.rsv ≠ 0 → Does s slot c x e.1 e.2 w (s.except slot c x .illegal (IssueSlot.of e.1))) ∧
      (s.slotTaken slot (IssueSlot.of e.1) = false →
        (s.issuer slot = some (c, x) → s.fetchOk x = false →
          exec (e.2 slot w) s = .next (s.except slot c x .fetch (IssueSlot.of e.1))) ∧
        (CanIssue s slot c x → (∀ f ∈ all, f.1 ≠ (s.wordAtPc x).1) →
          exec (e.2 slot w) s = .next (s.except slot c x .illegal (IssueSlot.of e.1))) ∧
        (CanIssue s slot c x → (∃ f ∈ all, f.1 = (s.wordAtPc x).1) → s.wordAtPc x ≠ (e.1, w) →
          exec (e.2 slot w) s = .next s))) ∧
    (let g := MWord.gate pn pr
     let form := fun (k : BitVec 4) (n : BitVec 64) => ({ g with fmt := k, imm := n } : MWord)
     x.enabled g 0 = false →
      (∀ e ∈ [(0x00, Instr.nop), (0x01, .sadd), (0x02, .saddi), (0x03, .ssub), (0x04, .smul), (0x05, .sand), (0x06, .sor),
        (0x07, .sxor), (0x08, .sshf), (0x09, .smovi), (0x0A, .scmp), (0x0B, .br), (0x0C, .halt), (0x0E, .sdget),
        (0x85, .amo), (0x86, .pub), (0x90, .wait), (0x91, .acset), (0x92, .acrd), (0x93, .fence), (0x94, .orbit),
        (0x95, .orq), (0x99, .msgr), (0x9D, .tclm), (0x9E, .tcmt), (0x9F, .tld), (0xA2, .cqpop), (0xA6, .tkrd),
        (0x22, .pcnt), (0x23, .pfst), (0x24, .pset), (0x64, .xrd), (0x65, .xexp), (0x66, .ximp), (0x67, .xmrg)],
        Does s slot c x e.1 e.2 g (s.retire slot c x (IssueSlot.of e.1))) ∧
      (∀ e ∈ [(0x0D, Instr.sdset, form 0 1), (0x80, .ld, form 0 1), (0x81, .st, form 0 1), (0x82, .cld, form 0 1), (0x83, .cst, form 0 1),
          (0x84, .expd, form 1 1), (0x98, .msgs, form 0 1), (0x9C, .tbegin, form 0 (2 ^ 32 + 1)), (0xA0, .wkinit, form 0 (2 ^ 16 + 1))],
        Does s slot c x e.1 e.2.1 e.2.2 (s.retire slot c x (IssueSlot.of e.1))) ∧
      (x.epred g = 0 → ∀ e ∈ [(0x10, Instr.vadd), (0x11, .vsub), (0x12, .vmul), (0x13, .vfma), (0x14, .vmin), (0x15, .vmax), (0x16, .vabs),
        (0x17, .vneg), (0x18, .vand), (0x19, .vor), (0x1A, .vxor), (0x1C, .vbcst), (0x1F, .vmov), (0x30, .vcvt),
        (0x70, .vexp2), (0x71, .vrcp)],
        Does s slot c x e.1 e.2 g (s.retire slot c x .compute)))

/-- R9, R10: when more than one status applies to the parts of one operation, the first that applies in the order of R10 is reported. -/
def Obligations.StatusOrder : Prop :=
  let order := [0x07, 0x08, 0x06, 0x04, 0x05, 0x0C, 0x09, 0x0B, 0x03, 0x02, 0x01, 0x0A, 0x00]
  ∀ l : List (Option Nat), (∀ k, some k ∈ l → k ∈ order) → worst l = order.find? (fun k => l.contains (some k))

/-- R76: exp2 of an FP32 pattern. NaN gives the canonical NaN, a value of 128 or more +Inf, one below −160 +0, a zero of either sign 1.0;
every other input follows R77 on the floor of its value times 2^32; and the result is an FP32 pattern. -/
def Obligations.ExpTwo : Prop :=
  ∀ x : Nat, x < 2 ^ 32 →
    let f := x / 2 ^ 23 % 256
    let m : Nat := x % 2 ^ 23 + (if f = 0 then 0 else 2 ^ 23)
    let scaled : Int := (if x < 2 ^ 31 then 1 else -1) * (m : Int) * 2 ^ (max 1 f) / 2 ^ 118
    exp2 x = (if 0x7F800000 < x % 2 ^ 31 then 0x7FC00000
      else if x % 2 ^ 31 = 0 then 0x3F800000
      else if 0x43000000 ≤ x ∧ x < 2 ^ 31 then 0x7F800000
      else if 0xC3200000 < x then 0
      else exp2Core scaled) ∧ exp2 x < 2 ^ 32

/-- R479, R481 to R484, R487: the error queues. A record enters the slot of TAIL, unless one of its cycle that it stands before is there
already, and the records of one cycle stay in the order of R481; TAIL advances, with GAP where a record was dropped
before it and NESTED where a handling window is open; MSI-X vector 1 is signalled where the device queue was empty or the scope is a
partition or the device. A full queue drops the record, counts it and remembers the gap; a full partition queue fences the partition.
A record and its copy are dropped each for its own queue. -/
def Obligations.ErrorQueues : Prop :=
  (∀ (size : Nat) (q : ErrQ) (r : Rec),
     let ordered := fun (e : ErrQ) => ∀ (i : Nat) (a b : Rec), i + 1 < e.used → kvGet? e.recs ((e.head + i) % size) = some a →
       kvGet? e.recs ((e.head + i + 1) % size) = some b → b.before a = false
     size ∈ [128, 1024] → q.head < 2 ^ 32 → q.tail < 2 ^ 32 → q.used < size → kvSorted q.recs = true → ordered q →
     ordered (q.push size r)) ∧
  ∀ (s : State) (r : Rec),
    let d := s.devq
    let t := s.appendDev r
    let e := (s.part r.part).errq
    let u := s.appendPart r
    let v := (u.part r.part).errq
    (d.used < 1024 →
      t.devq.tail = (d.tail + 1) % 2 ^ 32 ∧ t.devq.head = d.head ∧ t.devq.dropped = d.dropped ∧ t.devq.gap = false ∧
      ((∀ q, kvGet? d.recs ((d.tail + 1023) % 1024) = some q → r.before q = false) →
        kvGet? t.devq.recs (d.tail % 1024) = some { r with flags := r.flags + s.nested r + (if d.gap then 8 else 0) }) ∧
      t.out = (if d.used = 0 ∨ 3 ≤ r.scope then .msix 1 :: s.out else s.out)) ∧
    (1024 ≤ d.used → t = { s with devq := { d with dropped := min 0xFFFF (d.dropped + 1), gap := true } }) ∧
    (e.used < 128 →
      v.tail = (e.tail + 1) % 2 ^ 32 ∧ v.head = e.head ∧ v.dropped = e.dropped ∧ v.gap = false ∧
      ((∀ q, kvGet? e.recs ((e.tail + 127) % 128) = some q → r.before q = false) →
        (kvGet? v.recs (e.tail % 128)).map (fun q => (q.cls, q.code, q.wordA, q.wordB)) = some (r.cls, r.code, r.wordA, r.wordB)) ∧
      (u.part r.part).fenced = (s.part r.part).fenced) ∧
    (128 ≤ e.used → v = { e with dropped := min 0xFFFF (e.dropped + 1), gap := true } ∧ (u.part r.part).fenced = true) ∧
    u.devq = s.devq ∧
    (let w := s.appendBoth r
     (w.part r.part).errq = v ∧ (w.part r.part).fenced = (u.part r.part).fenced ∧
     (1024 ≤ d.used → w.devq = { d with dropped := min 0xFFFF (d.dropped + 1), gap := true } ∧ w.out = s.out) ∧
     (d.used < 1024 → w.devq.tail = (d.tail + 1) % 2 ^ 32 ∧ w.devq.gap = false ∧
       w.out = (if d.used = 0 ∨ 3 ≤ r.scope then .msix 1 :: s.out else s.out)))
end

