-- ==== Sys2Proof/Laws/KeptCore.lean ====
section
/-!
SUPPORT. What the operations on contexts, objects, requests and the Moons keep: the commands that wait, and the replay-protected region and the flash. Each lemma says it of one operation; those of a command follow.
-/
namespace Sys2Proof.Machine

/-- A state has the commands that wait, the replay-protected region and the flash of another. -/
def Keeps (t s : State) : Prop := t.pending = s.pending ∧ t.nv = s.nv

/-- What `Keeps` says. -/
@[simp] theorem keeps_iff (t s : State) : Keeps t s ↔ t.pending = s.pending ∧ t.nv = s.nv := Iff.rfl

/-- A fold of operations each of which keeps the queue and the replay-protected region keeps them. -/
@[simp] theorem foldl_kept {α : Type} (f : State → α → State) (h : ∀ t a, Keeps (f t a) t) (l : List α) (s : State) :
    (l.foldl f s).pending = s.pending ∧ (l.foldl f s).nv = s.nv := by
  induction l generalizing s with
  | nil => exact ⟨rfl, rfl⟩
  | cons a r ih => exact ⟨(ih (f s a)).1.trans (h s a).1, (ih (f s a)).2.trans (h s a).2⟩

/-- The same, from a state that has kept them. -/
theorem foldl_kept_of {α : Type} {u : State} (f : State → α → State) (h : ∀ t a, Keeps (f t a) t) (l : List α) {s : State}
    (hs : s.pending = u.pending ∧ s.nv = u.nv) : (l.foldl f s).pending = u.pending ∧ (l.foldl f s).nv = u.nv :=
  ⟨(foldl_kept f h l s).1.trans hs.1, (foldl_kept f h l s).2.trans hs.2⟩

@[simp] theorem State.setRegW_kept (s : State) (r : RegName) (ix : List Nat) (v : Word) : (State.setRegW s r ix v).pending = s.pending ∧ (State.setRegW s r ix v).nv = s.nv := by
  simp only [State.setRegW]
  (repeat' split) <;> simp [*]

@[simp] theorem State.setSlW_kept (s : State) (r : RegName) (ix : List Nat) (v : Word) : (State.setSlW s r ix v).pending = s.pending ∧ (State.setSlW s r ix v).nv = s.nv := by
  simp only [State.setSlW]
  (repeat' split) <;> simp [*]

@[simp] theorem State.fset_kept (s : State) (f : RField) (ix : List Nat) (n : Nat) : (State.fset s f ix n).pending = s.pending ∧ (State.fset s f ix n).nv = s.nv := by
  simp only [State.fset]
  (repeat' split) <;> simp [*]

@[simp] theorem State.fsat_kept (s : State) (f : RField) (ix : List Nat) (n : Nat) : (State.fsat s f ix n).pending = s.pending ∧ (State.fsat s f ix n).nv = s.nv := by
  simp only [State.fsat]
  (repeat' split) <;> simp [*]

@[simp] theorem State.fwrap_kept (s : State) (f : RField) (ix : List Nat) (n : Nat) : (State.fwrap s f ix n).pending = s.pending ∧ (State.fwrap s f ix n).nv = s.nv := by
  simp only [State.fwrap]
  (repeat' split) <;> simp [*]

@[simp] theorem State.setStagedW_kept (s : State) (r : RegName) (ix : List Nat) (v : Word) : (State.setStagedW s r ix v).pending = s.pending ∧ (State.setStagedW s r ix v).nv = s.nv := by
  simp only [State.setStagedW]
  (repeat' split) <;> simp [*]

@[simp] theorem State.modPart_kept (s : State) (p : Nat) (f : Part → Part) : (State.modPart s p f).pending = s.pending ∧ (State.modPart s p f).nv = s.nv := by
  simp only [State.modPart]
  (repeat' split) <;> simp [*]

@[simp] theorem State.modQp_kept (s : State) (q : Nat) (f : Qp → Qp) : (State.modQp s q f).pending = s.pending ∧ (State.modQp s q f).nv = s.nv := by
  simp only [State.modQp]
  (repeat' split) <;> simp [*]

@[simp] theorem State.modMoon_kept (s : State) (m : Nat) (f : Moon → Moon) : (State.modMoon s m f).pending = s.pending ∧ (State.modMoon s m f).nv = s.nv := by
  simp only [State.modMoon]
  (repeat' split) <;> simp [*]

@[simp] theorem State.applyClosed_kept (s : State) (p : Nat) (r : RegName) (ix : List Nat) : (State.applyClosed s p r ix).pending = s.pending ∧ (State.applyClosed s p r ix).nv = s.nv := by
  simp only [State.applyClosed]
  (repeat' split) <;> simp [*]

@[simp] theorem State.setCtx_kept (s : State) (c : Nat) (x : Ctx) : (State.setCtx s c x).pending = s.pending ∧ (State.setCtx s c x).nv = s.nv := by
  simp only [State.setCtx]
  (repeat' split) <;> simp [*]

@[simp] theorem State.modCtx_kept (s : State) (c : Nat) (f : Ctx → Ctx) : (State.modCtx s c f).pending = s.pending ∧ (State.modCtx s c f).nv = s.nv := by
  simp only [State.modCtx]
  (repeat' split) <;> simp [*]

@[simp] theorem State.modObj_kept (s : State) (h : Nat) (f : Obj → Obj) : (State.modObj s h f).pending = s.pending ∧ (State.modObj s h f).nv = s.nv := by
  simp only [State.modObj]
  (repeat' split) <;> simp [*]

@[simp] theorem State.emit_kept (s : State) (o : Out) : (State.emit s o).pending = s.pending ∧ (State.emit s o).nv = s.nv := by
  simp only [State.emit]
  (repeat' split) <;> simp [*]

@[simp] theorem State.respond_kept (s : State) (out cls inp : Nat) (o : Out) : (State.respond s out cls inp o).pending = s.pending ∧ (State.respond s out cls inp o).nv = s.nv := by
  simp only [State.respond]
  (repeat' split) <;> simp [*]

@[simp] theorem State.fresh_kept (s : State) : (State.fresh s).2.pending = s.pending ∧ (State.fresh s).2.nv = s.nv := by
  simp only [State.fresh]
  (repeat' split) <;> simp [*]

@[simp] theorem State.drawTag_kept (s : State) : (State.drawTag s).2.pending = s.pending ∧ (State.drawTag s).2.nv = s.nv := by
  simp only [State.drawTag]
  (repeat' split) <;> simp [*]

@[simp] theorem State.draw_kept (s : State) : (State.draw s).2.pending = s.pending ∧ (State.draw s).2.nv = s.nv := by
  simp only [State.draw]
  (repeat' split) <;> simp [*]

@[simp] theorem State.pushDev_kept (s : State) (r : Rec) : (State.pushDev s r).pending = s.pending ∧ (State.pushDev s r).nv = s.nv := by
  simp only [State.pushDev]
  (repeat' split) <;> simp [*]

@[simp] theorem State.appendDev_kept (s : State) (r : Rec) : (State.appendDev s r).pending = s.pending ∧ (State.appendDev s r).nv = s.nv := by
  simp only [State.appendDev]
  (repeat' split) <;> simp [*]

@[simp] theorem State.triggerReset_kept (s : State) (p code : Nat) : (State.triggerReset s p code).pending = s.pending ∧ (State.triggerReset s p code).nv = s.nv := by
  simp only [State.triggerReset]
  (repeat' split) <;> simp [*]

@[simp] theorem State.pushPart_kept (s : State) (r : Rec) : (State.pushPart s r).pending = s.pending ∧ (State.pushPart s r).nv = s.nv := by
  simp only [State.pushPart]
  (repeat' split) <;> simp [*]

@[simp] theorem State.escalation_kept (s t : State) (r : Rec) : (State.escalation s t r).pending = t.pending ∧ (State.escalation s t r).nv = t.nv := by
  simp only [State.escalation]
  (repeat' split) <;> simp [*]

@[simp] theorem State.appendPart_kept (s : State) (r : Rec) : (State.appendPart s r).pending = s.pending ∧ (State.appendPart s r).nv = s.nv := by
  simp only [State.appendPart]
  (repeat' split) <;> simp [*]

@[simp] theorem State.appendBoth_kept (s : State) (r : Rec) : (State.appendBoth s r).pending = s.pending ∧ (State.appendBoth s r).nv = s.nv := by
  simp only [State.appendBoth]
  (repeat' split) <;> simp [*]

@[simp] theorem State.refuseAccess_kept (s : State) (off : Nat) : (State.refuseAccess s off).pending = s.pending ∧ (State.refuseAccess s off).nv = s.nv := by
  simp only [State.refuseAccess]
  (repeat' split) <;> simp [*]

@[simp] theorem State.openWindow_kept (s : State) (p : Nat) (w : HandlingWin) : (State.openWindow s p w).pending = s.pending ∧ (State.openWindow s p w).nv = s.nv := by
  simp only [State.openWindow]
  (repeat' split) <;> simp [*]

@[simp] theorem State.closeWindow_kept (s : State) (p : Nat) (w : HandlingWin) : (State.closeWindow s p w).pending = s.pending ∧ (State.closeWindow s p w).nv = s.nv := by
  simp only [State.closeWindow]
  (repeat' split) <;> simp [*]

@[simp] theorem State.noteIssue_kept (s : State) (slot : Nat) (u : IssueSlot) : (State.noteIssue s slot u).pending = s.pending ∧ (State.noteIssue s slot u).nv = s.nv := by
  simp only [State.noteIssue]
  (repeat' split) <;> simp [*]

@[simp] theorem State.dropStreams_kept (s : State) (c : Nat) (x : Ctx) : (State.dropStreams s c x).pending = s.pending ∧ (State.dropStreams s c x).nv = s.nv := by
  simp only [State.dropStreams]
  (repeat' split) <;> simp [*]

@[simp] theorem State.raise_kept (s : State) (c : Nat) (x : Ctx) (code status pc : Nat) : (State.raise s c x code status pc).pending = s.pending ∧ (State.raise s c x code status pc).nv = s.nv := by
  simp only [State.raise]
  (repeat' split) <;> simp [*]

@[simp] theorem State.raiseAt_kept (s : State) (slot c : Nat) (x : Ctx) (e : Exc) (u : IssueSlot) : (State.raiseAt s slot c x e u).pending = s.pending ∧ (State.raiseAt s slot c x e u).nv = s.nv := by
  simp only [State.raiseAt]
  (repeat' split) <;> simp [*]

@[simp] theorem State.settle_kept (s : State) (slot c : Nat) (x : Ctx) (u : IssueSlot) (r : IRes) : (State.settle s slot c x u r).pending = s.pending ∧ (State.settle s slot c x u r).nv = s.nv := by
  simp only [State.settle]
  (repeat' split) <;> simp [*]

@[simp] theorem State.digestAdd_kept (s : State) (p : Nat) (term : List Nat) : (State.digestAdd s p term).pending = s.pending ∧ (State.digestAdd s p term).nv = s.nv := by
  simp only [State.digestAdd]
  (repeat' split) <;> simp [*]

@[simp] theorem State.shadowFail_kept (s : State) (p cause : Nat) : (State.shadowFail s p cause).pending = s.pending ∧ (State.shadowFail s p cause).nv = s.nv := by
  unfold State.shadowFail
  cases (s.part p).shadow with
  | none => exact ⟨rfl, rfl⟩
  | some h => cases hl : h.leader <;> simp [hl]

@[simp] theorem State.forward_kept (s : State) (p : Nat) (i : ShadowInput) : (State.forward s p i).pending = s.pending ∧ (State.forward s p i).nv = s.nv := by
  simp only [State.forward]
  (repeat' split) <;> simp [*]

@[simp] theorem State.storeObj_kept (s : State) (h off : Nat) (bs : List Byte) : (State.storeObj s h off bs).pending = s.pending ∧ (State.storeObj s h off bs).nv = s.nv := by
  simp only [State.storeObj]
  (repeat' split) <;> simp [*]

@[simp] theorem State.storePieces_kept (s : State) (h : Nat) (skip : NatSet) (ps : List (Nat × List Byte)) : (State.storePieces s h skip ps).pending = s.pending ∧ (State.storePieces s h skip ps).nv = s.nv := by
  refine foldl_kept _ (fun t q => foldl_kept _ (fun u l => ?_) _ _) _ _
  split <;> simp

@[simp] theorem State.doAmo_kept (s : State) (h off code operand cmp : Nat) : (State.doAmo s h off code operand cmp).1.pending = s.pending ∧ (State.doAmo s h off code operand cmp).1.nv = s.nv := by
  simp only [State.doAmo]
  (repeat' split) <;> simp [*]

@[simp] theorem State.doPublish_kept (s : State) (h off expected new : Nat) : (State.doPublish s h off expected new).1.pending = s.pending ∧ (State.doPublish s h off expected new).1.nv = s.nv := by
  simp only [State.doPublish]
  (repeat' split) <;> simp [*]

@[simp] theorem State.applyWrite_kept (s : State) (q : Outst) : (State.applyWrite s q).1.pending = s.pending ∧ (State.applyWrite s q).1.nv = s.nv := by
  simp only [State.applyWrite]
  (repeat' split) <;> simp [*]

@[simp] theorem State.endProtection_kept (s : State) (l : List (Nat × Nat)) : (State.endProtection s l).pending = s.pending ∧ (State.endProtection s l).nv = s.nv := by
  simp only [State.endProtection]
  (repeat' split) <;> first
    | simp [*]; done
    | (refine foldl_kept_of _ (fun t a => ?_) _ ?_ <;> (repeat' split) <;> simp [*])

@[simp] theorem State.bindSteep_kept (s : State) (c : Nat) (b : Option (Nat × Nat)) : (State.bindSteep s c b).pending = s.pending ∧ (State.bindSteep s c b).nv = s.nv := by
  simp only [State.bindSteep]
  (repeat' split) <;> simp [*]

@[simp] theorem State.endRun_kept (s : State) (c qp : Nat) (halt : Option (Nat × Nat)) : (State.endRun s c qp halt).pending = s.pending ∧ (State.endRun s c qp halt).nv = s.nv := by
  simp only [State.endRun]
  (repeat' split) <;> simp [*]

@[simp] theorem State.releaseClaims_kept (s : State) (p c : Nat) : (State.releaseClaims s p c).pending = s.pending ∧ (State.releaseClaims s p c).nv = s.nv := by
  simp only [State.releaseClaims]
  (repeat' split) <;> simp [*]

@[simp] theorem State.dropWork_kept (s : State) (c : Nat) (x : Ctx) : (State.dropWork s c x).pending = s.pending ∧ (State.dropWork s c x).nv = s.nv := by
  simp only [State.dropWork]
  refine foldl_kept _ (fun t q => ?_) _ _
  split <;> simp

@[simp] theorem State.removeCtx_kept (s : State) (c : Nat) : (State.removeCtx s c).pending = s.pending ∧ (State.removeCtx s c).nv = s.nv := by
  simp only [State.removeCtx]
  (repeat' split) <;> simp [*]

@[simp] theorem State.finishCloses_kept (s : State) (c : Nat) : (State.finishCloses s c).pending = s.pending ∧ (State.finishCloses s c).nv = s.nv := by
  simp only [State.finishCloses]
  (repeat' split) <;> simp [*]

@[simp] theorem State.modShare_kept (s : State) (pt : Nat) (f : Share → Share) : (State.modShare s pt f).pending = s.pending ∧ (State.modShare s pt f).nv = s.nv := by
  simp only [State.modShare]
  (repeat' split) <;> simp [*]

@[simp] theorem State.wake_kept (s : State) (out : Nat) (c : Charge) : (State.wake s out c).pending = s.pending ∧ (State.wake s out c).nv = s.nv := by
  simp only [State.wake]
  (repeat' split) <;> simp [*]

@[simp] theorem State.chargeTags_kept (s : State) (pt : Nat) (c : Charge) (x : Nat) : (State.chargeTags s pt c x).pending = s.pending ∧ (State.chargeTags s pt c x).nv = s.nv := by
  simp only [State.chargeTags]
  (repeat' split) <;> simp [*]

@[simp] theorem State.setBucket_kept (s : State) (p a : Nat) (b : Int) : (State.setBucket s p a b).pending = s.pending ∧ (State.setBucket s p a b).nv = s.nv := by
  simp only [State.setBucket]
  (repeat' split) <;> simp [*]

@[simp] theorem State.chargeOutput_kept (s : State) (out : Nat) (c : Charge) (n : Nat) : (State.chargeOutput s out c n).pending = s.pending ∧ (State.chargeOutput s out c n).nv = s.nv := by
  simp only [State.chargeOutput]
  (repeat' split) <;> simp [*]

@[simp] theorem State.newReq_kept (s : State) (ow : ReqOwner) (p h l : Nat) (wr : Bool) (tier tray port out : Nat) : (State.newReq s ow p h l wr tier tray port out).pending = s.pending ∧ (State.newReq s ow p h l wr tier tray port out).nv = s.nv := by
  simp only [State.newReq]
  (repeat' split) <;> simp [*]

@[simp] theorem State.addReq_kept (s : State) (o : ReqOwner) (p h l : Nat) (wr : Bool) (tray : Nat) : (State.addReq s o p h l wr tray).pending = s.pending ∧ (State.addReq s o p h l wr tray).nv = s.nv := by
  simp only [State.addReq]
  (repeat' split) <;> simp [*]

@[simp] theorem State.addStackReq_kept (s : State) (o : ReqOwner) (p h l : Nat) (wr : Bool) (c : Nat) : (State.addStackReq s o p h l wr c).pending = s.pending ∧ (State.addStackReq s o p h l wr c).nv = s.nv := by
  simp only [State.addStackReq]
  (repeat' split) <;> simp [*]

@[simp] theorem State.dropExtent_kept (s : State) (h e : Nat) : (State.dropExtent s h e).pending = s.pending ∧ (State.dropExtent s h e).nv = s.nv := by
  simp only [State.dropExtent]
  (repeat' split) <;> simp [*]

@[simp] theorem State.writeBackGranule_kept (s : State) (o : Obj) (h e g : Nat) : (State.writeBackGranule s o h e g).pending = s.pending ∧ (State.writeBackGranule s o h e g).nv = s.nv := by
  simp only [State.writeBackGranule]
  (repeat' split) <;> simp [*]

@[simp] theorem State.evictExtent_kept (s : State) (h e : Nat) : (State.evictExtent s h e).1.pending = s.pending ∧ (State.evictExtent s h e).1.nv = s.nv := by
  simp only [State.evictExtent]
  (repeat' split) <;> simp [*]

@[simp] theorem State.makeRoom_kept (s : State) (p n k : Nat) :
    (s.makeRoom p n k).1.pending = s.pending ∧ (s.makeRoom p n k).1.nv = s.nv := by
  induction k generalizing s with
  | zero => exact ⟨rfl, rfl⟩
  | succ k ih =>
    simp only [State.makeRoom]
    split
    · exact ⟨rfl, rfl⟩
    · split
      · exact ⟨rfl, rfl⟩
      · split
        · exact ⟨rfl, rfl⟩
        · rename_i h e _
          have hv := State.evictExtent_kept s h e
          split
          · rename_i t ht; rw [ht] at hv; exact ⟨(ih t).1.trans hv.1, (ih t).2.trans hv.2⟩
          · exact hv

@[simp] theorem State.placeExtent_kept (s : State) (h e : Nat) : (State.placeExtent s h e).pending = s.pending ∧ (State.placeExtent s h e).nv = s.nv := by
  simp only [State.placeExtent]
  (repeat' split) <;> simp [*]

@[simp] theorem State.roomForExtent_kept (s : State) (h e : Nat) : (State.roomForExtent s h e).1.pending = s.pending ∧ (State.roomForExtent s h e).1.nv = s.nv := by
  simp only [State.roomForExtent]
  split
  · exact ⟨rfl, rfl⟩
  · split
    · exact ⟨rfl, rfl⟩
    · have hm := State.makeRoom_kept s (handlePart h) (2 ^ 21) (s.extentCount (handlePart h))
      split
      · rename_i t ht; rw [ht] at hm; simpa using hm
      · exact hm

@[simp] theorem State.fillRead_kept (s : State) (h g : Nat) : ∀ u, State.fillRead s h g = some u → u.pending = s.pending ∧ u.nv = s.nv := by
  intro u hu
  simp only [State.fillRead] at hu
  repeat' split at hu
  all_goals first | cases hu; simp | cases hu

@[simp] theorem State.endFill_kept (s : State) (h g : Nat) (final : Option Nat) : (State.endFill s h g final).pending = s.pending ∧ (State.endFill s h g final).nv = s.nv := by
  simp only [State.endFill]
  (repeat' split) <;> simp [*]

@[simp] theorem State.retryFill_kept (s : State) (f : Fill) : (State.retryFill s f).pending = s.pending ∧ (State.retryFill s f).nv = s.nv := by
  simp only [State.retryFill]
  have h1 := State.roomForExtent_kept s f.handle (extentOf f.granule)
  split
  · rename_i u hu
    rw [hu] at h1
    cases h2 : State.fillRead _ f.handle f.granule with
    | none => simpa using h1
    | some v =>
      have h3 := State.fillRead_kept _ _ _ _ h2
      simpa using ⟨h3.1.trans h1.1, h3.2.trans h1.2⟩
  · rename_i u _ _ hu; rw [hu] at h1; exact h1

@[simp] theorem State.issueFill_kept (s : State) (h g : Nat) (reader : Option ReqOwner) : (State.issueFill s h g reader).pending = s.pending ∧ (State.issueFill s h g reader).nv = s.nv := by
  simp only [State.issueFill]
  (repeat' split) <;> simp

@[simp] theorem State.prefetch_kept (s : State) (x : Ctx) : (State.prefetch s x).pending = s.pending ∧ (State.prefetch s x).nv = s.nv := by
  simp only [State.prefetch]
  (repeat' split) <;> try exact ⟨rfl, rfl⟩
  refine foldl_kept _ (fun t d => ?_) _ _
  (repeat' split) <;> simp

@[simp] theorem State.passOnce_kept (s : State) (p : Nat) (l : Obj) (j : Nat) : (State.passOnce s p l j).pending = s.pending ∧ (State.passOnce s p l j).nv = s.nv := by
  simp only [State.passOnce]
  (repeat' split) <;> simp [*]

@[simp] theorem State.steepAdvance_kept (s : State) (c h : Nat) (rs : List (Nat × Nat)) : (State.steepAdvance s c h rs).pending = s.pending ∧ (State.steepAdvance s c h rs).nv = s.nv := by
  simp only [State.steepAdvance]
  (repeat' split) <;> (try simp) <;>
  (refine foldl_kept_of _ (fun t d => ?_) _ ?_ <;> (repeat' split) <;> simp)

@[simp] theorem State.requestMove_kept (s : State) (ow : ReqOwner) (o : Obj) (h l : Nat) : (State.requestMove s ow o h l).pending = s.pending ∧ (State.requestMove s ow o h l).nv = s.nv := by
  simp only [State.requestMove]
  (repeat' split) <;> simp [*]

@[simp] theorem State.requestLine_kept (s : State) (ow : ReqOwner) (h l : Nat) (wr : Bool) : (State.requestLine s ow h l wr).pending = s.pending ∧ (State.requestLine s ow h l wr).nv = s.nv := by
  simp only [State.requestLine]
  (repeat' split) <;> simp [*]

@[simp] theorem State.sendSnoop_kept (s : State) (h l n : Nat) (inv : Bool) : (State.sendSnoop s h l n inv).pending = s.pending ∧ (State.sendSnoop s h l n inv).nv = s.nv := by
  simp only [State.sendSnoop]
  (repeat' split) <;> simp [*]

@[simp] theorem State.snoopLine_kept (s : State) (h l : Nat) (wr : Bool) (self : Option Nat) : (State.snoopLine s h l wr self).pending = s.pending ∧ (State.snoopLine s h l wr self).nv = s.nv := by
  simp only [State.snoopLine]
  (repeat' split) <;> first
    | simp [*]; done
    | (refine foldl_kept_of _ (fun t a => ?_) _ ?_ <;> (repeat' split) <;> simp [*])

@[simp] theorem State.joinHot_kept (s : State) (ow : ReqOwner) (h l : Nat) : (State.joinHot s ow h l).pending = s.pending ∧ (State.joinHot s ow h l).nv = s.nv := by
  simp only [State.joinHot]
  (repeat' split) <;> simp [*]

@[simp] theorem State.requestRun_kept (s : State) (ow : ReqOwner) (p bytes port out : Nat) : (State.requestRun s ow p bytes port out).pending = s.pending ∧ (State.requestRun s ow p bytes port out).nv = s.nv := by
  simp only [State.requestRun]
  (repeat' split) <;> simp [*]

@[simp] theorem State.requestLines_kept (s : State) (ow : ReqOwner) (h : Nat) (ls : List Nat) (wr : Bool) : (State.requestLines s ow h ls wr).pending = s.pending ∧ (State.requestLines s ow h ls wr).nv = s.nv := by
  simp only [State.requestLines]
  (repeat' split) <;> simp [*]

@[simp] theorem State.dropReqs_kept (s : State) (ow : ReqOwner) : (State.dropReqs s ow).pending = s.pending ∧ (State.dropReqs s ow).nv = s.nv := by
  simp only [State.dropReqs]
  (repeat' split) <;> simp [*]

@[simp] theorem State.takeEngine_kept (s : State) (slot req b : Nat) : (State.takeEngine s slot req b).pending = s.pending ∧ (State.takeEngine s slot req b).nv = s.nv := by
  simp only [State.takeEngine]
  (repeat' split) <;> simp [*]

@[simp] theorem State.freeEngine_kept (s : State) (slot req : Nat) : (State.freeEngine s slot req).pending = s.pending ∧ (State.freeEngine s slot req).nv = s.nv := by
  simp only [State.freeEngine]
  (repeat' split) <;> simp [*]

@[simp] theorem State.touchLines_kept (s : State) (h : Nat) (ls : List Nat) : (State.touchLines s h ls).pending = s.pending ∧ (State.touchLines s h ls).nv = s.nv := by
  simp only [State.touchLines]
  (repeat' split) <;> simp [*]

@[simp] theorem State.startMem_kept (s : State) (slot c : Nat) (x : Ctx) (q0 : Outst) (b : Nat) (engine comet : Bool) (u : IssueSlot) : (State.startMem s slot c x q0 b engine comet u).pending = s.pending ∧ (State.startMem s slot c x q0 b engine comet u).nv = s.nv := by
  simp only [State.startMem]
  (repeat' split) <;> simp [*]

@[simp] theorem State.startFetch_kept (s : State) (c : Nat) (x : Ctx) : (State.startFetch s c x).pending = s.pending ∧ (State.startFetch s c x).nv = s.nv := by
  simp only [State.startFetch]
  (repeat' split) <;> simp [*]

theorem State.issueWith_kept (s : State) (slot : Nat) (w : MWord) (h : Shape) (own gated : Bool)
    (body : Nat → Ctx → State) (hb : ∀ c x, (body c x).pending = s.pending ∧ (body c x).nv = s.nv) :
    (s.issueWith slot w h own gated body).pending = s.pending ∧ (s.issueWith slot w h own gated body).nv = s.nv := by
  simp only [State.issueWith]
  (repeat' split) <;> simp [*]

@[simp] theorem State.issue_kept (s : State) (slot : Nat) (w : MWord) (h : Shape) (own gated : Bool) (body : Ctx → IRes) : (State.issue s slot w h own gated body).pending = s.pending ∧ (State.issue s slot w h own gated body).nv = s.nv := by
  unfold State.issue
  exact State.issueWith_kept _ _ _ _ _ _ _ (fun c x => by simp)

@[simp] theorem State.enterSegment_kept (s : State) (m : Nat) (t : Strm) : ∀ u, State.enterSegment s m t = some u → u.pending = s.pending ∧ u.nv = s.nv := by
  simp only [State.enterSegment]
  (repeat' split) <;> simp [*]

@[simp] theorem State.enterStreams_kept (s : State) (m : Nat) (l : List Strm) :
    (s.enterStreams m l).pending = s.pending ∧ (s.enterStreams m l).nv = s.nv := by
  induction l generalizing s with
  | nil => exact ⟨rfl, rfl⟩
  | cons a r ih =>
    simp only [State.enterStreams]
    split
    · exact ih s
    · split
      · have h := State.enterSegment_kept _ _ _ _ ‹_›
        exact ⟨(ih _).1.trans h.1, (ih _).2.trans h.2⟩
      · exact ⟨rfl, rfl⟩

@[simp] theorem State.runStreams_kept (s : State) (m : Nat) : (State.runStreams s m).pending = s.pending ∧ (State.runStreams s m).nv = s.nv := by simp [State.runStreams]

@[simp] theorem State.startStream_kept (s : State) (slot c : Nat) (x : Ctx) (q0 : Outst) (ref b n : Nat) (u : IssueSlot) : (State.startStream s slot c x q0 ref b n u).pending = s.pending ∧ (State.startStream s slot c x q0 ref b n u).nv = s.nv := by
  simp only [State.startStream]
  (repeat' split) <;> simp [*]

@[simp] theorem State.endStream_kept (s : State) (m req : Nat) : (State.endStream s m req).pending = s.pending ∧ (State.endStream s m req).nv = s.nv := by
  simp only [State.endStream]
  (repeat' split) <;> simp [*]

@[simp] theorem State.countSegment_kept (s : State) (m : Nat) (t : Strm) (d : Memory) : (State.countSegment s m t d).pending = s.pending ∧ (State.countSegment s m t d).nv = s.nv := by
  simp only [State.countSegment]
  (repeat' split) <;> simp [*]

@[simp] theorem State.nextSegment_kept (s : State) (m : Nat) (t : Strm) : (State.nextSegment s m t).pending = s.pending ∧ (State.nextSegment s m t).nv = s.nv := by
  simp only [State.nextSegment]
  (repeat' split) <;> simp [*]

@[simp] theorem State.memIssue_kept (s : State) (slot : Nat) (w : MWord) (h : Shape) (own gated store comet engine : Bool) (body : Ctx → MRes) : (State.memIssue s slot w h own gated store comet engine body).pending = s.pending ∧ (State.memIssue s slot w h own gated store comet engine body).nv = s.nv := by
  unfold State.memIssue
  exact State.issueWith_kept _ _ _ _ _ _ _ (fun c x => by (repeat' split) <;> simp)

@[simp] theorem State.streamMove_kept (s : State) (slot : Nat) (w : MWord) (opc : Nat) (store comet : Bool) : (State.streamMove s slot w opc store comet).pending = s.pending ∧ (State.streamMove s slot w opc store comet).nv = s.nv := by
  simp only [State.streamMove]
  (repeat' split) <;> simp [*]

@[simp] theorem State.idleEvent_kept (s : State) (p : Nat) : (State.idleEvent s p).pending = s.pending ∧ (State.idleEvent s p).nv = s.nv := by
  simp only [State.idleEvent]
  (repeat' split) <;> simp [*]

@[simp] theorem State.raiseDev_kept (s : State) (p : Nat) : (State.raiseDev s p).pending = s.pending ∧ (State.raiseDev s p).nv = s.nv := by
  simp only [State.raiseDev]
  (repeat' split) <;> simp [*]

@[simp] theorem State.raiseHost_kept (s : State) (p : Nat) : (State.raiseHost s p).pending = s.pending ∧ (State.raiseHost s p).nv = s.nv := by
  simp only [State.raiseHost]
  (repeat' split) <;> simp [*]

@[simp] theorem State.triggerTeardown_kept (s : State) (p job code b : Nat) : (State.triggerTeardown s p job code b).pending = s.pending ∧ (State.triggerTeardown s p job code b).nv = s.nv := by
  simp only [State.triggerTeardown]
  (repeat' split) <;> simp [*]

@[simp] theorem State.rereadGranule_kept (s : State) (h g : Nat) : ∀ u, State.rereadGranule s h g = some u → u.pending = s.pending ∧ u.nv = s.nv := by
  intro u hu
  simp only [State.rereadGranule] at hu
  split at hu
  · cases hu
  · simp only [Option.map_eq_some_iff] at hu
    obtain ⟨t, ht, rfl⟩ := hu
    have h1 := State.fillRead_kept _ _ _ _ ht
    simpa using h1

@[simp] theorem State.tier1Error_kept (s : State) (h l : Nat) : (State.tier1Error s h l).pending = s.pending ∧ (State.tier1Error s h l).nv = s.nv := by
  simp only [State.tier1Error]
  (repeat' split) <;> try exact ⟨rfl, rfl⟩
  all_goals first | (simp; done) | skip
  rename_i t ht
  split at ht
  · have h1 := State.rereadGranule_kept _ _ _ _ ht
    simpa using h1
  · cases ht

@[simp] theorem State.lineErrors_kept (s : State) (h : Nat) (ls bad : List Nat) : (State.lineErrors s h ls bad).pending = s.pending ∧ (State.lineErrors s h ls bad).nv = s.nv := by
  simp only [State.lineErrors]
  (repeat' split) <;> first
    | simp [*]; done
    | (refine foldl_kept_of _ (fun t a => ?_) _ ?_ <;> (repeat' split) <;> simp [*])

@[simp] theorem State.teardownFor_kept (s : State) (part job h : Nat) (ls : List Nat) (wr reads died : Bool) (st : Nat) : (State.teardownFor s part job h ls wr reads died st).pending = s.pending ∧ (State.teardownFor s part job h ls wr reads died st).nv = s.nv := by
  simp only [State.teardownFor]
  (repeat' split) <;> simp [*]

@[simp] theorem State.failureTeardown_kept (s : State) (x : Ctx) (ow : ReqOwner) (q : Outst) (st : Nat) : (State.failureTeardown s x ow q st).pending = s.pending ∧ (State.failureTeardown s x ow q st).nv = s.nv := by
  simp only [State.failureTeardown]
  (repeat' split) <;> simp [*]

@[simp] theorem State.segmentRead_kept (s : State) (slot c : Nat) (x : Ctx) (q : Outst) (t : Strm) : (State.segmentRead s slot c x q t).pending = s.pending ∧ (State.segmentRead s slot c x q t).nv = s.nv := by
  simp only [State.segmentRead]
  (repeat' split) <;> simp [*]

@[simp] theorem State.refuseMessage_kept (s : State) (port : Option Nat) (p : Option Nat) (m : Msg) : (State.refuseMessage s port p m).pending = s.pending ∧ (State.refuseMessage s port p m).nv = s.nv := by
  simp only [State.refuseMessage]
  (repeat' split) <;> simp [*]

@[simp] theorem State.deliver_kept (s : State) (port : Option Nat) (ref : Nat) (m : Msg) : (State.deliver s port ref m).2.pending = s.pending ∧ (State.deliver s port ref m).2.nv = s.nv := by
  simp only [State.deliver]
  (repeat' split) <;> simp [*]

end Sys2Proof.Machine
end

