-- ==== Sys2Proof/Laws/KeptFabric.lean ====
section
/-!
SUPPORT. What the operations of the fabric, the crossbar, the queue pairs, the links and the power side keep: the commands that wait, and what outlives loss of power.
-/
namespace Sys2Proof.Machine

@[simp] theorem State.nmeEffect_kept (s : State) (a : NmeArg) (n : Nat) : (State.nmeEffect s a n).1.pending = s.pending ∧ (State.nmeEffect s a n).1.nv = s.nv := by
  simp only [State.nmeEffect]
  (repeat' split) <;> simp [*]

@[simp] theorem State.fromTray_kept (s : State) (h l : Nat) (cipher : List Byte) : (State.fromTray s h l cipher).pending = s.pending ∧ (State.fromTray s h l cipher).nv = s.nv := by
  simp only [State.fromTray]
  (repeat' split) <;> simp [*]

@[simp] theorem State.writtenBy_kept (s : State) (r : Req) : (State.writtenBy s r).pending = s.pending ∧ (State.writtenBy s r).nv = s.nv := by
  simp only [State.writtenBy]
  (repeat' split) <;> simp [*]

@[simp] theorem State.noteSent_kept (s : State) (t h l : Nat) (cipher : List Byte) : (State.noteSent s t h l cipher).pending = s.pending ∧ (State.noteSent s t h l cipher).nv = s.nv := by
  simp only [State.noteSent]
  (repeat' split) <;> simp [*]

@[simp] theorem State.toTray_kept (s : State) (r : Req) : (State.toTray s r).pending = s.pending ∧ (State.toTray s r).nv = s.nv := by
  simp only [State.toTray]
  (repeat' split) <;> simp [*]

@[simp] theorem State.modReq_kept (s : State) (id : Nat) (f : Req → Req) : (State.modReq s id f).pending = s.pending ∧ (State.modReq s id f).nv = s.nv := by
  simp only [State.modReq]
  (repeat' split) <;> simp [*]

@[simp] theorem State.sendOut_kept (s : State) (r : Req) : (State.sendOut s r).pending = s.pending ∧ (State.sendOut s r).nv = s.nv := by
  simp only [State.sendOut]
  (repeat' split) <;> simp [*]

@[simp] theorem State.takeTag_kept (s : State) (id : Nat) : (State.takeTag s id).pending = s.pending ∧ (State.takeTag s id).nv = s.nv := by
  simp only [State.takeTag]
  (repeat' split) <;> simp [*]

@[simp] theorem State.admitReq_kept (s : State) (id : Nat) : (State.admitReq s id).pending = s.pending ∧ (State.admitReq s id).nv = s.nv := by
  simp only [State.admitReq]
  (repeat' split) <;> simp [*]

@[simp] theorem State.reachPort_kept (s : State) (id : Nat) : (State.reachPort s id).pending = s.pending ∧ (State.reachPort s id).nv = s.nv := by
  simp only [State.reachPort]
  (repeat' split) <;> simp [*]

@[simp] theorem State.modDir_kept (s : State) (h l : Nat) (f : DirEnt → DirEnt) : (State.modDir s h l f).pending = s.pending ∧ (State.modDir s h l f).nv = s.nv := by
  simp only [State.modDir]
  (repeat' split) <;> simp [*]

@[simp] theorem State.dropDir_kept (s : State) (h l : Nat) : (State.dropDir s h l).pending = s.pending ∧ (State.dropDir s h l).nv = s.nv := by
  simp only [State.dropDir]
  (repeat' split) <;> simp [*]

@[simp] theorem State.grantLine_kept (s : State) (a : AccReq) : (State.grantLine s a).pending = s.pending ∧ (State.grantLine s a).nv = s.nv := by
  simp only [State.grantLine]
  (repeat' split) <;> simp [*]

@[simp] theorem State.evictDir_kept (s : State) : (State.evictDir s).pending = s.pending ∧ (State.evictDir s).nv = s.nv := by
  simp only [State.evictDir]
  (repeat' split) <;> simp [*]

@[simp] theorem State.snoopAnswered_kept (s : State) (q : Snoop) (keep : Bool) : (State.snoopAnswered s q keep).pending = s.pending ∧ (State.snoopAnswered s q keep).nv = s.nv := by
  simp only [State.snoopAnswered]
  (repeat' split) <;> simp [*]

@[simp] theorem State.modAcc_kept (s : State) (id : Nat) (f : AccReq → AccReq) : (State.modAcc s id f).pending = s.pending ∧ (State.modAcc s id f).nv = s.nv := by
  simp only [State.modAcc]
  (repeat' split) <;> simp [*]

@[simp] theorem State.admitHome_kept (s : State) (ow : ReqOwner) (out : Nat) : (State.admitHome s ow out).pending = s.pending ∧ (State.admitHome s ow out).nv = s.nv := by
  unfold State.admitHome
  refine foldl_kept _ (fun t r => ?_) _ _
  split <;> simp

@[simp] theorem State.accHome_kept (s : State) (id : Nat) : (State.accHome s id).pending = s.pending ∧ (State.accHome s id).nv = s.nv := by
  simp only [State.accHome]
  (repeat' split) <;> simp [*]

@[simp] theorem State.answerFrom_kept (s : State) (inp port tag : Nat) (write : Bool) : (State.answerFrom s inp port tag write).pending = s.pending ∧ (State.answerFrom s inp port tag write).nv = s.nv := by
  simp only [State.answerFrom]
  (repeat' split) <;> simp [*]

@[simp] theorem State.answerEmpty_kept (s : State) (port tag : Nat) (write : Bool) : (State.answerEmpty s port tag write).pending = s.pending ∧ (State.answerEmpty s port tag write).nv = s.nv := by
  simp only [State.answerEmpty]
  (repeat' split) <;> simp [*]

@[simp] theorem State.dropAcc_kept (s : State) (id : Nat) : (State.dropAcc s id).pending = s.pending ∧ (State.dropAcc s id).nv = s.nv := by
  simp only [State.dropAcc]
  (repeat' split) <;> simp [*]

@[simp] theorem State.performAcc_kept (s : State) (a : AccReq) : (State.performAcc s a).pending = s.pending ∧ (State.performAcc s a).nv = s.nv := by
  simp only [State.performAcc]
  (repeat' split) <;> simp [*]

@[simp] theorem State.finishEvict_kept (s : State) (h e : Nat) : (State.finishEvict s h e).pending = s.pending ∧ (State.finishEvict s h e).nv = s.nv := by
  simp only [State.finishEvict]
  (repeat' split) <;> simp [*]

@[simp] theorem State.finishEvicts_kept (s : State) : (State.finishEvicts s).pending = s.pending ∧ (State.finishEvicts s).nv = s.nv := by
  simp only [State.finishEvicts]
  (repeat' split) <;> simp [*]

@[simp] theorem State.finishAccs_kept (s : State) : (State.finishAccs s).pending = s.pending ∧ (State.finishAccs s).nv = s.nv := by
  unfold State.finishAccs
  rw [(State.finishEvicts_kept _).1, (State.finishEvicts_kept _).2]
  refine foldl_kept _ (fun t i => ?_) _ _
  (repeat' split) <;> simp

@[simp] theorem State.dropLineReqs_kept (s : State) (h l : Nat) (ows : List ReqOwner) : (State.dropLineReqs s h l ows).pending = s.pending ∧ (State.dropLineReqs s h l ows).nv = s.nv := by
  simp only [State.dropLineReqs]
  (repeat' split) <;> simp [*]

@[simp] theorem State.applyLine_kept (s : State) (q : Outst) (l : Nat) : (State.applyLine s q l).1.pending = s.pending ∧ (State.applyLine s q l).1.nv = s.nv := by
  simp only [State.applyLine]
  (repeat' split) <;> simp [*]

@[simp] theorem State.setWork_kept (s : State) (ow : ReqOwner) (q : Outst) : (State.setWork s ow q).pending = s.pending ∧ (State.setWork s ow q).nv = s.nv := by
  simp only [State.setWork]
  (repeat' split) <;> simp [*]

@[simp] theorem State.applyHot_kept (s : State) (ow : ReqOwner) (l : Nat) : (State.applyHot s ow l).pending = s.pending ∧ (State.applyHot s ow l).nv = s.nv := by
  simp only [State.applyHot]
  (repeat' split) <;> simp [*]

@[simp] theorem State.modMir_kept (s : State) (f : Mirror → Mirror) : (State.modMir s f).pending = s.pending ∧ (State.modMir s f).nv = s.nv := by
  simp only [State.modMir]
  (repeat' split) <;> simp [*]

@[simp] theorem State.mirrorRec_kept (s : State) (status code unit a b : Nat) : (State.mirrorRec s status code unit a b).pending = s.pending ∧ (State.mirrorRec s status code unit a b).nv = s.nv := by
  simp only [State.mirrorRec]
  (repeat' split) <;> simp [*]

@[simp] theorem State.countSpares_kept (s : State) : (State.countSpares s).pending = s.pending ∧ (State.countSpares s).nv = s.nv := by
  simp only [State.countSpares]
  (repeat' split) <;> simp [*]

@[simp] theorem State.setTray_kept (s : State) (t st k : Nat) : (State.setTray s t st k).pending = s.pending ∧ (State.setTray s t st k).nv = s.nv := by
  simp only [State.setTray]
  (repeat' split) <;> simp [*]

@[simp] theorem State.setPair_kept (s : State) (k st a b n : Nat) : (State.setPair s k st a b n).pending = s.pending ∧ (State.setPair s k st a b n).nv = s.nv := by
  simp only [State.setPair]
  (repeat' split) <;> simp [*]

@[simp] theorem State.flushLostOne_kept (t : State) (r : Nat × Nat) : (State.flushLostOne t r).pending = t.pending ∧ (State.flushLostOne t r).nv = t.nv := by
  simp only [State.flushLostOne]
  (repeat' split) <;> simp [*]

@[simp] theorem State.flushLost_kept (s : State) : (State.flushLost s).pending = s.pending ∧ (State.flushLost s).nv = s.nv := by
  unfold State.flushLost
  exact foldl_kept _ (fun t r => State.flushLostOne_kept t r) _ _

@[simp] theorem State.markLost_kept (s : State) (h : Nat) (gs : List Nat) : (State.markLost s h gs).pending = s.pending ∧ (State.markLost s h gs).nv = s.nv := by
  simp only [State.markLost]
  (repeat' split) <;> simp [*]

@[simp] theorem State.markAllLost_kept (s : State) (l : List (Nat × Nat)) : (State.markAllLost s l).pending = s.pending ∧ (State.markAllLost s l).nv = s.nv := by
  simp only [State.markAllLost]
  (repeat' split) <;> simp [*]

@[simp] theorem State.startRebuild_kept (s : State) (k : Nat) : (State.startRebuild s k).pending = s.pending ∧ (State.startRebuild s k).nv = s.nv := by
  simp only [State.startRebuild]
  (repeat' split) <;> simp [*]

@[simp] theorem State.startRebuilds_kept (s : State) : (State.startRebuilds s).pending = s.pending ∧ (State.startRebuilds s).nv = s.nv := by
  simp only [State.startRebuilds]
  (repeat' split) <;> simp [*]

@[simp] theorem State.updateHold_kept (s : State) : (State.updateHold s).pending = s.pending ∧ (State.updateHold s).nv = s.nv := by
  simp only [State.updateHold]
  (repeat' split) <;> simp [*]

@[simp] theorem State.settleMirrors_kept (s : State) : (State.settleMirrors s).pending = s.pending ∧ (State.settleMirrors s).nv = s.nv := by
  simp only [State.settleMirrors]
  (repeat' split) <;> simp [*]

@[simp] theorem State.endRebuild_kept (s : State) (k : Nat) : (State.endRebuild s k).pending = s.pending ∧ (State.endRebuild s k).nv = s.nv := by
  simp only [State.endRebuild]
  (repeat' split) <;> simp [*]

@[simp] theorem State.pairAfter_kept (s : State) (t k : Nat) : (State.pairAfter s t k).pending = s.pending ∧ (State.pairAfter s t k).nv = s.nv := by
  simp only [State.pairAfter]
  (repeat' split) <;> simp [*]

@[simp] theorem State.failOut_kept (s : State) (t : Nat) : (State.failOut s t).pending = s.pending ∧ (State.failOut s t).nv = s.nv := by
  simp only [State.failOut]
  (repeat' split) <;> simp [*]

@[simp] theorem State.checkTarget_kept (s : State) (t : Nat) : (State.checkTarget s t).pending = s.pending ∧ (State.checkTarget s t).nv = s.nv := by
  simp only [State.checkTarget]
  (repeat' split) <;> simp [*]

@[simp] theorem State.trayEvent_kept (s : State) (t n : Nat) : (State.trayEvent s t n).pending = s.pending ∧ (State.trayEvent s t n).nv = s.nv := by
  simp only [State.trayEvent]
  (repeat' split) <;> simp [*]

@[simp] theorem State.linkEvent_kept (s : State) (n k : Nat) : (State.linkEvent s n k).pending = s.pending ∧ (State.linkEvent s n k).nv = s.nv := by
  simp only [State.linkEvent]
  (repeat' split) <;> simp [*]

@[simp] theorem State.formPair_kept (s : State) (t u off : Nat) : (State.formPair s t u off).pending = s.pending ∧ (State.formPair s t u off).nv = s.nv := by
  simp only [State.formPair]
  (repeat' split) <;> simp [*]

@[simp] theorem State.writeTrayCtrl_kept (s : State) (t : Nat) (v : Word) : (State.writeTrayCtrl s t v).pending = s.pending ∧ (State.writeTrayCtrl s t v).nv = s.nv := by
  simp only [State.writeTrayCtrl]
  (repeat' split) <;> simp [*]

@[simp] theorem State.checkTray_kept (s : State) (t : Nat) (clean : Bool) : (State.checkTray s t clean).pending = s.pending ∧ (State.checkTray s t clean).nv = s.nv := by
  simp only [State.checkTray]
  (repeat' split) <;> simp [*]

@[simp] theorem State.healthRise_kept (s : State) : (State.healthRise s).pending = s.pending ∧ (State.healthRise s).nv = s.nv := by
  simp only [State.healthRise]
  simp
  refine foldl_kept_of _ (fun t n => by split <;> simp) _ (foldl_kept _ (fun t y => by split <;> simp) _ _)

@[simp] theorem State.expel_kept (s : State) : (State.expel s).pending = s.pending ∧ (State.expel s).nv = s.nv := by
  simp only [State.expel]
  (repeat' split) <;> simp [*]

@[simp] theorem State.answerReq_kept (s : State) (id : Nat) (final : Option Nat) : (State.answerReq s id final).pending = s.pending ∧ (State.answerReq s id final).nv = s.nv := by
  simp only [State.answerReq]
  (repeat' split) <;> simp [*]

@[simp] theorem State.partnersFailed_kept (s : State) (r : Req) (st : Nat) : (State.partnersFailed s r st).pending = s.pending ∧ (State.partnersFailed s r st).nv = s.nv := by
  simp only [State.partnersFailed]
  (repeat' split) <;> simp [*]

@[simp] theorem State.failReq_kept (s : State) (id : Nat) (poison : Bool) : (State.failReq s id poison).pending = s.pending ∧ (State.failReq s id poison).nv = s.nv := by
  simp only [State.failReq]
  (repeat' split) <;> simp [*]

@[simp] theorem State.enterDeviceFault_kept (s : State) (cause unit : Nat) : (State.enterDeviceFault s cause unit).pending = s.pending ∧ (State.enterDeviceFault s cause unit).nv = s.nv := by
  simp only [State.enterDeviceFault]
  (repeat' split) <;> simp [*]

@[simp] theorem State.loseStack_kept (s : State) (i : Nat) : (State.loseStack s i).pending = s.pending ∧ (State.loseStack s i).nv = s.nv := by
  simp only [State.loseStack]
  (repeat' split) <;> simp [*]

@[simp] theorem State.fillCopy_kept (s : State) (f : Fill) : (State.fillCopy s f).pending = s.pending ∧ (State.fillCopy s f).nv = s.nv := by
  simp only [State.fillCopy]
  (repeat' split) <;> simp [*]

@[simp] theorem State.startMove_kept (s : State) (h : Nat) : (State.startMove s h).pending = s.pending ∧ (State.startMove s h).nv = s.nv := by
  simp only [State.startMove]
  (repeat' split) <;> simp [*]

@[simp] theorem State.beginMove_kept (s : State) (h : Nat) (m : Move) : (State.beginMove s h m).pending = s.pending ∧ (State.beginMove s h m).nv = s.nv := by
  simp only [State.beginMove]
  split
  · exact ⟨rfl, rfl⟩
  · rename_i o _
    have hm := State.makeRoom_kept s (handlePart h) (moveBytes o m.cls) (s.extentCount (handlePart h))
    split <;> (rename_i ht; rw [ht] at hm; simpa using hm)

@[simp] theorem State.stageMove_kept (s : State) (h cls : Nat) (pairs : List Nat) : (State.stageMove s h cls pairs).pending = s.pending ∧ (State.stageMove s h cls pairs).nv = s.nv := by
  simp only [State.stageMove]
  (repeat' split) <;> simp

@[simp] theorem State.attribute_kept (s : State) (i : Imbal) (tier1 : Bool) (k : Nat) : (State.attribute s i tier1 k).pending = s.pending ∧ (State.attribute s i tier1 k).nv = s.nv := by
  simp only [State.attribute]
  (repeat' split) <;> first
    | simp [*]; done
    | (refine foldl_kept_of _ (fun t a => ?_) _ ?_ <;> (repeat' split) <;> simp [*])

@[simp] theorem State.runWindow_kept (s : State) (n : Nat) (tier1 : Bool) (loads : KV Nat) (run req : RField) : (State.runWindow s n tier1 loads run req).pending = s.pending ∧ (State.runWindow s n tier1 loads run req).nv = s.nv := by
  simp only [State.runWindow]
  (repeat' split) <;> simp [*]

@[simp] theorem State.imbalEnd_kept (s : State) (n : Nat) (tier1 : Bool) (loads : KV Nat) (i : Imbal) (run req : RField) : (State.imbalEnd s n tier1 loads i run req).1.pending = s.pending ∧ (State.imbalEnd s n tier1 loads i run req).1.nv = s.nv := by
  simp only [State.imbalEnd]
  (repeat' split) <;> simp [*]

@[simp] theorem State.nmeTeardown_kept (s : State) (part job d st : Nat) (died : Bool) (rs : List (Nat × Nat × Nat × Bool)) : (State.nmeTeardown s part job d st died rs).pending = s.pending ∧ (State.nmeTeardown s part job d st died rs).nv = s.nv := by
  simp only [State.nmeTeardown]
  (repeat' split) <;> first
    | simp [*]; done
    | (refine foldl_kept_of _ (fun t a => ?_) _ ?_ <;> (repeat' split) <;> simp [*])

@[simp] theorem State.wakeAcct_kept (s : State) (p q a : Nat) : (State.wakeAcct s p q a).pending = s.pending ∧ (State.wakeAcct s p q a).nv = s.nv := by
  simp only [State.wakeAcct]
  (repeat' split) <;> simp [*]

@[simp] theorem State.startMember_kept (s : State) (c : Nat) : (State.startMember s c).pending = s.pending ∧ (State.startMember s c).nv = s.nv := by
  simp only [State.startMember]
  (repeat' split) <;> simp [*]

@[simp] theorem State.registerObj_kept (s : State) (p tenant : Nat) (d : List Byte) : (State.registerObj s p tenant d).1.pending = s.pending ∧ (State.registerObj s p tenant d).1.nv = s.nv := by
  simp only [State.registerObj]
  split
  · exact ⟨rfl, rfl⟩
  · split
    · exact ⟨rfl, rfl⟩
    · have hm := State.makeRoom_kept s p (if pinnedClass (field d 24 1) then field d 16 8 else 0) (s.extentCount p)
      split <;> (rename_i ht; rw [ht] at hm; simpa using hm)

@[simp] theorem State.pushDesc_kept (s : State) (q : Nat) (d : List Byte) : (State.pushDesc s q d).pending = s.pending ∧ (State.pushDesc s q d).nv = s.nv := by
  simp only [State.pushDesc]
  (repeat' split) <;> simp [*]

@[simp] theorem State.ringBell_kept (s : State) (q w : Nat) (v : Word) : (State.ringBell s q w v).pending = s.pending ∧ (State.ringBell s q w v).nv = s.nv := by
  simp only [State.ringBell]
  (repeat' split) <;> simp [*]

theorem State.takeDesc_kept (s : State) (q : Nat) (d : List Byte) (u : State) (hu : s.takeDesc q = some (d, u)) :
    u.pending = s.pending ∧ u.nv = s.nv := by
  simp only [State.takeDesc] at hu
  split at hu
  · split at hu
    · cases hu; simp
    · cases hu
  · cases hu

@[simp] theorem State.setService_kept (s : State) (q : Nat) (d : List Byte) (v : Service) : (State.setService s q d v).pending = s.pending ∧ (State.setService s q d v).nv = s.nv := by
  simp only [State.setService]
  (repeat' split) <;> simp [*]

theorem State.serve_kept (s : State) (q op : Nat) (priv : Option Nat) (used : List (Nat × Nat))
    (body : List Byte → State → State × Service) (hb : ∀ d t, (body d t).1.pending = t.pending ∧ (body d t).1.nv = t.nv) :
    (s.serve q op priv used body).pending = s.pending ∧ (s.serve q op priv used body).nv = s.nv := by
  simp only [State.serve]
  split
  · exact ⟨rfl, rfl⟩
  · have h := State.takeDesc_kept _ _ _ _ ‹_›
    (repeat' split) <;> simp [hb, h]

@[simp] theorem State.startUnknown_kept (s : State) (q : Nat) : (State.startUnknown s q).pending = s.pending ∧ (State.startUnknown s q).nv = s.nv := by
  simp only [State.startUnknown]
  split
  · have h := State.takeDesc_kept _ _ _ _ ‹_›
    split <;> simp [h]
  · exact ⟨rfl, rfl⟩

@[simp] theorem State.dropViews_kept (s : State) (gone : Nat → Bool) : (State.dropViews s gone).pending = s.pending ∧ (State.dropViews s gone).nv = s.nv := by
  unfold State.dropViews
  refine foldl_kept_of _ (fun t k => ?_) _ ⟨rfl, rfl⟩
  dsimp only
  split <;> simp

@[simp] theorem State.freeObject_kept (s : State) (h : Nat) : (State.freeObject s h).pending = s.pending ∧ (State.freeObject s h).nv = s.nv := by
  simp only [State.freeObject]
  split
  · exact ⟨rfl, rfl⟩
  · simp only [State.dropViews_kept, State.modPart_kept]
    refine foldl_kept _ (fun t c => ?_) _ _
    (repeat' split) <;> simp

@[simp] theorem State.progress_kept (s : State) (q : Nat) : (State.progress s q).pending = s.pending ∧ (State.progress s q).nv = s.nv := by
  simp only [State.progress]
  (repeat' split) <;> simp [*]

@[simp] theorem fin_kept (s : State) (st r0 r1 : Nat) : (fin s st r0 r1).1.pending = s.pending ∧ (fin s st r0 r1).1.nv = s.nv := by
  simp only [fin]
  (repeat' split) <;> simp [*]

@[simp] theorem State.modOwn_kept (s : State) (ref : Nat) (f : OwnRec → OwnRec) : (State.modOwn s ref f).pending = s.pending ∧ (State.modOwn s ref f).nv = s.nv := by
  simp only [State.modOwn]
  (repeat' split) <;> simp [*]

@[simp] theorem State.beginRun_kept (s : State) (q : Nat) : (State.beginRun s q).pending = s.pending ∧ (State.beginRun s q).nv = s.nv := by
  simp only [State.beginRun]
  (repeat' split) <;> simp [*]

@[simp] theorem State.requestRange_kept (s : State) (id : Nat) (r : Nat × Nat × Nat × Bool) : (State.requestRange s id r).pending = s.pending ∧ (State.requestRange s id r).nv = s.nv := by
  simp only [State.requestRange]
  (repeat' split) <;> simp [*]

@[simp] theorem State.startNme_kept (s : State) (q : Nat) (a : NmeArg) : (State.startNme s q a).1.pending = s.pending ∧ (State.startNme s q a).1.nv = s.nv := by
  simp only [State.startNme]
  (repeat' split) <;> simp [*]

theorem State.owning_kept (s : State) (q : Nat) (d : List Byte) (body : Nat → Nat → State × Service)
    (hb : ∀ a b, (body a b).1.pending = s.pending ∧ (body a b).1.nv = s.nv) :
    (s.owning q d body).1.pending = s.pending ∧ (s.owning q d body).1.nv = s.nv := by
  simp only [State.owning]
  split <;> simp [hb]

@[simp] theorem State.lapseOffer_kept (s : State) (r : OwnRec) (report : Bool) : (State.lapseOffer s r report).pending = s.pending ∧ (State.lapseOffer s r report).nv = s.nv := by
  simp only [State.lapseOffer]
  (repeat' split) <;> simp [*]

@[simp] theorem State.modStep_kept (s : State) (p job id : Nat) (f : Step → Step) : (State.modStep s p job id f).pending = s.pending ∧ (State.modStep s p job id f).nv = s.nv := by
  simp only [State.modStep]
  (repeat' split) <;> simp [*]

@[simp] theorem State.redeal_kept (s : State) (p : Nat) : (State.redeal s p).pending = s.pending ∧ (State.redeal s p).nv = s.nv := by
  simp only [State.redeal]
  (repeat' split) <;> simp [*]

@[simp] theorem State.abortCtx_kept (s : State) (c : Nat) : (State.abortCtx s c).pending = s.pending ∧ (State.abortCtx s c).nv = s.nv := by
  simp only [State.abortCtx]
  (repeat' split) <;> simp [*]

@[simp] theorem State.markAbort_kept (s : State) (c : Nat) : (State.markAbort s c).pending = s.pending ∧ (State.markAbort s c).nv = s.nv := by
  simp only [State.markAbort]
  (repeat' split) <;> simp [*]

@[simp] theorem State.orphanOwned_kept (s : State) (p job : Nat) : (State.orphanOwned s p job).pending = s.pending ∧ (State.orphanOwned s p job).nv = s.nv := by
  simp only [State.orphanOwned]
  (repeat' split) <;> first
    | simp [*]; done
    | (refine foldl_kept_of _ (fun t a => ?_) _ ?_ <;> (repeat' split) <;> simp [*])

@[simp] theorem State.endJob_kept (s : State) (p job : Nat) : (State.endJob s p job).pending = s.pending ∧ (State.endJob s p job).nv = s.nv := by
  simp only [State.endJob]
  (repeat' split) <;> simp [*]

@[simp] theorem State.orphanLine_kept (s : State) (n : Nat) (d : DirEnt) : (State.orphanLine s n d).pending = s.pending ∧ (State.orphanLine s n d).nv = s.nv := by
  simp only [State.orphanLine]
  (repeat' split) <;> simp [*]

@[simp] theorem State.crashAccel_kept (s : State) (n : Nat) : (State.crashAccel s n).pending = s.pending ∧ (State.crashAccel s n).nv = s.nv := by
  simp only [State.crashAccel]
  (repeat' split) <;> simp [*]

@[simp] theorem State.renewPort_kept (s : State) (n : Nat) : (State.renewPort s n).pending = s.pending ∧ (State.renewPort s n).nv = s.nv := by
  simp only [State.renewPort]
  (repeat' split) <;> simp [*]

@[simp] theorem State.loseCtx_kept (s : State) (c : Nat) (x : Ctx) : (State.loseCtx s c x).pending = s.pending ∧ (State.loseCtx s c x).nv = s.nv := by
  simp only [State.loseCtx]
  (repeat' split) <;> simp [*]

@[simp] theorem State.loseJob_kept (s : State) (p job : Nat) : (State.loseJob s p job).pending = s.pending ∧ (State.loseJob s p job).nv = s.nv := by
  simp only [State.loseJob]
  (repeat' split) <;> simp [*]

@[simp] theorem State.modXin_kept (s : State) (n : Nat) (f : XIn → XIn) : (State.modXin s n f).pending = s.pending ∧ (State.modXin s n f).nv = s.nv := by
  simp only [State.modXin]
  (repeat' split) <;> simp [*]

@[simp] theorem State.noteRing_kept (s : State) : (State.noteRing s).pending = s.pending ∧ (State.noteRing s).nv = s.nv := by
  simp only [State.noteRing]
  (repeat' split) <;> simp [*]

@[simp] theorem State.pushOut_kept (s : State) (n : Nat) : (State.pushOut s n).pending = s.pending ∧ (State.pushOut s n).nv = s.nv := by
  simp only [State.pushOut]
  (repeat' split) <;> simp [*]

@[simp] theorem State.noteStall_kept (s : State) (n : Nat) : (State.noteStall s n).pending = s.pending ∧ (State.noteStall s n).nv = s.nv := by
  simp only [State.noteStall]
  (repeat' split) <;> simp [*]

@[simp] theorem State.cellArrives_kept (s : State) (n : Nat) (c : Cell) : (State.cellArrives s n c).pending = s.pending ∧ (State.cellArrives s n c).nv = s.nv := by
  simp only [State.cellArrives]
  (repeat' split) <;> simp [*]

@[simp] theorem State.rspArrives_kept (s : State) (n out cls : Nat) (tag : Nat × Nat) (b : CellBody) (ch : Channel) : (State.rspArrives s n out cls tag b ch).pending = s.pending ∧ (State.rspArrives s n out cls tag b ch).nv = s.nv := by
  simp only [State.rspArrives]
  (repeat' split) <;> simp [*]

@[simp] theorem State.purgeCell_kept (s : State) (n : Nat) (c : Cell) : (State.purgeCell s n c).pending = s.pending ∧ (State.purgeCell s n c).nv = s.nv := by
  simp only [State.purgeCell]
  (repeat' split) <;> simp [*]

@[simp] theorem State.countGrant_kept (s : State) (out inp : Nat) : (State.countGrant s out inp).pending = s.pending ∧ (State.countGrant s out inp).nv = s.nv := by
  simp only [State.countGrant]
  (repeat' split) <;> simp [*]

@[simp] theorem State.fabricPush_kept (s : State) (n src addr q : Nat) (desc : List Byte) : (State.fabricPush s n src addr q desc).pending = s.pending ∧ (State.fabricPush s n src addr q desc).nv = s.nv := by
  simp only [State.fabricPush]
  (repeat' split) <;> simp [*]

@[simp] theorem State.leave_kept (s : State) (r : Rsp) : (State.leave s r).pending = s.pending ∧ (State.leave s r).nv = s.nv := by
  simp only [State.leave]
  (repeat' split) <;> simp [*]

@[simp] theorem State.passOn_kept (s : State) (before out : Nat) : (State.passOn s before out).pending = s.pending ∧ (State.passOn s before out).nv = s.nv := by
  simp only [State.passOn]
  (repeat' split) <;> simp [*]

@[simp] theorem State.trayAnswers_kept (s : State) (id out : Nat) (poison abort : Bool) : (State.trayAnswers s id out poison abort).pending = s.pending ∧ (State.trayAnswers s id out poison abort).nv = s.nv := by
  simp only [State.trayAnswers]
  (repeat' split) <;> simp [*]

@[simp] theorem State.requestHome_kept (s : State) (id : Nat) (bad : Bool) : (State.requestHome s id bad).pending = s.pending ∧ (State.requestHome s id bad).nv = s.nv := by
  simp only [State.requestHome]
  (repeat' split) <;> simp [*]

@[simp] theorem State.deliverCell_kept (s : State) (n : Nat) (c : Cell) (bad : Bool) : (State.deliverCell s n c bad).pending = s.pending ∧ (State.deliverCell s n c bad).nv = s.nv := by
  unfold State.deliverCell
  split
  · simp
  · simp
  · simp
  · split <;> simp
  · exact ⟨rfl, rfl⟩
  · rename_i r m _
    have h := State.deliver_kept s (some n) r m
    split
    · rename_i t ht; rw [ht] at h; simpa using h
    · rename_i t _ ht; rw [ht] at h; exact h
  · simp

@[simp] theorem State.readThroughFill_kept (s : State) (r : Req) : (State.readThroughFill s r).pending = s.pending ∧ (State.readThroughFill s r).nv = s.nv := by
  simp only [State.readThroughFill]
  (repeat' split) <;> simp [*]

@[simp] theorem State.deliverReq_kept (s : State) (r : Req) : (State.deliverReq s r).pending = s.pending ∧ (State.deliverReq s r).nv = s.nv := by
  simp only [State.deliverReq]
  (repeat' split) <;> simp [*]

@[simp] theorem State.passOver_kept (s : State) (out : Nat) (c : Charge) : (State.passOver s out c).pending = s.pending ∧ (State.passOver s out c).nv = s.nv := by
  simp only [State.passOver]
  (repeat' split) <;> simp [*]

@[simp] theorem State.grant_kept (s : State) (out : Nat) (h : Head) (bad : Bool) : (State.grant s out h bad).pending = s.pending ∧ (State.grant s out h bad).nv = s.nv := by
  simp only [State.grant]
  (repeat' split) <;> simp [*]

theorem State.flit_kept (s : State) (n : Nat) (body : State → State)
    (hb : (body s).pending = s.pending ∧ (body s).nv = s.nv) :
    (s.flit n body).pending = s.pending ∧ (s.flit n body).nv = s.nv := by
  simp only [State.flit]
  (repeat' split) <;> simp [*]

@[simp] theorem State.foreign_kept (s : State) : (State.foreign s).pending = s.pending ∧ (State.foreign s).nv = s.nv := by
  simp only [State.foreign]
  (repeat' split) <;> simp [*]

@[simp] theorem State.refuseM2S_kept (s : State) (m : M2S) (k : AccKind) (w : RefusalAt) (p : Option Nat) (record : Bool) : (State.refuseM2S s m k w p record).pending = s.pending ∧ (State.refuseM2S s m k w p record).nv = s.nv := by
  simp only [State.refuseM2S]
  (repeat' split) <;> simp [*]

@[simp] theorem State.admitDoorbell_kept (s : State) (m : M2S) (p : Nat) (e : List Byte) (bytes : List Byte) : (State.admitDoorbell s m p e bytes).pending = s.pending ∧ (State.admitDoorbell s m p e bytes).nv = s.nv := by
  simp only [State.admitDoorbell]
  (repeat' split) <;> simp [*]

@[simp] theorem State.admitAcc_kept (s : State) (m : M2S) (k : AccKind) (p : Nat) (e : List Byte) (h : Nat) (o : Obj) (l : Nat) : (State.admitAcc s m k p e h o l).pending = s.pending ∧ (State.admitAcc s m k p e h o l).nv = s.nv := by
  unfold State.admitAcc
  cases k <;> simp

@[simp] theorem State.ingress_kept (s : State) (m : M2S) (k : AccKind) : (State.ingress s m k).pending = s.pending ∧ (State.ingress s m k).nv = s.nv := by
  simp only [State.ingress]
  (repeat' split) <;> simp [*]

@[simp] theorem State.m2s_kept (s : State) (m : M2S) (k : AccKind) : (State.m2s s m k).pending = s.pending ∧ (State.m2s s m k).nv = s.nv := by
  unfold State.m2s
  refine State.flit_kept _ _ _ ?_
  split <;> simp

@[simp] theorem State.birsp_kept (s : State) (n h l : Nat) (keep : Bool) : (State.birsp s n h l keep).pending = s.pending ∧ (State.birsp s n h l keep).nv = s.nv := by
  unfold State.birsp
  refine State.flit_kept _ _ _ ?_
  (repeat' split) <;> first | exact ⟨rfl, rfl⟩ | simp

@[simp] theorem State.answerArrives_kept (s : State) (port : Nat) (r : Req) (poison abort data : Bool) : (State.answerArrives s port r poison abort data).pending = s.pending ∧ (State.answerArrives s port r poison abort data).nv = s.nv := by
  simp only [State.answerArrives]
  (repeat' split) <;> simp [*]

@[simp] theorem State.fromTray?_kept (s : State) (r : Req) (data : Option (List Byte)) : (State.fromTray? s r data).pending = s.pending ∧ (State.fromTray? s r data).nv = s.nv := by
  simp only [State.fromTray?]
  (repeat' split) <;> simp [*]

@[simp] theorem State.toPeer_kept (s : State) (p : Nat) (what : ShadowMsg) : (State.toPeer s p what).pending = s.pending ∧ (State.toPeer s p what).nv = s.nv := by
  simp only [State.toPeer]
  (repeat' split) <;> simp [*]

@[simp] theorem State.shadowMode_kept (s : State) (p : Nat) (same : Bool) : (State.shadowMode s p same).pending = s.pending ∧ (State.shadowMode s p same).nv = s.nv := by
  simp only [State.shadowMode]
  (repeat' split) <;> simp [*]

@[simp] theorem State.joinSend_kept (s : State) (p : Nat) : (State.joinSend s p).pending = s.pending ∧ (State.joinSend s p).nv = s.nv := by
  simp only [State.joinSend]
  split
  · exact ⟨rfl, rfl⟩
  · split
    · exact ⟨rfl, rfl⟩
    · split
      · simp
      · have hm := State.makeRoom_kept s p (64 * 2 ^ 20) (s.extentCount p)
        split
        · simp
        · rename_i ht; rw [ht] at hm; simpa using hm

@[simp] theorem State.captureDigest_kept (s : State) (p closing : Nat) : (State.captureDigest s p closing).pending = s.pending ∧ (State.captureDigest s p closing).nv = s.nv := by
  simp only [State.captureDigest]
  (repeat' split) <;> simp [*]

@[simp] theorem State.promoted_kept (s : State) (p : Nat) : (State.promoted s p).pending = s.pending ∧ (State.promoted s p).nv = s.nv := by
  simp only [State.promoted]
  (repeat' split) <;> simp [*]

@[simp] theorem State.promoteAt_kept (s : State) (p : Nat) : (State.promoteAt s p).pending = s.pending ∧ (State.promoteAt s p).nv = s.nv := by
  simp only [State.promoteAt]
  (repeat' split) <;> simp [*]

@[simp] theorem State.compareDigest_kept (s : State) (p n : Nat) : (State.compareDigest s p n).pending = s.pending ∧ (State.compareDigest s p n).nv = s.nv := by
  simp only [State.compareDigest]
  (repeat' split) <;> simp [*]

@[simp] theorem State.applyForward_kept (s : State) (p : Nat) (i : ShadowInput) : ∀ u, State.applyForward s p i = some u → u.pending = s.pending ∧ u.nv = s.nv := by
  simp only [State.applyForward]
  (repeat' split) <;> simp [*]

@[simp] theorem State.modLink_kept (s : State) (f : Links → Links) : (State.modLink s f).pending = s.pending ∧ (State.modLink s f).nv = s.nv := by
  simp only [State.modLink]
  (repeat' split) <;> simp [*]

@[simp] theorem State.setPort_kept (s : State) (n st : Nat) : (State.setPort s n st).pending = s.pending ∧ (State.setPort s n st).nv = s.nv := by
  simp only [State.setPort]
  (repeat' split) <;> simp [*]

@[simp] theorem State.linkRec_kept (s : State) (status code n : Nat) : (State.linkRec s status code n).pending = s.pending ∧ (State.linkRec s status code n).nv = s.nv := by
  simp only [State.linkRec]
  (repeat' split) <;> simp [*]

@[simp] theorem State.noteCause_kept (s : State) (n : Nat) (c : Cause) : (State.noteCause s n c).pending = s.pending ∧ (State.noteCause s n c).nv = s.nv := by
  simp only [State.noteCause]
  (repeat' split) <;> simp [*]

@[simp] theorem State.leaveActive_kept (s : State) (n st : Nat) (c : Cause) : (State.leaveActive s n st c).pending = s.pending ∧ (State.leaveActive s n st c).nv = s.nv := by
  simp only [State.leaveActive]
  (repeat' split) <;> simp [*]

@[simp] theorem State.trigger_kept (s : State) (n st : Nat) (c : Cause) : (State.trigger s n st c).pending = s.pending ∧ (State.trigger s n st c).nv = s.nv := by
  simp only [State.trigger]
  (repeat' split) <;> simp [*]

@[simp] theorem State.startIde_kept (s : State) (n : Nat) : (State.startIde s n).pending = s.pending ∧ (State.startIde s n).nv = s.nv := by
  simp only [State.startIde]
  (repeat' split) <;> simp [*]

@[simp] theorem State.failPort_kept (s : State) (n : Nat) : (State.failPort s n).pending = s.pending ∧ (State.failPort s n).nv = s.nv := by
  simp only [State.failPort]
  simp
  refine foldl_kept_of _ (fun t a => ?_) _ ?_ <;> (repeat' split) <;> simp [*]

@[simp] theorem State.rerouteParts_kept (s : State) (n : Nat) : (State.rerouteParts s n).pending = s.pending ∧ (State.rerouteParts s n).nv = s.nv := by
  simp only [State.rerouteParts]
  (repeat' split) <;> simp [*]

@[simp] theorem State.shadowLinkLoss_kept (s : State) : (State.shadowLinkLoss s).pending = s.pending ∧ (State.shadowLinkLoss s).nv = s.nv := by
  simp only [State.shadowLinkLoss]
  (repeat' split) <;> first
    | simp [*]; done
    | (refine foldl_kept_of _ (fun t a => ?_) _ ?_ <;> (repeat' split) <;> simp [*])

@[simp] theorem State.lossOfRole_kept (s : State) (n : Nat) : (State.lossOfRole s n).pending = s.pending ∧ (State.lossOfRole s n).nv = s.nv := by
  simp only [State.lossOfRole]
  (repeat' split) <;> simp [*]

@[simp] theorem State.fromDetect_kept (s : State) (n : Nat) : (State.fromDetect s n).pending = s.pending ∧ (State.fromDetect s n).nv = s.nv := by
  simp only [State.fromDetect]
  (repeat' split) <;> simp [*]

@[simp] theorem State.losePort_kept (s : State) (n : Nat) : (State.losePort s n).pending = s.pending ∧ (State.losePort s n).nv = s.nv := by
  simp only [State.losePort]
  (repeat' split) <;> simp [*]

@[simp] theorem State.countCorrected_kept (s : State) (n : Nat) (errors : List Nat) : (State.countCorrected s n errors).pending = s.pending ∧ (State.countCorrected s n errors).nv = s.nv := by
  unfold State.countCorrected
  refine foldl_kept _ (fun t e => ?_) _ _
  split <;> simp

@[simp] theorem State.askAgain_kept (s : State) (n : Nat) (fails : List Nat) : (State.askAgain s n fails).pending = s.pending ∧ (State.askAgain s n fails).nv = s.nv := by
  simp only [State.askAgain]
  (repeat' split) <;> simp [*]

@[simp] theorem State.takeFrame_kept (s : State) (n : Nat) (words : List Codeword) (bad : List Nat) : (State.takeFrame s n words bad).pending = s.pending ∧ (State.takeFrame s n words bad).nv = s.nv := by
  simp only [State.takeFrame]
  (repeat' split) <;> simp [*]

@[simp] theorem State.failTraining_kept (s : State) (n : Nat) (c : Cause) : (State.failTraining s n c).pending = s.pending ∧ (State.failTraining s n c).nv = s.nv := by
  simp only [State.failTraining]
  (repeat' split) <;> simp [*]

@[simp] theorem State.enterActive_kept (s : State) (n w : Nat) : (State.enterActive s n w).pending = s.pending ∧ (State.enterActive s n w).nv = s.nv := by
  simp only [State.enterActive]
  (repeat' split) <;> simp [*]

@[simp] theorem State.setLaser_kept (s : State) (f v : Nat) : (State.setLaser s f v).pending = s.pending ∧ (State.setLaser s f v).nv = s.nv := by
  simp only [State.setLaser]
  (repeat' split) <;> simp [*]

@[simp] theorem State.goDark_kept (s : State) (n : Nat) : (State.goDark s n).pending = s.pending ∧ (State.goDark s n).nv = s.nv := by
  simp only [State.goDark]
  (repeat' split) <;> simp [*]

@[simp] theorem State.writePstate_kept (s : State) (n q : Nat) : (State.writePstate s n q).pending = s.pending ∧ (State.writePstate s n q).nv = s.nv := by
  simp only [State.writePstate]
  (repeat' split) <;> simp [*]

@[simp] theorem State.writePortCtrl_kept (s : State) (n : Nat) (v : Word) : (State.writePortCtrl s n v).pending = s.pending ∧ (State.writePortCtrl s n v).nv = s.nv := by
  simp only [State.writePortCtrl]
  (repeat' split) <;> simp [*]

@[simp] theorem State.loseEngine_kept (s : State) (j fault : Nat) : (State.loseEngine s j fault).pending = s.pending ∧ (State.loseEngine s j fault).nv = s.nv := by
  unfold State.loseEngine
  dsimp only
  split
  · exact ⟨rfl, rfl⟩
  · refine foldl_kept_of _ (fun t n => ?_) _ ?_
    · simp only [keeps_iff, State.losePort_kept, State.leaveActive_kept, and_self]
    · simp only [State.appendDev_kept, State.fset_kept, and_self]

@[simp] theorem State.admitTray_kept (s : State) (n cap : Nat) (fit : Bool) : (State.admitTray s n cap fit).pending = s.pending ∧ (State.admitTray s n cap fit).nv = s.nv := by
  simp only [State.admitTray]
  (repeat' split) <;> simp [*]

@[simp] theorem State.modPwr_kept (s : State) (f : Power → Power) : (State.modPwr s f).pending = s.pending ∧ (State.modPwr s f).nv = s.nv := by
  simp only [State.modPwr]
  (repeat' split) <;> simp [*]

@[simp] theorem State.modClk_kept (s : State) (f : Clocks → Clocks) : (State.modClk s f).pending = s.pending ∧ (State.modClk s f).nv = s.nv := by
  simp only [State.modClk]
  (repeat' split) <;> simp [*]

@[simp] theorem State.startClock_kept (s : State) (d : Nat) : (State.startClock s d).pending = s.pending ∧ (State.startClock s d).nv = s.nv := by
  simp only [State.startClock]
  (repeat' split) <;> simp [*]

@[simp] theorem State.latch_kept (s : State) (d : Nat) : (State.latch s d).pending = s.pending ∧ (State.latch s d).nv = s.nv := by
  simp only [State.latch]
  (repeat' split) <;> simp [*]

@[simp] theorem State.latchDone_kept (s : State) : (State.latchDone s).pending = s.pending ∧ (State.latchDone s).nv = s.nv := by
  simp only [State.latchDone]
  (repeat' split) <;> simp [*]

@[simp] theorem State.writeSnap_kept (s : State) (v : Word) : (State.writeSnap s v).pending = s.pending ∧ (State.writeSnap s v).nv = s.nv := by
  unfold State.writeSnap
  split
  · rw [(State.latchDone_kept _).1, (State.latchDone_kept _).2]
    refine foldl_kept _ (fun t d => ?_) _ _
    split <;> simp
  · exact ⟨rfl, rfl⟩

@[simp] theorem State.powerDown_kept (s : State) (p : PwrPhase) : (State.powerDown s p).pending = s.pending ∧ (State.powerDown s p).nv = s.nv := by
  simp only [State.powerDown]
  (repeat' split) <;> simp [*]

@[simp] theorem State.dropRails_kept (s : State) (p : PwrPhase) : (State.dropRails s p).pending = s.pending ∧ (State.dropRails s p).nv = s.nv := by
  simp only [State.dropRails]
  (repeat' split) <;> simp [*]

@[simp] theorem State.holdOff_kept (s : State) (cause rail sensor : Nat) : (State.holdOff s cause rail sensor).pending = s.pending ∧ (State.holdOff s cause rail sensor).nv = s.nv := by
  simp only [State.holdOff]
  (repeat' split) <;> simp [*]

@[simp] theorem State.showVin_kept (s : State) (vin : Nat) : (State.showVin s vin).pending = s.pending ∧ (State.showVin s vin).nv = s.nv := by
  simp only [State.showVin]
  (repeat' split) <;> simp [*]

@[simp] theorem State.raiseRail_kept (s : State) (r mv cur pw : Nat) : (State.raiseRail s r mv cur pw).pending = s.pending ∧ (State.raiseRail s r mv cur pw).nv = s.nv := by
  simp only [State.raiseRail]
  (repeat' split) <;> simp [*]

@[simp] theorem State.setDemand_kept (s : State) (x c l : Nat) : (State.setDemand s x c l).pending = s.pending ∧ (State.setDemand s x c l).nv = s.nv := by
  simp only [State.setDemand]
  (repeat' split) <;> simp [*]

@[simp] theorem State.setTemp_kept (s : State) (i v : Nat) : (State.setTemp s i v).pending = s.pending ∧ (State.setTemp s i v).nv = s.nv := by
  simp only [State.setTemp]
  (repeat' split) <;> simp [*]

@[simp] theorem State.thermal_kept (s : State) (i v : Nat) : (State.thermal s i v).pending = s.pending ∧ (State.thermal s i v).nv = s.nv := by
  simp only [State.thermal]
  (repeat' split) <;> simp [*]

@[simp] theorem State.modPilot_kept (s : State) (f : Pilot → Pilot) : (State.modPilot s f).pending = s.pending ∧ (State.modPilot s f).nv = s.nv := by
  simp only [State.modPilot]
  (repeat' split) <;> simp [*]

@[simp] theorem State.kdClear_kept (s : State) : (State.kdClear s).pending = s.pending ∧ (State.kdClear s).nv = s.nv := by
  simp only [State.kdClear]
  (repeat' split) <;> simp [*]

@[simp] theorem State.kdEnd_kept (s : State) (st : Nat) : (State.kdEnd s st).pending = s.pending ∧ (State.kdEnd s st).nv = s.nv := by
  simp only [State.kdEnd]
  (repeat' split) <;> simp [*]

@[simp] theorem State.submitKey_kept (s : State) : (State.submitKey s).pending = s.pending ∧ (State.submitKey s).nv = s.nv := by
  simp only [State.submitKey]
  (repeat' split) <;> simp [*]

@[simp] theorem State.dropDelivery_kept (s : State) (k : Nat) : (State.dropDelivery s k).pending = s.pending ∧ (State.dropDelivery s k).nv = s.nv := by
  simp only [State.dropDelivery]
  (repeat' split) <;> simp [*]

@[simp] theorem State.retireSlot_kept (s : State) (k : Nat) : (State.retireSlot s k).pending = s.pending ∧ (State.retireSlot s k).nv = s.nv := by
  simp only [State.retireSlot]
  (repeat' split) <;> simp [*]

@[simp] theorem State.keyStep_kept (p : Nat) (keys : NatSet) (s : State) (k : Nat) : (State.keyStep p keys s k).pending = s.pending ∧ (State.keyStep p keys s k).nv = s.nv := by
  simp only [State.keyStep]
  (repeat' split) <;> simp [*]

@[simp] theorem State.keysStep_kept (s : State) (p : Nat) (keys : NatSet) : (State.keysStep s p keys).pending = s.pending ∧ (State.keysStep s p keys).nv = s.nv := by
  simp only [State.keysStep]
  (repeat' split) <;> simp [*]

@[simp] theorem State.endRequests_kept (s : State) (hs : List Nat) : (State.endRequests s hs).pending = s.pending ∧ (State.endRequests s hs).nv = s.nv := by
  simp only [State.endRequests]
  (repeat' split) <;> simp [*]

@[simp] theorem State.endNme_kept (s : State) (n : NmeOp) : (State.endNme s n).pending = s.pending ∧ (State.endNme s n).nv = s.nv := by
  simp only [State.endNme]
  (repeat' split) <;> simp [*]

@[simp] theorem State.refuseWaiting_kept (s : State) (hs : List Nat) : (State.refuseWaiting s hs).pending = s.pending ∧ (State.refuseWaiting s hs).nv = s.nv := by
  simp only [State.refuseWaiting]
  (repeat' split) <;> simp [*]

theorem execMemoryAnswer_orElse_kept (slot : Nat) (bad : List Nat) (s : State) :
    ((execMemoryAnswer slot bad s).orElse s).pending = s.pending ∧ ((execMemoryAnswer slot bad s).orElse s).nv = s.nv := by
  unfold execMemoryAnswer Outcome.orElse
  dsimp only
  (repeat' split) <;> first | exact ⟨rfl, rfl⟩ | (simp; done)
theorem execCometArrival_orElse_kept (c id : Nat) (bad : List Nat) (gone : Bool) (s : State) :
    ((execCometArrival c id bad gone s).orElse s).pending = s.pending ∧
    ((execCometArrival c id bad gone s).orElse s).nv = s.nv := by
  unfold execCometArrival Outcome.orElse
  dsimp only
  split
  · exact ⟨rfl, rfl⟩
  · split
    · exact ⟨rfl, rfl⟩
    · rename_i x _ _ q _
      have hf : ∀ (t : State) (ow : ReqOwner) (st slot : Nat), t.pending = s.pending ∧ t.nv = s.nv →
          Keeps (((State.failureTeardown (match (t.modCtx c (fun y => { y with comets := y.comets.filter (fun e => decide (e.id ≠ id)) })).ctx? c with
            | some y => (t.modCtx c (fun y => { y with comets := y.comets.filter (fun e => decide (e.id ≠ id)) })).raise c y
                Exc.data.code st q.pc
            | none => t.modCtx c (fun y => { y with comets := y.comets.filter (fun e => decide (e.id ≠ id)) })) x ow q st).dropReqs
              ow).freeEngine slot id) s := by
        intro t ow st slot ht
        split <;> simp [ht]
      split
      · split
        · exact ⟨rfl, rfl⟩
        · split
          · generalize hr : State.deliver s none _ _ = dr
            have h : dr.2.pending = s.pending ∧ dr.2.nv = s.nv := by rw [← hr]; exact State.deliver_kept _ _ _ _
            split
            · simpa using h
            · simpa using h
            · exact hf _ _ _ _ h
          · split
            · exact hf s _ _ _ ⟨rfl, rfl⟩
            · simp
      · split
        · exact ⟨rfl, rfl⟩
        · split
          · simp
          · split
            · exact hf _ _ _ _ (by simp)
            · simp
theorem execNmeOperationEnd_orElse_kept (id : Nat) (f : Option (Nat × Nat)) (s : State) :
    ((execNmeOperationEnd id f s).orElse s).pending = s.pending ∧ ((execNmeOperationEnd id f s).orElse s).nv = s.nv := by
  unfold execNmeOperationEnd Outcome.orElse
  dsimp only
  split
  · exact ⟨rfl, rfl⟩
  · rename_i n _
    cases n.arg <;> dsimp only <;> (repeat' split) <;> simp
@[simp] theorem State.endUnder_kept (s : State) (hs : List Nat) : (State.endUnder s hs).pending = s.pending ∧ (State.endUnder s hs).nv = s.nv := by
  unfold State.endUnder
  dsimp only
  simp
  refine foldl_kept_of _ (fun t n => ?_) _ ?_
  · simp [execNmeOperationEnd_orElse_kept]
  · refine foldl_kept_of _ (fun t e => ?_) _ (by simp)
    refine foldl_kept_of _ (fun u q => ?_) _ ?_
    · (repeat' split) <;> simp [execCometArrival_orElse_kept]
    · (repeat' split) <;> simp [execMemoryAnswer_orElse_kept]

@[simp] theorem State.scrubCycle_kept (s : State) (c : Scrub) (goes : Bool) : (State.scrubCycle s c goes).pending = s.pending ∧ (State.scrubCycle s c goes).nv = s.nv := by
  simp only [State.scrubCycle]
  split
  · exact ⟨rfl, rfl⟩
  · split
    · split
      · simp only [State.fset_kept, State.dropReqs_kept, and_self]
      · exact ⟨rfl, rfl⟩
    · split
      · exact ⟨rfl, rfl⟩
      · split
        · refine foldl_kept _ (fun t l => foldl_kept _ (fun u y => ?_) _ _) _ _
          split <;> simp only [keeps_iff, State.addReq_kept, State.addStackReq_kept, and_self]
        · exact ⟨rfl, rfl⟩

@[simp] theorem State.recordCtx_kept (s : State) (closing c : Nat) (x : Ctx) : (State.recordCtx s closing c x).pending = s.pending ∧ (State.recordCtx s closing c x).nv = s.nv := by
  simp only [State.recordCtx]
  (repeat' split) <;> simp [*]

@[simp] theorem State.chargeEngines_kept (s : State) (p : Nat) : (State.chargeEngines s p).pending = s.pending ∧ (State.chargeEngines s p).nv = s.nv := by
  simp only [State.chargeEngines]
  (repeat' split) <;> first
    | simp [*]; done
    | (refine foldl_kept_of _ (fun t a => ?_) _ ?_ <;> (repeat' split) <;> simp [*])

@[simp] theorem State.modView_kept (s : State) (p v : Nat) (f : View → View) : (State.modView s p v f).pending = s.pending ∧ (State.modView s p v f).nv = s.nv := by
  simp only [State.modView]
  (repeat' split) <;> simp [*]

@[simp] theorem State.captureView_kept (s : State) (p closing v : Nat) : (State.captureView s p closing v).pending = s.pending ∧ (State.captureView s p closing v).nv = s.nv := by
  simp only [State.captureView]
  (repeat' split) <;> simp [*]

@[simp] theorem State.bindView_kept (s : State) (p v : Nat) : (State.bindView s p v).pending = s.pending ∧ (State.bindView s p v).nv = s.nv := by
  simp only [State.bindView]
  (repeat' split) <;> simp [*]

@[simp] theorem State.unbindView_kept (s : State) (p v ref : Nat) : (State.unbindView s p v ref).pending = s.pending ∧ (State.unbindView s p v ref).nv = s.nv := by
  simp only [State.unbindView]
  (repeat' split) <;> simp [*]

@[simp] theorem State.startView_kept (s : State) (p v ref : Nat) (bs : List Byte) : (State.startView s p v ref bs).pending = s.pending ∧ (State.startView s p v ref bs).nv = s.nv := by
  simp only [State.startView]
  (repeat' split) <;> simp [*]

@[simp] theorem State.endView_kept (s : State) (p v ref : Nat) (bs : List Byte) (o : Obj) : (State.endView s p v ref bs o).pending = s.pending ∧ (State.endView s p v ref bs o).nv = s.nv := by
  simp only [State.endView]
  (repeat' split) <;> simp [*]

@[simp] theorem State.freeze_kept (s : State) (p : Nat) : (State.freeze s p).pending = s.pending ∧ (State.freeze s p).nv = s.nv := by
  simp only [State.freeze]
  (repeat' split) <;> simp [*]

@[simp] theorem State.snapshot_kept (s : State) (p : Nat) (w : Swap) : (State.snapshot s p w).pending = s.pending ∧ (State.snapshot s p w).nv = s.nv := by
  simp only [State.snapshot]
  (repeat' split) <;> simp [*]

@[simp] theorem State.applyQp_kept (p : Nat) (s : State) (q : Nat) : (State.applyQp p s q).pending = s.pending ∧ (State.applyQp p s q).nv = s.nv := by
  simp only [State.applyQp]
  (repeat' split) <;> simp [*]

@[simp] theorem State.drainMap_kept (s : State) (p : Nat) : (State.drainMap s p).pending = s.pending ∧ (State.drainMap s p).nv = s.nv := by
  simp only [State.drainMap]
  (repeat' split) <;> simp [*]

@[simp] theorem State.modSwap_kept (s : State) (p : Nat) (f : Swap → Swap) : (State.modSwap s p f).pending = s.pending ∧ (State.modSwap s p f).nv = s.nv := by
  simp only [State.modSwap]
  (repeat' split) <;> simp [*]

@[simp] theorem State.routeStep_kept (s : State) (p : Nat) (w : Swap) : (State.routeStep s p w).pending = s.pending ∧ (State.routeStep s p w).nv = s.nv := by
  simp only [State.routeStep]
  (repeat' split) <;> simp [*]

@[simp] theorem State.retag_kept (s : State) (p a : Nat) : (State.retag s p a).pending = s.pending ∧ (State.retag s p a).nv = s.nv := by
  simp only [State.retag]
  (repeat' split) <;> simp [*]

@[simp] theorem State.applyAcct_kept (s : State) (p a : Nat) : (State.applyAcct s p a).pending = s.pending ∧ (State.applyAcct s p a).nv = s.nv := by
  simp only [State.applyAcct]
  (repeat' split) <;> simp [*]

@[simp] theorem State.sharesStep_kept (s : State) (p : Nat) (w : Swap) : (State.sharesStep s p w).pending = s.pending ∧ (State.sharesStep s p w).nv = s.nv := by
  simp only [State.sharesStep]
  (repeat' split) <;> simp [*]

@[simp] theorem State.switchMove_kept (s : State) (h : Nat) : (State.switchMove s h).pending = s.pending ∧ (State.switchMove s h).nv = s.nv := by
  simp only [State.switchMove]
  (repeat' split) <;> simp [*]

@[simp] theorem State.ageOut_kept (s : State) (p : Nat) : (State.ageOut s p).pending = s.pending ∧ (State.ageOut s p).nv = s.nv := by
  simp only [State.ageOut]
  (repeat' split) <;> first
    | simp [*]; done
    | (refine foldl_kept_of _ (fun t a => ?_) _ ?_ <;> (repeat' split) <;> simp [*])

@[simp] theorem State.placementStep_kept (s : State) (p : Nat) (w : Swap) : (State.placementStep s p w).pending = s.pending ∧ (State.placementStep s p w).nv = s.nv := by
  simp only [State.placementStep]
  (repeat' split) <;> simp [*]

@[simp] theorem State.loadCounts_kept (s : State) (x : Ctx) (sl : Nat) : (State.loadCounts s x sl).pending = s.pending ∧ (State.loadCounts s x sl).nv = s.nv := by
  simp only [State.loadCounts]
  (repeat' split) <;> simp [*]

@[simp] theorem State.placeCtx_kept (s : State) (c : Nat) : (State.placeCtx s c).pending = s.pending ∧ (State.placeCtx s c).nv = s.nv := by
  simp only [State.placeCtx]
  (repeat' split) <;> simp [*]

@[simp] theorem State.parkCtx_kept (s : State) (c : Nat) : (State.parkCtx s c).pending = s.pending ∧ (State.parkCtx s c).nv = s.nv := by
  simp only [State.parkCtx]
  (repeat' split) <;> simp [*]

@[simp] theorem State.resumeCtx_kept (s : State) (p c : Nat) : ∀ u, State.resumeCtx s p c = some u → u.pending = s.pending ∧ u.nv = s.nv := by
  simp only [State.resumeCtx]
  (repeat' split) <;> simp [*]

theorem State.resumeAll_kept (s : State) (p : Nat) (l : List Nat) :
    (s.resumeAll p l).pending = s.pending ∧ (s.resumeAll p l).nv = s.nv := by
  induction l generalizing s with
  | nil => exact ⟨rfl, rfl⟩
  | cons c r ih =>
    simp only [State.resumeAll]
    split
    · have h := State.resumeCtx_kept _ _ _ _ ‹_›
      exact ⟨(ih _).1.trans h.1, (ih _).2.trans h.2⟩
    · exact ⟨rfl, rfl⟩
@[simp] theorem State.parkingStep_kept (s : State) (p : Nat) : (State.parkingStep s p).pending = s.pending ∧ (State.parkingStep s p).nv = s.nv := by
  unfold State.parkingStep
  dsimp only
  rw [(State.resumeAll_kept _ _ _).1, (State.resumeAll_kept _ _ _).2]
  refine foldl_kept_of _ (fun t e => ?_) _ (by simp)
  split <;> simp

@[simp] theorem State.applyShadow_kept (s : State) (p : Nat) (w : Swap) : (State.applyShadow s p w).pending = s.pending ∧ (State.applyShadow s p w).nv = s.nv := by
  simp only [State.applyShadow]
  (repeat' split) <;> simp [*]

@[simp] theorem State.release_kept (s : State) (p : Nat) (w : Swap) : (State.release s p w).pending = s.pending ∧ (State.release s p w).nv = s.nv := by
  simp only [State.release]
  (repeat' split) <;> simp [*]

@[simp] theorem State.swapEffect_kept (s : State) (p : Nat) (w : Swap) : (State.swapEffect s p w).pending = s.pending ∧ (State.swapEffect s p w).nv = s.nv := by
  simp only [State.swapEffect]
  (repeat' split) <;> simp [*]

@[simp] theorem State.swapStep_kept (s : State) (p : Nat) : (State.swapStep s p).pending = s.pending ∧ (State.swapStep s p).nv = s.nv := by
  simp only [State.swapStep]
  (repeat' split) <;> simp [*]

@[simp] theorem State.swapTick_kept (s : State) (p : Nat) : (State.swapTick s p).pending = s.pending ∧ (State.swapTick s p).nv = s.nv := by
  simp only [State.swapTick]
  (repeat' split) <;> simp [*]

@[simp] theorem State.copyFailed_kept (s : State) (x : Ctx) : (State.copyFailed s x).pending = s.pending ∧ (State.copyFailed s x).nv = s.nv := by
  simp only [State.copyFailed]
  (repeat' split) <;> simp [*]

@[simp] theorem State.setErrHead_kept (s : State) (p h : Nat) : (State.setErrHead s p h).pending = s.pending ∧ (State.setErrHead s p h).nv = s.nv := by
  simp only [State.setErrHead]
  (repeat' split) <;> simp [*]

@[simp] theorem State.endFence_kept (s : State) (p : Nat) : (State.endFence s p).pending = s.pending ∧ (State.endFence s p).nv = s.nv := by
  simp only [State.endFence]
  (repeat' split) <;> simp [*]

@[simp] theorem State.writeCtxAbort_kept (s : State) (ref : Nat) : (State.writeCtxAbort s ref).pending = s.pending ∧ (State.writeCtxAbort s ref).nv = s.nv := by
  simp only [State.writeCtxAbort]
  (repeat' split) <;> simp [*]

@[simp] theorem State.writePartReset_kept (s : State) (bits : Nat) : (State.writePartReset s bits).pending = s.pending ∧ (State.writePartReset s bits).nv = s.nv := by
  simp only [State.writePartReset]
  (repeat' split) <;> simp [*]

@[simp] theorem State.writeDevReset_kept (s : State) (key : Nat) : (State.writeDevReset s key).pending = s.pending ∧ (State.writeDevReset s key).nv = s.nv := by
  simp only [State.writeDevReset]
  (repeat' split) <;> simp [*]

@[simp] theorem State.resetRec_kept (s : State) (p code scope a b : Nat) : (State.resetRec s p code scope a b).pending = s.pending ∧ (State.resetRec s p code scope a b).nv = s.nv := by
  simp only [State.resetRec]
  (repeat' split) <;> simp [*]

@[simp] theorem State.dropStaged_kept (s : State) (p : Nat) : (State.dropStaged s p).pending = s.pending ∧ (State.dropStaged s p).nv = s.nv := by
  simp only [State.dropStaged]
  (repeat' split) <;> simp [*]

@[simp] theorem State.sendViral_kept (s : State) (n : Nat) : (State.sendViral s n).pending = s.pending ∧ (State.sendViral s n).nv = s.nv := by
  simp only [State.sendViral]
  (repeat' split) <;> simp [*]

@[simp] theorem State.purgeCells_kept (s : State) (p : Nat) : (State.purgeCells s p).pending = s.pending ∧ (State.purgeCells s p).nv = s.nv := by
  simp only [State.purgeCells]
  (repeat' split) <;> simp [*]

@[simp] theorem State.endAcc_kept (s : State) (a : AccReq) : (State.endAcc s a).pending = s.pending ∧ (State.endAcc s a).nv = s.nv := by
  simp only [State.endAcc]
  (repeat' split) <;> simp [*]

@[simp] theorem State.abortNme_kept (s : State) (n : NmeOp) : (State.abortNme s n).pending = s.pending ∧ (State.abortNme s n).nv = s.nv := by
  simp only [State.abortNme]
  (repeat' split) <;> simp [*]

@[simp] theorem State.endService_kept (s : State) (q : Nat) : (State.endService s q).pending = s.pending ∧ (State.endService s q).nv = s.nv := by
  simp only [State.endService]
  (repeat' split) <;> simp [*]

@[simp] theorem State.closeOut_kept (s : State) (q : Nat) : (State.closeOut s q).pending = s.pending ∧ (State.closeOut s q).nv = s.nv := by
  simp only [State.closeOut]
  (repeat' split) <;> simp [*]

@[simp] theorem State.orphanPart_kept (s : State) (p : Nat) : (State.orphanPart s p).pending = s.pending ∧ (State.orphanPart s p).nv = s.nv := by
  simp only [State.orphanPart]
  (repeat' split) <;> simp [*]

@[simp] theorem State.resetShares_kept (s : State) (p : Nat) : (State.resetShares s p).pending = s.pending ∧ (State.resetShares s p).nv = s.nv := by
  simp only [State.resetShares]
  (repeat' split) <;> simp [*]

@[simp] theorem State.newTag_kept (s : State) (p : Nat) : (State.newTag s p).pending = s.pending ∧ (State.newTag s p).nv = s.nv := by
  simp only [State.newTag]
  (repeat' split) <;> simp [*]

@[simp] theorem State.resetSteps_kept (s : State) (p : Nat) : (State.resetSteps s p).pending = s.pending ∧ (State.resetSteps s p).nv = s.nv := by
  simp only [State.resetSteps]
  (repeat' split) <;> simp [*]

@[simp] theorem State.writeSl_kept (s : State) (m : Memory) : (State.writeSl s m).pending = s.pending ∧ (State.writeSl s m).nv = s.nv := by
  simp only [State.writeSl]
  (repeat' split) <;> simp [*]

@[simp] theorem State.sealFrom_kept (s : State) (m : Memory) : (State.sealFrom s m).pending = s.pending ∧ (State.sealFrom s m).nv = s.nv := by
  simp only [State.sealFrom]
  (repeat' split) <;> simp [*]

@[simp] theorem State.sealRecovery_kept (s : State) (cause : Nat) : (State.sealRecovery s cause).pending = s.pending ∧ (State.sealRecovery s cause).nv = s.nv := by
  simp only [State.sealRecovery]
  (repeat' split) <;> simp [*]

@[simp] theorem State.showRpr_kept (s : State) : (State.showRpr s).pending = s.pending ∧ (State.showRpr s).nv = s.nv := by
  simp only [State.showRpr]
  (repeat' split) <;> simp [*]

@[simp] theorem State.bootHalt_kept (s : State) (cause stage : Nat) : (State.bootHalt s cause stage).pending = s.pending ∧ (State.bootHalt s cause stage).nv = s.nv := by
  simp only [State.bootHalt]
  (repeat' split) <;> simp [*]

@[simp] theorem State.resetBase_kept (s : State) (rails : List Nat) (p : PwrPhase) : (State.resetBase s rails p).pending = s.pending ∧ (State.resetBase s rails p).nv = s.nv := by
  simp only [State.resetBase]
  (repeat' split) <;> simp [*]

end Sys2Proof.Machine
end

