-- ==== Sys2Proof/Laws/KeptMgmt.lean ====
section
/-!
SUPPORT. What the operations of keys, resets, orbits, the management core and time keep: the commands that wait, and what outlives loss of power. The operations that change the latter stand in NvLaws.
-/
namespace Sys2Proof.Machine

@[simp] theorem State.putSvcBuf_kept (s : State) (bs : List Byte) : (State.putSvcBuf s bs).pending = s.pending ∧ (State.putSvcBuf s bs).nv = s.nv := by
  simp only [State.putSvcBuf]
  (repeat' split) <;> simp [*]

@[simp] theorem State.submitSvc_kept (s : State) : s.submitSvc.pending = s.pending ∧ s.submitSvc.nv = s.nv := by
  unfold State.submitSvc
  split
  · exact ⟨rfl, rfl⟩
  · dsimp only
    split
    · simp
    · rename_i h
      simp only [Bool.not_eq_true] at h
      simp [State.finishSvc, State.answerSvc, h]

@[simp] theorem State.writeFields_kept (s : State) (r : RegName) (ix : List Nat) (v : Word) : (State.writeFields s r ix v).1.pending = s.pending ∧ (State.writeFields s r ix v).1.nv = s.nv := by
  simp only [State.writeFields]
  (repeat' split) <;> simp [*]

@[simp] theorem State.writeRaise_kept (s : State) (bits : Nat) : (State.writeRaise s bits).pending = s.pending ∧ (State.writeRaise s bits).nv = s.nv := by
  simp only [State.writeRaise]
  (repeat' split) <;> simp [*]

@[simp] theorem State.writeTagBudget_kept (s : State) (n : Nat) (v : Word) : (State.writeTagBudget s n v).pending = s.pending ∧ (State.writeTagBudget s n v).nv = s.nv := by
  simp only [State.writeTagBudget]
  (repeat' split) <;> simp [*]

@[simp] theorem State.writeView_kept (s : State) (p v : Nat) (w : Word) : (State.writeView s p v w).pending = s.pending ∧ (State.writeView s p v w).nv = s.nv := by
  simp only [State.writeView]
  (repeat' split) <;> simp [*]

@[simp] theorem State.writeSpecial_kept (s : State) (r : RegName) (ix : List Nat) (v : Word) : ∀ u, State.writeSpecial s r ix v = some u → u.pending = s.pending ∧ u.nv = s.nv := by
  intro u hu
  unfold State.writeSpecial at hu
  cases r <;> first | (cases hu; (repeat' split) <;> simp; done) | cases hu

@[simp] theorem State.bar0Write_kept (s : State) (off : Nat) (v : Word) :
    (s.bar0Write off v).pending = s.pending ∧ (s.bar0Write off v).nv = s.nv := by
  unfold State.bar0Write
  split
  · exact ⟨rfl, rfl⟩
  · split
    · split <;> simp
    · split
      · simp
      · split
        · simp
        · split
          · exact State.writeSpecial_kept _ _ _ _ _ ‹_›
          · dsimp only; split <;> simp

@[simp] theorem State.bar0Read_kept (s : State) (off : Nat) : (State.bar0Read s off).2.pending = s.pending ∧ (State.bar0Read s off).2.nv = s.nv := by
  simp only [State.bar0Read]
  (repeat' split) <;> simp [*]

@[simp] theorem State.stageHealth_kept (s : State) (off : Nat) (v : Word) : (State.stageHealth s off v).pending = s.pending ∧ (State.stageHealth s off v).nv = s.nv := by
  simp only [State.stageHealth]
  (repeat' split) <;> simp [*]

@[simp] theorem State.readOut_kept (s : State) (off : Nat) : (State.readOut s off).pending = s.pending ∧ (State.readOut s off).nv = s.nv := by
  simp only [State.readOut]
  (repeat' split) <;> simp [*]

@[simp] theorem State.configOut_kept (s : State) (i : ConfigItem) : (State.configOut s i).pending = s.pending ∧ (State.configOut s i).nv = s.nv := by
  simp only [State.configOut]
  (repeat' split) <;> simp [*]

theorem State.fm_kept (s : State) (mail vendor : Bool) (body : State → State × FmRc × FmBody)
    (hb : (body s).1.pending = s.pending ∧ (body s).1.nv = s.nv) :
    (s.fm mail vendor body).pending = s.pending ∧ (s.fm mail vendor body).nv = s.nv := by
  simp only [State.fm]
  (repeat' split) <;> simp [hb]

@[simp] theorem State.fmRead_kept (s : State) (mail : Bool) (f : State → FmRc × FmBody) : (State.fmRead s mail f).pending = s.pending ∧ (State.fmRead s mail f).nv = s.nv := by
  unfold State.fmRead
  exact State.fm_kept _ _ _ _ ⟨rfl, rfl⟩

theorem State.fmVendor_kept (s : State) (mail : Bool) (n : Nat) (input : List Byte) (form : Bool)
    (f : State → State × Nat × List Byte) (hf : (f s).1.pending = s.pending ∧ (f s).1.nv = s.nv) :
    (s.fmVendor mail n input form f).pending = s.pending ∧ (s.fmVendor mail n input form f).nv = s.nv := by
  unfold State.fmVendor
  refine State.fm_kept _ _ _ _ ?_
  (repeat' split) <;> simp [hf]

@[simp] theorem State.startBg_kept (s : State) (w : BgWork) : (State.startBg s w).1.pending = s.pending ∧ (State.startBg s w).1.nv = s.nv := by
  simp only [State.startBg]
  (repeat' split) <;> simp [*]

theorem State.clearOrphans_kept (s : State) (h : Nat) (l : List Nat) (n : Nat) :
    (s.clearOrphans h l n).1.pending = s.pending ∧ (s.clearOrphans h l n).1.nv = s.nv := by
  induction l generalizing s n with
  | nil => exact ⟨rfl, rfl⟩
  | cons a r ih =>
    simp only [State.clearOrphans]
    (repeat' split) <;> first | exact ⟨rfl, rfl⟩ | exact ih _ _ | simpa using ih _ _

@[simp] theorem State.endBg_kept (s : State) (w : BgWork) (output : List Byte) : (State.endBg s w output).pending = s.pending ∧ (State.endBg s w output).nv = s.nv := by
  simp only [State.endBg]
  (repeat' split) <;> simp [*]

@[simp] theorem State.tapIr_kept (s : State) (ir : Nat) : (State.tapIr s ir).pending = s.pending ∧ (State.tapIr s ir).nv = s.nv := by
  simp only [State.tapIr]
  (repeat' split) <;> simp [*]

@[simp] theorem State.tapRun_kept (s : State) (ok : Bool) (code : Nat) (bytes : List Byte) : (State.tapRun s ok code bytes).pending = s.pending ∧ (State.tapRun s ok code bytes).nv = s.nv := by
  simp only [State.tapRun]
  (repeat' split) <;> simp [*]

@[simp] theorem State.internalTest_kept (s : State) (code : Nat) : (State.internalTest s code).pending = s.pending ∧ (State.internalTest s code).nv = s.nv := by
  simp only [State.internalTest]
  (repeat' split) <;> simp [*]

@[simp] theorem State.advance_kept (s : State) (d x : Nat) : (State.advance s d x).1.pending = s.pending ∧ (State.advance s d x).1.nv = s.nv := by
  simp only [State.advance]
  (repeat' split) <;> simp [*]

@[simp] theorem State.latchDue_kept (s : State) (d : Nat) : (State.latchDue s d).pending = s.pending ∧ (State.latchDue s d).nv = s.nv := by
  simp only [State.latchDue]
  (repeat' split) <;> simp [*]

@[simp] theorem State.chargeStrand_kept (s : State) (q slot c : Nat) (x : Ctx) : (State.chargeStrand s q slot c x).pending = s.pending ∧ (State.chargeStrand s q slot c x).nv = s.nv := by
  simp only [State.chargeStrand]
  (repeat' split) <;> simp [*]

@[simp] theorem State.engineDone_kept (s : State) (e : Engine) : (State.engineDone s e).pending = s.pending ∧ (State.engineDone s e).nv = s.nv := by
  simp only [State.engineDone]
  (repeat' split) <;> simp [*]

@[simp] theorem State.runEngines_kept (s : State) (m : Nat) : (State.runEngines s m).pending = s.pending ∧ (State.runEngines s m).nv = s.nv := by
  simp only [State.runEngines]
  (repeat' split) <;> simp [*]

@[simp] theorem State.freeSlots_kept (s : State) (m : Nat) : (State.freeSlots s m).pending = s.pending ∧ (State.freeSlots s m).nv = s.nv := by
  simp only [State.freeSlots]
  (repeat' split) <;> simp [*]

@[simp] theorem State.retryStreams_kept (s : State) (m : Nat) : (State.retryStreams s m).pending = s.pending ∧ (State.retryStreams s m).nv = s.nv := by
  simp only [State.retryStreams]
  (repeat' split) <;> simp [*]

@[simp] theorem State.arithCycle_kept (s : State) (q : Nat) : (State.arithCycle s q).pending = s.pending ∧ (State.arithCycle s q).nv = s.nv := by
  unfold State.arithCycle
  have h1 : ∀ t : State, ((span (16 * q) (16 * q + 16)).foldl (fun (t : State) m => t.runEngines m) t).pending = t.pending ∧
      ((span (16 * q) (16 * q + 16)).foldl (fun (t : State) m => t.runEngines m) t).nv = t.nv :=
    fun t => foldl_kept _ (fun t m => by simp) _ _
  dsimp only
  split <;> simp <;> (refine foldl_kept _ (fun t e => ?_) _ _; split <;> simp)

@[simp] theorem State.startCopy_kept (s : State) (k : Nat) (g : Nat × Nat) : (State.startCopy s k g).pending = s.pending ∧ (State.startCopy s k g).nv = s.nv := by
  simp only [State.startCopy]
  (repeat' split) <;> simp [*]

@[simp] theorem State.copied_kept (s : State) (k n c : Nat) (r : List (Nat × Nat)) : (State.copied s k n c r).pending = s.pending ∧ (State.copied s k n c r).nv = s.nv := by
  simp only [State.copied]
  (repeat' split) <;> simp [*]

@[simp] theorem State.rebuildCycle_kept (s : State) (k : Nat) (copies : Bool) : (State.rebuildCycle s k copies).pending = s.pending ∧ (State.rebuildCycle s k copies).nv = s.nv := by
  simp only [State.rebuildCycle]
  (repeat' split) <;> simp [*]

@[simp] theorem State.sendForward_kept (s : State) (p : Nat) (sends : Bool) : (State.sendForward s p sends).pending = s.pending ∧ (State.sendForward s p sends).nv = s.nv := by
  simp only [State.sendForward]
  (repeat' split) <;> simp [*]

@[simp] theorem State.xbarCycle_kept (s : State) (x : Nat) : (State.xbarCycle s x).pending = s.pending ∧ (State.xbarCycle s x).nv = s.nv := by
  simp only [State.xbarCycle]
  (repeat' split) <;> simp [*]

@[simp] theorem State.tickDomain_kept (x : Nat) (s : State) (d : Nat) : (State.tickDomain x s d).pending = s.pending ∧ (State.tickDomain x s d).nv = s.nv := by
  simp only [State.tickDomain]
  (repeat' split) <;> simp [*]

@[simp] theorem State.tick_kept (s : State) : (State.tick s).pending = s.pending ∧ (State.tick s).nv = s.nv := by
  simp only [State.tick]
  (repeat' split) <;> simp [*]

end Sys2Proof.Machine
end

