-- ==== Sys2Proof/Laws/Memory.lean ====
section
/-!
SUPPORT. The laws of sparse stores and of byte stores: what a read gives after a write, and that every operation keeps the
canonical form.
-/
namespace Sys2Proof.Machine

/-! ### Sparse stores -/

section
variable {α : Type}

/-- A key written reads as what was written. -/
@[simp] theorem kvGet?_kvSet_self (m : KV α) (x : Nat) (v : α) : kvGet? (kvSet m x v) x = some v := by
  induction m with
  | nil => simp [kvSet, kvGet?]
  | cons e r ih =>
    obtain ⟨k, w⟩ := e
    simp only [kvSet]
    split
    · simp [kvGet?]
    · split
      · simp [kvGet?]
      · simp_all [kvGet?]

/-- A write leaves every other key alone. -/
theorem kvGet?_kvSet_other (m : KV α) (x y : Nat) (v : α) (h : y ≠ x) : kvGet? (kvSet m x v) y = kvGet? m y := by
  induction m with
  | nil =>
    simp only [kvSet, kvGet?]
    split
    · omega
    · split <;> rfl
  | cons e r ih =>
    obtain ⟨k, w⟩ := e
    simp only [kvSet]
    split
    · simp only [kvGet?]
      split
      · omega
      · split
        · split
          · omega
          · split <;> first | rfl | omega
        · split
          · omega
          · split <;> first | rfl | omega
    · split
      · simp only [kvGet?]
        split
        · omega
        · split
          · split
            · omega
            · split <;> first | rfl | omega
          · rfl
      · simp only [kvGet?, ih]

/-- A key past every key listed below it is not listed. -/
theorem kvGet?_none_of_above (m : KV α) (x y : Nat) (h : kvAbove x m = true) (hy : y ≤ x) : kvGet? m y = none := by
  cases m with
  | nil => rfl
  | cons e r =>
    obtain ⟨k, w⟩ := e
    simp only [kvAbove, Bool.and_eq_true, decide_eq_true_eq] at h
    simp only [kvGet?]
    split
    · omega
    · split
      · rfl
      · omega

/-- A key past all keys of a map is past all keys above a smaller one. -/
theorem kvAbove_mono (m : KV α) (a b : Nat) (h : a ≤ b) (hb : kvAbove b m = true) : kvAbove a m = true := by
  induction m with
  | nil => rfl
  | cons e r ih =>
    obtain ⟨k, w⟩ := e
    simp only [kvAbove, Bool.and_eq_true, decide_eq_true_eq] at hb ⊢
    exact ⟨by omega, ih hb.2⟩

/-- A key taken out is not listed. -/
@[simp] theorem kvGet?_kvDel_self (m : KV α) (x : Nat) (hs : kvSorted m = true) : kvGet? (kvDel m x) x = none := by
  induction m with
  | nil => rfl
  | cons e r ih =>
    obtain ⟨k, w⟩ := e
    simp only [kvSorted, Bool.and_eq_true] at hs
    simp only [kvDel]
    split
    · exact kvGet?_none_of_above _ k x hs.1 (by omega)
    · split
      · simp only [kvGet?]
        split <;> first | omega | rfl
      · simp only [kvGet?]
        split
        · omega
        · simpa [*] using ih hs.2

/-- Taking a key out leaves every other key alone. -/
theorem kvGet?_kvDel_other (m : KV α) (x y : Nat) (h : y ≠ x) (hs : kvSorted m = true) :
    kvGet? (kvDel m x) y = kvGet? m y := by
  induction m with
  | nil => rfl
  | cons e r ih =>
    obtain ⟨k, w⟩ := e
    simp only [kvSorted, Bool.and_eq_true] at hs
    simp only [kvDel]
    split
    · simp only [kvGet?]
      split
      · omega
      · split
        · exact kvGet?_none_of_above _ k y hs.1 (by omega)
        · rfl
    · split
      · rfl
      · simp only [kvGet?, ih hs.2]

/-- Keys above a bound stay above it when a key above it is written. -/
theorem kvAbove_kvSet (m : KV α) (n x : Nat) (v : α) (h : kvAbove n m = true) (hx : n < x) :
    kvAbove n (kvSet m x v) = true := by
  induction m with
  | nil => simp [kvSet, kvAbove, hx]
  | cons e r ih =>
    obtain ⟨k, w⟩ := e
    simp only [kvAbove, Bool.and_eq_true, decide_eq_true_eq] at h
    simp only [kvSet]
    split
    · simp [kvAbove, h.2, hx]
    · split
      · simp [kvAbove, h.1, h.2, hx]
      · simp [kvAbove, h.1, ih h.2]

/-- Keys above a bound stay above it when a key is taken out. -/
theorem kvAbove_kvDel (m : KV α) (n x : Nat) (h : kvAbove n m = true) : kvAbove n (kvDel m x) = true := by
  induction m with
  | nil => rfl
  | cons e r ih =>
    obtain ⟨k, w⟩ := e
    simp only [kvAbove, Bool.and_eq_true, decide_eq_true_eq] at h
    simp only [kvDel]
    split
    · exact h.2
    · split
      · simp [kvAbove, h.1, h.2]
      · simp [kvAbove, h.1, ih h.2]

/-- A write keeps the keys rising. -/
@[simp] theorem kvSorted_kvSet (m : KV α) (x : Nat) (v : α) (h : kvSorted m = true) : kvSorted (kvSet m x v) = true := by
  induction m with
  | nil => rfl
  | cons e r ih =>
    obtain ⟨k, w⟩ := e
    simp only [kvSorted, Bool.and_eq_true] at h
    simp only [kvSet]
    split
    · rename_i hk; subst hk; simp [kvSorted, h.1, h.2]
    · split
      · rename_i hlt
        simp [kvSorted, kvAbove, h.1, h.2, hlt, kvAbove_mono r x k (by omega) h.1]
      · simp [kvSorted, ih h.2, kvAbove_kvSet r k x v h.1 (by omega)]

/-- Taking a key out keeps the keys rising. -/
@[simp] theorem kvSorted_kvDel (m : KV α) (x : Nat) (h : kvSorted m = true) : kvSorted (kvDel m x) = true := by
  induction m with
  | nil => rfl
  | cons e r ih =>
    obtain ⟨k, w⟩ := e
    simp only [kvSorted, Bool.and_eq_true] at h
    simp only [kvDel]
    split
    · exact h.2
    · split
      · simp [kvSorted, h.1, h.2]
      · simp [kvSorted, ih h.2, kvAbove_kvDel r k x h.1]

variable [DecidableEq α]

/-- Writing a value other than the default lists no default. -/
theorem kvNoDefault_kvSet (d : α) (m : KV α) (x : Nat) (v : α) (h : kvNoDefault d m = true) (hv : v ≠ d) :
    kvNoDefault d (kvSet m x v) = true := by
  induction m with
  | nil => simp [kvSet, kvNoDefault, hv]
  | cons e r ih =>
    obtain ⟨k, w⟩ := e
    simp only [kvNoDefault, Bool.and_eq_true, decide_eq_true_eq] at h
    simp only [kvSet]
    split
    · simp [kvNoDefault, hv, h.2]
    · split
      · simp [kvNoDefault, hv, h.1, h.2]
      · simp [kvNoDefault, h.1, ih h.2]

/-- Taking a key out lists no default. -/
theorem kvNoDefault_kvDel (d : α) (m : KV α) (x : Nat) (h : kvNoDefault d m = true) :
    kvNoDefault d (kvDel m x) = true := by
  induction m with
  | nil => rfl
  | cons e r ih =>
    obtain ⟨k, w⟩ := e
    simp only [kvNoDefault, Bool.and_eq_true, decide_eq_true_eq] at h
    simp only [kvDel]
    split
    · exact h.2
    · split
      · simp [kvNoDefault, h.1, h.2]
      · simp [kvNoDefault, h.1, ih h.2]

/-- A store with a default stays canonical when a key is written. -/
theorem kvPut_canonical (d : α) (m : KV α) (x : Nat) (v : α) (hs : kvSorted m = true) (hd : kvNoDefault d m = true) :
    kvSorted (kvPut d m x v) = true ∧ kvNoDefault d (kvPut d m x v) = true := by
  unfold kvPut
  split
  · exact ⟨kvSorted_kvDel m x hs, kvNoDefault_kvDel d m x hd⟩
  · exact ⟨kvSorted_kvSet m x v hs, kvNoDefault_kvSet d m x v hd ‹_›⟩

/-- A key written into a store with a default reads as what was written. -/
@[simp] theorem kvGet_kvPut_self (d : α) (m : KV α) (x : Nat) (v : α) (hs : kvSorted m = true) :
    kvGet d (kvPut d m x v) x = v := by
  unfold kvPut kvGet
  split
  · rw [kvGet?_kvDel_self m x hs]; simp [*]
  · simp

/-- A write into a store with a default leaves every other key alone. -/
theorem kvGet_kvPut_other (d : α) (m : KV α) (x y : Nat) (v : α) (h : y ≠ x) (hs : kvSorted m = true) :
    kvGet d (kvPut d m x v) y = kvGet d m y := by
  unfold kvPut kvGet
  split
  · rw [kvGet?_kvDel_other m x y h hs]
  · rw [kvGet?_kvSet_other m x y v h]

end

/-! ### Byte stores -/

/-- The empty store is canonical. -/
@[simp] theorem Memory.wf_nil : Memory.wf [] = true := rfl

/-- What the canonical form says. -/
theorem Memory.wf_iff (m : Memory) : m.wf = true ↔ kvSorted m = true ∧ kvNoDefault Memory.unlisted m = true := by
  simp [Memory.wf]

/-- Writing a byte keeps the canonical form. -/
@[simp] theorem Memory.wf_memPut (m : Memory) (a : Nat) (b : Byte) (h : m.wf = true) : (memPut m a b).wf = true := by
  rw [Memory.wf_iff] at h ⊢
  exact kvPut_canonical _ m a b h.1 h.2

/-- Writing some bytes keeps the canonical form. -/
@[simp] theorem Memory.wf_memWrite (m : Memory) (a : Nat) (bs : List Byte) (h : m.wf = true) :
    (memWrite m a bs).wf = true := by
  induction bs generalizing m a with
  | nil => exact h
  | cons b r ih => exact ih _ _ (Memory.wf_memPut m a b h)

/-- Writing a number keeps the canonical form. -/
@[simp] theorem Memory.wf_memPutNat (m : Memory) (a n v : Nat) (h : m.wf = true) : (memPutNat m a n v).wf = true :=
  Memory.wf_memWrite m a _ h

/-- A byte written reads as what was written. -/
@[simp] theorem memGet_memPut_self (m : Memory) (a : Nat) (b : Byte) (h : m.wf = true) : memGet (memPut m a b) a = b :=
  kvGet_kvPut_self _ m a b ((Memory.wf_iff m).mp h).1

/-- Writing a byte leaves every other byte alone. -/
theorem memGet_memPut_other (m : Memory) (a x : Nat) (b : Byte) (hx : x ≠ a) (h : m.wf = true) :
    memGet (memPut m a b) x = memGet m x :=
  kvGet_kvPut_other _ m a x b hx ((Memory.wf_iff m).mp h).1

/-- Writing some bytes leaves every byte outside them alone. -/
theorem memGet_memWrite_outside (m : Memory) (a x : Nat) (bs : List Byte) (hx : x < a ∨ a + bs.length ≤ x)
    (h : m.wf = true) : memGet (memWrite m a bs) x = memGet m x := by
  induction bs generalizing m a with
  | nil => rfl
  | cons b r ih =>
    simp only [List.length_cons] at hx
    simp only [memWrite]
    rw [ih _ _ (by omega) (Memory.wf_memPut m a b h), memGet_memPut_other m a x b (by omega) h]

/-- A byte inside the bytes written reads as what was written there. -/
theorem memGet_memWrite_inside (m : Memory) (a i : Nat) (bs : List Byte) (hi : i < bs.length) (h : m.wf = true) :
    memGet (memWrite m a bs) (a + i) = bs[i] := by
  induction bs generalizing m a i with
  | nil => simp at hi
  | cons b r ih =>
    simp only [memWrite]
    cases i with
    | zero =>
      rw [memGet_memWrite_outside _ _ _ _ (by omega) (Memory.wf_memPut m a b h)]
      simpa using memGet_memPut_self m a b h
    | succ j =>
      have := ih (memPut m a b) (a + 1) j (by simpa using hi) (Memory.wf_memPut m a b h)
      simpa [Nat.add_assoc, Nat.add_comm 1 j] using this

/-- Bytes written read back as they were written. -/
theorem memRead_memWrite (m : Memory) (a : Nat) (bs : List Byte) (h : m.wf = true) :
    memRead (memWrite m a bs) a bs.length = bs := by
  suffices hs : ∀ (n k : Nat) (l : List Byte), l.length = n → (∀ i, (hi : i < l.length) → memGet (memWrite m a bs) (k + i) = l[i]) →
      memRead (memWrite m a bs) k n = l by
    exact hs _ _ _ rfl (fun i hi => memGet_memWrite_inside m a i bs hi h)
  intro n
  induction n with
  | zero => intro k l hl _; simp_all [memRead]
  | succ n ih =>
    intro k l hl hg
    cases l with
    | nil => simp at hl
    | cons b r =>
      simp only [memRead]
      have h0 := hg 0 (by simp)
      simp only [Nat.add_zero, List.getElem_cons_zero] at h0
      rw [h0, ih (k + 1) r (by simpa using hl) (fun i hi => by
        have := hg (i + 1) (by simpa using hi)
        simpa [Nat.add_assoc, Nat.add_comm 1 i] using this)]

/-! ### Numbers in a store -/

/-- A number of `n` bytes is the number its bytes spell. -/
theorem memNat_eq_bytesNat (m : Memory) (a n : Nat) : memNat m a n = bytesNat (memRead m a n) := by
  induction n generalizing a with
  | zero => rfl
  | succ k ih => simp [memNat, memRead, bytesNat, ih]

@[simp] theorem length_natBytes (n v : Nat) : (natBytes n v).length = n := by
  induction n generalizing v with
  | zero => rfl
  | succ k ih => simp [natBytes, ih]

/-- The low bytes of a number spell it, within their number. -/
theorem bytesNat_natBytes (n v : Nat) (h : v < 256 ^ n) : bytesNat (natBytes n v) = v := by
  induction n generalizing v with
  | zero => simp only [Nat.pow_zero] at h; simp [natBytes, bytesNat]; omega
  | succ k ih =>
    have h' : v / 256 < 256 ^ k := by rw [Nat.pow_succ] at h; omega
    simp only [natBytes, bytesNat, ih _ h', BitVec.toNat_ofNat]
    omega

/-- A number written into a store reads back, where it fits its bytes. -/
theorem memNat_memPutNat (m : Memory) (a n v : Nat) (h : m.wf = true) (hv : v < 256 ^ n) :
    memNat (memPutNat m a n v) a n = v := by
  have hr : memRead (memPutNat m a n v) a (natBytes n v).length = natBytes n v := memRead_memWrite m a _ h
  rw [length_natBytes] at hr
  rw [memNat_eq_bytesNat, hr, bytesNat_natBytes n v hv]

end Sys2Proof.Machine
end

