-- ==== Sys2Proof/Laws/Moon.lean ====
section
/-!
SUPPORT. What the shared operations of the Moon's instructions answer: an instruction whose strand can issue and whose word
keeps to its shape does what its body says, one whose predicate is 0 only advances, and one whose word does not keep to its
shape raises ILLEGAL.
-/
namespace Sys2Proof.Machine

/-- The bits above the lowest `k` of 64 are zero in a number below 2 to the k. -/
theorem and_above_mask (n k : Nat) (h : n < 2 ^ k) (hk : k ≤ 64) : n &&& ((2 ^ 64 - 1) ^^^ (2 ^ k - 1)) = 0 := by
  apply Nat.eq_of_testBit_eq
  intro i
  simp only [Nat.testBit_and, Nat.testBit_xor, Nat.testBit_two_pow_sub_one, Nat.zero_testBit, Bool.and_eq_false_iff]
  by_cases hi : i < k
  · right; simp [hi, show i < 64 by omega]
  · left; exact Nat.testBit_lt_two_pow (Nat.lt_of_lt_of_le h (Nat.pow_le_pow_right (by omega) (by omega)))

/-- The same for a field of 8 bits. -/
theorem and_above_mask8 (n k : Nat) (h : n < 2 ^ k) (hk : k ≤ 8) : n &&& (255 ^^^ (2 ^ k - 1)) = 0 := by
  apply Nat.eq_of_testBit_eq
  intro i
  rw [show (255 : Nat) = 2 ^ 8 - 1 from rfl]
  simp only [Nat.testBit_and, Nat.testBit_xor, Nat.testBit_two_pow_sub_one, Nat.zero_testBit, Bool.and_eq_false_iff]
  by_cases hi : i < k
  · right; simp [hi, show i < 8 by omega]
  · left; exact Nat.testBit_lt_two_pow (Nat.lt_of_lt_of_le h (Nat.pow_le_pow_right (by omega) (by omega)))

section
variable {s : State} {slot c : Nat} {x : Ctx} {w : MWord} {h : Shape} {own gated : Bool}

/-- What an instruction that can issue comes to: its field rules, then its predicate, then its body (R90, R97, R105, R108). -/
theorem State.issueWith_eq (body : Nat → Ctx → State) (hi : Runs s slot c x h.opc w) (ho : opcodes.contains h.opc = true) :
    s.issueWith slot w h own gated body =
      if !(h.ok w && own) then s.except slot c x .illegal (IssueSlot.of h.opc)
      else if gated && !x.enabled w 0 then s.retire slot c x (IssueSlot.of h.opc)
      else body c x := by
  obtain ⟨⟨h1, h2, h3⟩, h4, h5⟩ := hi
  have ho : h.opc ∈ opcodes := by simpa using ho
  simp [State.issueWith, State.retire, State.except, h1, h2, h3, h4, h5, ho]

/-- An instruction whose strand can issue, whose word keeps to its shape, and which its predicate does not disable, does what
its body says (R97, R105, R108). -/
theorem State.issueWith_runs (body : Nat → Ctx → State) (hi : Runs s slot c x h.opc w) (ho : opcodes.contains h.opc = true)
    (hw : (h.ok w && own) = true) (hg : gated = true → x.enabled w 0 = true) :
    s.issueWith slot w h own gated body = body c x := by
  have he : (gated && !x.enabled w 0) = false := by cases gated <;> simp_all
  simp [State.issueWith_eq body hi ho, hw, he]

/-- A whole instruction whose predicate is 0 has no effect but to advance (R97). -/
theorem State.issueWith_disabled (body : Nat → Ctx → State) (hi : Runs s slot c x h.opc w)
    (ho : opcodes.contains h.opc = true) (hw : (h.ok w && own) = true) (hg : x.enabled w 0 = false) :
    s.issueWith slot w h own true body = s.retire slot c x (IssueSlot.of h.opc) := by
  simp [State.issueWith_eq body hi ho, hw, hg]

/-- An instruction whose word does not keep to its shape raises ILLEGAL (R90, R105). -/
theorem State.issueWith_illegal (body : Nat → Ctx → State) (hi : Runs s slot c x h.opc w)
    (ho : opcodes.contains h.opc = true) (hw : (h.ok w && own) = false) :
    s.issueWith slot w h own gated body = s.except slot c x .illegal (IssueSlot.of h.opc) := by
  simp [State.issueWith_eq body hi ho, hw]

/-- A slot with no strand that can issue: an instruction changes nothing. -/
theorem State.issueWith_none (body : Nat → Ctx → State) (hi : s.issuer slot = none) :
    s.issueWith slot w h own gated body = s := by
  simp [State.issueWith, hi]

/-- An instruction that is not the one at the PC does not issue (R89). -/
theorem State.issueWith_other (body : Nat → Ctx → State) (hi : CanIssue s slot c x)
    (ht : s.slotTaken slot (IssueSlot.of h.opc) = false) (ho : opcodes.contains (s.wordAtPc x).1 = true)
    (hn : s.wordAtPc x ≠ (h.opc, w)) : s.issueWith slot w h own gated body = s := by
  obtain ⟨h1, h2, h3⟩ := hi
  have h4 : (s.wordAtPc x).1 ≠ h.opc ∨ (s.wordAtPc x).2 ≠ w := by
    by_cases he : (s.wordAtPc x).1 = h.opc
    · exact .inr (fun hv => hn (Prod.ext he hv))
    · exact .inl he
  simp only [State.issueWith, h1, h2, h3, ht, ho]
  simp [h4]

/-- An instruction whose effect is on its own context alone is done with what its body gives. -/
theorem State.issue_ok (body : Ctx → IRes) (y : Ctx) (hi : Runs s slot c x h.opc w) (ho : opcodes.contains h.opc = true)
    (hw : (h.ok w && own) = true) (hg : gated = true → x.enabled w 0 = true) (hb : body x = .ok y) :
    s.issue slot w h own gated body = s.retire slot c y (IssueSlot.of h.opc) := by
  unfold State.issue
  rw [State.issueWith_runs _ hi ho hw hg, hb]
  rfl

/-- The same for one that names the next PC. -/
theorem State.issue_jump (body : Ctx → IRes) (y : Ctx) (hi : Runs s slot c x h.opc w) (ho : opcodes.contains h.opc = true)
    (hw : (h.ok w && own) = true) (hg : gated = true → x.enabled w 0 = true) (hb : body x = .jump y) :
    s.issue slot w h own gated body =
      (s.setCtx c { y with issued := true, wait := .none }).noteIssue slot (IssueSlot.of h.opc) := by
  unfold State.issue
  rw [State.issueWith_runs _ hi ho hw hg, hb]
  rfl

/-- The same for one that raises an exception (R106, R107). -/
theorem State.issue_exc (body : Ctx → IRes) (e : Exc) (hi : Runs s slot c x h.opc w) (ho : opcodes.contains h.opc = true)
    (hw : (h.ok w && own) = true) (hg : gated = true → x.enabled w 0 = true) (hb : body x = .exc e) :
    s.issue slot w h own gated body = s.except slot c x e (IssueSlot.of h.opc) := by
  unfold State.issue
  rw [State.issueWith_runs _ hi ho hw hg, hb]
  rfl

/-- The same for one that waits. -/
theorem State.issue_stall (body : Ctx → IRes) (r : Wait) (hi : Runs s slot c x h.opc w) (ho : opcodes.contains h.opc = true)
    (hw : (h.ok w && own) = true) (hg : gated = true → x.enabled w 0 = true) (hb : body x = .stall r) :
    s.issue slot w h own gated body = s.setCtx c { x with wait := r } := by
  unfold State.issue
  rw [State.issueWith_runs _ hi ho hw hg, hb]
  rfl

end

/-- A check list whose checks all hold leads to the body (R108). -/
theorem checked_ok (cs : List (Bool × Exc)) (b : IRes) (h : firstFail cs = none) : checked cs b = b := by
  simp [checked, h]

/-- No comet in flight: no range waits (R133). -/
@[simp] theorem Ctx.inFlight_nil (x : Ctx) (h : x.comets = []) (r v : List (Nat × Nat)) : x.inFlight r v = false := by
  simp [Ctx.inFlight, h]

/-- No comet in flight: a guarded body goes on (R133). -/
@[simp] theorem Ctx.guarded_nil (x : Ctx) (h : x.comets = []) (r v : List (Nat × Nat)) (b : IRes) :
    x.guarded r v b = b := by
  simp [Ctx.guarded, Ctx.inFlight, h]

end Sys2Proof.Machine
end

