-- ==== Sys2Proof/Laws/State.lean ====
section
/-!
SUPPORT. What each update of the state leaves as it is: one lemma for each field and update, so that no proof unfolds an
update of the record. A proof about a command rewrites the field it reads through these.
-/
namespace Sys2Proof.Machine

/-! ### setRegW -/

@[simp] theorem State.setRegW_pending (s : State) (r : RegName) (ix : List Nat) (v : Word) : (s.setRegW r ix v).pending = s.pending := rfl
@[simp] theorem State.setRegW_staged (s : State) (r : RegName) (ix : List Nat) (v : Word) : (s.setRegW r ix v).staged = s.staged := rfl
@[simp] theorem State.setRegW_sl (s : State) (r : RegName) (ix : List Nat) (v : Word) : (s.setRegW r ix v).sl = s.sl := rfl
@[simp] theorem State.setRegW_now (s : State) (r : RegName) (ix : List Nat) (v : Word) : (s.setRegW r ix v).now = s.now := rfl
@[simp] theorem State.setRegW_rng (s : State) (r : RegName) (ix : List Nat) (v : Word) : (s.setRegW r ix v).rng = s.rng := rfl
@[simp] theorem State.setRegW_nextId (s : State) (r : RegName) (ix : List Nat) (v : Word) : (s.setRegW r ix v).nextId = s.nextId := rfl
@[simp] theorem State.setRegW_ctxs (s : State) (r : RegName) (ix : List Nat) (v : Word) : (s.setRegW r ix v).ctxs = s.ctxs := rfl
@[simp] theorem State.setRegW_ctxGens (s : State) (r : RegName) (ix : List Nat) (v : Word) : (s.setRegW r ix v).ctxGens = s.ctxGens := rfl
@[simp] theorem State.setRegW_moons (s : State) (r : RegName) (ix : List Nat) (v : Word) : (s.setRegW r ix v).moons = s.moons := rfl
@[simp] theorem State.setRegW_objs (s : State) (r : RegName) (ix : List Nat) (v : Word) : (s.setRegW r ix v).objs = s.objs := rfl
@[simp] theorem State.setRegW_placeKey (s : State) (r : RegName) (ix : List Nat) (v : Word) : (s.setRegW r ix v).placeKey = s.placeKey := rfl
@[simp] theorem State.setRegW_tagGen (s : State) (r : RegName) (ix : List Nat) (v : Word) : (s.setRegW r ix v).tagGen = s.tagGen := rfl
@[simp] theorem State.setRegW_ownPbr (s : State) (r : RegName) (ix : List Nat) (v : Word) : (s.setRegW r ix v).ownPbr = s.ownPbr := rfl
@[simp] theorem State.setRegW_parts (s : State) (r : RegName) (ix : List Nat) (v : Word) : (s.setRegW r ix v).parts = s.parts := rfl
@[simp] theorem State.setRegW_qps (s : State) (r : RegName) (ix : List Nat) (v : Word) : (s.setRegW r ix v).qps = s.qps := rfl
@[simp] theorem State.setRegW_own (s : State) (r : RegName) (ix : List Nat) (v : Word) : (s.setRegW r ix v).own = s.own := rfl
@[simp] theorem State.setRegW_reqs (s : State) (r : RegName) (ix : List Nat) (v : Word) : (s.setRegW r ix v).reqs = s.reqs := rfl
@[simp] theorem State.setRegW_nmes (s : State) (r : RegName) (ix : List Nat) (v : Word) : (s.setRegW r ix v).nmes = s.nmes := rfl
@[simp] theorem State.setRegW_fills (s : State) (r : RegName) (ix : List Nat) (v : Word) : (s.setRegW r ix v).fills = s.fills := rfl
@[simp] theorem State.setRegW_dir (s : State) (r : RegName) (ix : List Nat) (v : Word) : (s.setRegW r ix v).dir = s.dir := rfl
@[simp] theorem State.setRegW_snoops (s : State) (r : RegName) (ix : List Nat) (v : Word) : (s.setRegW r ix v).snoops = s.snoops := rfl
@[simp] theorem State.setRegW_hot (s : State) (r : RegName) (ix : List Nat) (v : Word) : (s.setRegW r ix v).hot = s.hot := rfl
@[simp] theorem State.setRegW_accs (s : State) (r : RegName) (ix : List Nat) (v : Word) : (s.setRegW r ix v).accs = s.accs := rfl
@[simp] theorem State.setRegW_xin (s : State) (r : RegName) (ix : List Nat) (v : Word) : (s.setRegW r ix v).xin = s.xin := rfl
@[simp] theorem State.setRegW_shares (s : State) (r : RegName) (ix : List Nat) (v : Word) : (s.setRegW r ix v).shares = s.shares := rfl
@[simp] theorem State.setRegW_buckets (s : State) (r : RegName) (ix : List Nat) (v : Word) : (s.setRegW r ix v).buckets = s.buckets := rfl
@[simp] theorem State.setRegW_chargeRest (s : State) (r : RegName) (ix : List Nat) (v : Word) : (s.setRegW r ix v).chargeRest = s.chargeRest := rfl
@[simp] theorem State.setRegW_spillWrites (s : State) (r : RegName) (ix : List Nat) (v : Word) : (s.setRegW r ix v).spillWrites = s.spillWrites := rfl
@[simp] theorem State.setRegW_spillKey (s : State) (r : RegName) (ix : List Nat) (v : Word) : (s.setRegW r ix v).spillKey = s.spillKey := rfl
@[simp] theorem State.setRegW_rsp (s : State) (r : RegName) (ix : List Nat) (v : Word) : (s.setRegW r ix v).rsp = s.rsp := rfl
@[simp] theorem State.setRegW_grants (s : State) (r : RegName) (ix : List Nat) (v : Word) : (s.setRegW r ix v).grants = s.grants := rfl
@[simp] theorem State.setRegW_chanLoad (s : State) (r : RegName) (ix : List Nat) (v : Word) : (s.setRegW r ix v).chanLoad = s.chanLoad := rfl
@[simp] theorem State.setRegW_trayLoad (s : State) (r : RegName) (ix : List Nat) (v : Word) : (s.setRegW r ix v).trayLoad = s.trayLoad := rfl
@[simp] theorem State.setRegW_scrubs (s : State) (r : RegName) (ix : List Nat) (v : Word) : (s.setRegW r ix v).scrubs = s.scrubs := rfl
@[simp] theorem State.setRegW_winStart (s : State) (r : RegName) (ix : List Nat) (v : Word) : (s.setRegW r ix v).winStart = s.winStart := rfl
@[simp] theorem State.setRegW_imbC (s : State) (r : RegName) (ix : List Nat) (v : Word) : (s.setRegW r ix v).imbC = s.imbC := rfl
@[simp] theorem State.setRegW_imbT (s : State) (r : RegName) (ix : List Nat) (v : Word) : (s.setRegW r ix v).imbT = s.imbT := rfl
@[simp] theorem State.setRegW_crashed (s : State) (r : RegName) (ix : List Nat) (v : Word) : (s.setRegW r ix v).crashed = s.crashed := rfl
@[simp] theorem State.setRegW_viral (s : State) (r : RegName) (ix : List Nat) (v : Word) : (s.setRegW r ix v).viral = s.viral := rfl
@[simp] theorem State.setRegW_devq (s : State) (r : RegName) (ix : List Nat) (v : Word) : (s.setRegW r ix v).devq = s.devq := rfl
@[simp] theorem State.setRegW_devFault (s : State) (r : RegName) (ix : List Nat) (v : Word) : (s.setRegW r ix v).devFault = s.devFault := rfl
@[simp] theorem State.setRegW_teardowns (s : State) (r : RegName) (ix : List Nat) (v : Word) : (s.setRegW r ix v).teardowns = s.teardowns := rfl
@[simp] theorem State.setRegW_devResetDue (s : State) (r : RegName) (ix : List Nat) (v : Word) : (s.setRegW r ix v).devResetDue = s.devResetDue := rfl
@[simp] theorem State.setRegW_pwr (s : State) (r : RegName) (ix : List Nat) (v : Word) : (s.setRegW r ix v).pwr = s.pwr := rfl
@[simp] theorem State.setRegW_clk (s : State) (r : RegName) (ix : List Nat) (v : Word) : (s.setRegW r ix v).clk = s.clk := rfl
@[simp] theorem State.setRegW_pilot (s : State) (r : RegName) (ix : List Nat) (v : Word) : (s.setRegW r ix v).pilot = s.pilot := rfl
@[simp] theorem State.setRegW_link (s : State) (r : RegName) (ix : List Nat) (v : Word) : (s.setRegW r ix v).link = s.link := rfl
@[simp] theorem State.setRegW_anchors (s : State) (r : RegName) (ix : List Nat) (v : Word) : (s.setRegW r ix v).anchors = s.anchors := rfl
@[simp] theorem State.setRegW_nv (s : State) (r : RegName) (ix : List Nat) (v : Word) : (s.setRegW r ix v).nv = s.nv := rfl
@[simp] theorem State.setRegW_running (s : State) (r : RegName) (ix : List Nat) (v : Word) : (s.setRegW r ix v).running = s.running := rfl
@[simp] theorem State.setRegW_island (s : State) (r : RegName) (ix : List Nat) (v : Word) : (s.setRegW r ix v).island = s.island := rfl
@[simp] theorem State.setRegW_kdRec (s : State) (r : RegName) (ix : List Nat) (v : Word) : (s.setRegW r ix v).kdRec = s.kdRec := rfl
@[simp] theorem State.setRegW_kdStaged (s : State) (r : RegName) (ix : List Nat) (v : Word) : (s.setRegW r ix v).kdStaged = s.kdStaged := rfl
@[simp] theorem State.setRegW_tenantKeys (s : State) (r : RegName) (ix : List Nat) (v : Word) : (s.setRegW r ix v).tenantKeys = s.tenantKeys := rfl
@[simp] theorem State.setRegW_manHash (s : State) (r : RegName) (ix : List Nat) (v : Word) : (s.setRegW r ix v).manHash = s.manHash := rfl
@[simp] theorem State.setRegW_ev (s : State) (r : RegName) (ix : List Nat) (v : Word) : (s.setRegW r ix v).ev = s.ev := rfl
@[simp] theorem State.setRegW_mgmt (s : State) (r : RegName) (ix : List Nat) (v : Word) : (s.setRegW r ix v).mgmt = s.mgmt := rfl
@[simp] theorem State.setRegW_tap (s : State) (r : RegName) (ix : List Nat) (v : Word) : (s.setRegW r ix v).tap = s.tap := rfl
@[simp] theorem State.setRegW_mir (s : State) (r : RegName) (ix : List Nat) (v : Word) : (s.setRegW r ix v).mir = s.mir := rfl
@[simp] theorem State.setRegW_views (s : State) (r : RegName) (ix : List Nat) (v : Word) : (s.setRegW r ix v).views = s.views := rfl
@[simp] theorem State.setRegW_out (s : State) (r : RegName) (ix : List Nat) (v : Word) : (s.setRegW r ix v).out = s.out := rfl

/-! ### setSlW -/

@[simp] theorem State.setSlW_pending (s : State) (r : RegName) (ix : List Nat) (v : Word) : (s.setSlW r ix v).pending = s.pending := rfl
@[simp] theorem State.setSlW_regs (s : State) (r : RegName) (ix : List Nat) (v : Word) : (s.setSlW r ix v).regs = s.regs := rfl
@[simp] theorem State.setSlW_staged (s : State) (r : RegName) (ix : List Nat) (v : Word) : (s.setSlW r ix v).staged = s.staged := rfl
@[simp] theorem State.setSlW_now (s : State) (r : RegName) (ix : List Nat) (v : Word) : (s.setSlW r ix v).now = s.now := rfl
@[simp] theorem State.setSlW_rng (s : State) (r : RegName) (ix : List Nat) (v : Word) : (s.setSlW r ix v).rng = s.rng := rfl
@[simp] theorem State.setSlW_nextId (s : State) (r : RegName) (ix : List Nat) (v : Word) : (s.setSlW r ix v).nextId = s.nextId := rfl
@[simp] theorem State.setSlW_ctxs (s : State) (r : RegName) (ix : List Nat) (v : Word) : (s.setSlW r ix v).ctxs = s.ctxs := rfl
@[simp] theorem State.setSlW_ctxGens (s : State) (r : RegName) (ix : List Nat) (v : Word) : (s.setSlW r ix v).ctxGens = s.ctxGens := rfl
@[simp] theorem State.setSlW_moons (s : State) (r : RegName) (ix : List Nat) (v : Word) : (s.setSlW r ix v).moons = s.moons := rfl
@[simp] theorem State.setSlW_objs (s : State) (r : RegName) (ix : List Nat) (v : Word) : (s.setSlW r ix v).objs = s.objs := rfl
@[simp] theorem State.setSlW_placeKey (s : State) (r : RegName) (ix : List Nat) (v : Word) : (s.setSlW r ix v).placeKey = s.placeKey := rfl
@[simp] theorem State.setSlW_tagGen (s : State) (r : RegName) (ix : List Nat) (v : Word) : (s.setSlW r ix v).tagGen = s.tagGen := rfl
@[simp] theorem State.setSlW_ownPbr (s : State) (r : RegName) (ix : List Nat) (v : Word) : (s.setSlW r ix v).ownPbr = s.ownPbr := rfl
@[simp] theorem State.setSlW_parts (s : State) (r : RegName) (ix : List Nat) (v : Word) : (s.setSlW r ix v).parts = s.parts := rfl
@[simp] theorem State.setSlW_qps (s : State) (r : RegName) (ix : List Nat) (v : Word) : (s.setSlW r ix v).qps = s.qps := rfl
@[simp] theorem State.setSlW_own (s : State) (r : RegName) (ix : List Nat) (v : Word) : (s.setSlW r ix v).own = s.own := rfl
@[simp] theorem State.setSlW_reqs (s : State) (r : RegName) (ix : List Nat) (v : Word) : (s.setSlW r ix v).reqs = s.reqs := rfl
@[simp] theorem State.setSlW_nmes (s : State) (r : RegName) (ix : List Nat) (v : Word) : (s.setSlW r ix v).nmes = s.nmes := rfl
@[simp] theorem State.setSlW_fills (s : State) (r : RegName) (ix : List Nat) (v : Word) : (s.setSlW r ix v).fills = s.fills := rfl
@[simp] theorem State.setSlW_dir (s : State) (r : RegName) (ix : List Nat) (v : Word) : (s.setSlW r ix v).dir = s.dir := rfl
@[simp] theorem State.setSlW_snoops (s : State) (r : RegName) (ix : List Nat) (v : Word) : (s.setSlW r ix v).snoops = s.snoops := rfl
@[simp] theorem State.setSlW_hot (s : State) (r : RegName) (ix : List Nat) (v : Word) : (s.setSlW r ix v).hot = s.hot := rfl
@[simp] theorem State.setSlW_accs (s : State) (r : RegName) (ix : List Nat) (v : Word) : (s.setSlW r ix v).accs = s.accs := rfl
@[simp] theorem State.setSlW_xin (s : State) (r : RegName) (ix : List Nat) (v : Word) : (s.setSlW r ix v).xin = s.xin := rfl
@[simp] theorem State.setSlW_shares (s : State) (r : RegName) (ix : List Nat) (v : Word) : (s.setSlW r ix v).shares = s.shares := rfl
@[simp] theorem State.setSlW_buckets (s : State) (r : RegName) (ix : List Nat) (v : Word) : (s.setSlW r ix v).buckets = s.buckets := rfl
@[simp] theorem State.setSlW_chargeRest (s : State) (r : RegName) (ix : List Nat) (v : Word) : (s.setSlW r ix v).chargeRest = s.chargeRest := rfl
@[simp] theorem State.setSlW_spillWrites (s : State) (r : RegName) (ix : List Nat) (v : Word) : (s.setSlW r ix v).spillWrites = s.spillWrites := rfl
@[simp] theorem State.setSlW_spillKey (s : State) (r : RegName) (ix : List Nat) (v : Word) : (s.setSlW r ix v).spillKey = s.spillKey := rfl
@[simp] theorem State.setSlW_rsp (s : State) (r : RegName) (ix : List Nat) (v : Word) : (s.setSlW r ix v).rsp = s.rsp := rfl
@[simp] theorem State.setSlW_grants (s : State) (r : RegName) (ix : List Nat) (v : Word) : (s.setSlW r ix v).grants = s.grants := rfl
@[simp] theorem State.setSlW_chanLoad (s : State) (r : RegName) (ix : List Nat) (v : Word) : (s.setSlW r ix v).chanLoad = s.chanLoad := rfl
@[simp] theorem State.setSlW_trayLoad (s : State) (r : RegName) (ix : List Nat) (v : Word) : (s.setSlW r ix v).trayLoad = s.trayLoad := rfl
@[simp] theorem State.setSlW_scrubs (s : State) (r : RegName) (ix : List Nat) (v : Word) : (s.setSlW r ix v).scrubs = s.scrubs := rfl
@[simp] theorem State.setSlW_winStart (s : State) (r : RegName) (ix : List Nat) (v : Word) : (s.setSlW r ix v).winStart = s.winStart := rfl
@[simp] theorem State.setSlW_imbC (s : State) (r : RegName) (ix : List Nat) (v : Word) : (s.setSlW r ix v).imbC = s.imbC := rfl
@[simp] theorem State.setSlW_imbT (s : State) (r : RegName) (ix : List Nat) (v : Word) : (s.setSlW r ix v).imbT = s.imbT := rfl
@[simp] theorem State.setSlW_crashed (s : State) (r : RegName) (ix : List Nat) (v : Word) : (s.setSlW r ix v).crashed = s.crashed := rfl
@[simp] theorem State.setSlW_viral (s : State) (r : RegName) (ix : List Nat) (v : Word) : (s.setSlW r ix v).viral = s.viral := rfl
@[simp] theorem State.setSlW_devq (s : State) (r : RegName) (ix : List Nat) (v : Word) : (s.setSlW r ix v).devq = s.devq := rfl
@[simp] theorem State.setSlW_devFault (s : State) (r : RegName) (ix : List Nat) (v : Word) : (s.setSlW r ix v).devFault = s.devFault := rfl
@[simp] theorem State.setSlW_teardowns (s : State) (r : RegName) (ix : List Nat) (v : Word) : (s.setSlW r ix v).teardowns = s.teardowns := rfl
@[simp] theorem State.setSlW_devResetDue (s : State) (r : RegName) (ix : List Nat) (v : Word) : (s.setSlW r ix v).devResetDue = s.devResetDue := rfl
@[simp] theorem State.setSlW_pwr (s : State) (r : RegName) (ix : List Nat) (v : Word) : (s.setSlW r ix v).pwr = s.pwr := rfl
@[simp] theorem State.setSlW_clk (s : State) (r : RegName) (ix : List Nat) (v : Word) : (s.setSlW r ix v).clk = s.clk := rfl
@[simp] theorem State.setSlW_pilot (s : State) (r : RegName) (ix : List Nat) (v : Word) : (s.setSlW r ix v).pilot = s.pilot := rfl
@[simp] theorem State.setSlW_link (s : State) (r : RegName) (ix : List Nat) (v : Word) : (s.setSlW r ix v).link = s.link := rfl
@[simp] theorem State.setSlW_anchors (s : State) (r : RegName) (ix : List Nat) (v : Word) : (s.setSlW r ix v).anchors = s.anchors := rfl
@[simp] theorem State.setSlW_nv (s : State) (r : RegName) (ix : List Nat) (v : Word) : (s.setSlW r ix v).nv = s.nv := rfl
@[simp] theorem State.setSlW_running (s : State) (r : RegName) (ix : List Nat) (v : Word) : (s.setSlW r ix v).running = s.running := rfl
@[simp] theorem State.setSlW_island (s : State) (r : RegName) (ix : List Nat) (v : Word) : (s.setSlW r ix v).island = s.island := rfl
@[simp] theorem State.setSlW_kdRec (s : State) (r : RegName) (ix : List Nat) (v : Word) : (s.setSlW r ix v).kdRec = s.kdRec := rfl
@[simp] theorem State.setSlW_kdStaged (s : State) (r : RegName) (ix : List Nat) (v : Word) : (s.setSlW r ix v).kdStaged = s.kdStaged := rfl
@[simp] theorem State.setSlW_tenantKeys (s : State) (r : RegName) (ix : List Nat) (v : Word) : (s.setSlW r ix v).tenantKeys = s.tenantKeys := rfl
@[simp] theorem State.setSlW_manHash (s : State) (r : RegName) (ix : List Nat) (v : Word) : (s.setSlW r ix v).manHash = s.manHash := rfl
@[simp] theorem State.setSlW_ev (s : State) (r : RegName) (ix : List Nat) (v : Word) : (s.setSlW r ix v).ev = s.ev := rfl
@[simp] theorem State.setSlW_mgmt (s : State) (r : RegName) (ix : List Nat) (v : Word) : (s.setSlW r ix v).mgmt = s.mgmt := rfl
@[simp] theorem State.setSlW_tap (s : State) (r : RegName) (ix : List Nat) (v : Word) : (s.setSlW r ix v).tap = s.tap := rfl
@[simp] theorem State.setSlW_mir (s : State) (r : RegName) (ix : List Nat) (v : Word) : (s.setSlW r ix v).mir = s.mir := rfl
@[simp] theorem State.setSlW_views (s : State) (r : RegName) (ix : List Nat) (v : Word) : (s.setSlW r ix v).views = s.views := rfl
@[simp] theorem State.setSlW_out (s : State) (r : RegName) (ix : List Nat) (v : Word) : (s.setSlW r ix v).out = s.out := rfl

/-! ### fset -/

@[simp] theorem State.fset_pending (s : State) (f : RField) (ix : List Nat) (n : Nat) : (s.fset f ix n).pending = s.pending := rfl
@[simp] theorem State.fset_staged (s : State) (f : RField) (ix : List Nat) (n : Nat) : (s.fset f ix n).staged = s.staged := rfl
@[simp] theorem State.fset_sl (s : State) (f : RField) (ix : List Nat) (n : Nat) : (s.fset f ix n).sl = s.sl := rfl
@[simp] theorem State.fset_now (s : State) (f : RField) (ix : List Nat) (n : Nat) : (s.fset f ix n).now = s.now := rfl
@[simp] theorem State.fset_rng (s : State) (f : RField) (ix : List Nat) (n : Nat) : (s.fset f ix n).rng = s.rng := rfl
@[simp] theorem State.fset_nextId (s : State) (f : RField) (ix : List Nat) (n : Nat) : (s.fset f ix n).nextId = s.nextId := rfl
@[simp] theorem State.fset_ctxs (s : State) (f : RField) (ix : List Nat) (n : Nat) : (s.fset f ix n).ctxs = s.ctxs := rfl
@[simp] theorem State.fset_ctxGens (s : State) (f : RField) (ix : List Nat) (n : Nat) : (s.fset f ix n).ctxGens = s.ctxGens := rfl
@[simp] theorem State.fset_moons (s : State) (f : RField) (ix : List Nat) (n : Nat) : (s.fset f ix n).moons = s.moons := rfl
@[simp] theorem State.fset_objs (s : State) (f : RField) (ix : List Nat) (n : Nat) : (s.fset f ix n).objs = s.objs := rfl
@[simp] theorem State.fset_placeKey (s : State) (f : RField) (ix : List Nat) (n : Nat) : (s.fset f ix n).placeKey = s.placeKey := rfl
@[simp] theorem State.fset_tagGen (s : State) (f : RField) (ix : List Nat) (n : Nat) : (s.fset f ix n).tagGen = s.tagGen := rfl
@[simp] theorem State.fset_ownPbr (s : State) (f : RField) (ix : List Nat) (n : Nat) : (s.fset f ix n).ownPbr = s.ownPbr := rfl
@[simp] theorem State.fset_parts (s : State) (f : RField) (ix : List Nat) (n : Nat) : (s.fset f ix n).parts = s.parts := rfl
@[simp] theorem State.fset_qps (s : State) (f : RField) (ix : List Nat) (n : Nat) : (s.fset f ix n).qps = s.qps := rfl
@[simp] theorem State.fset_own (s : State) (f : RField) (ix : List Nat) (n : Nat) : (s.fset f ix n).own = s.own := rfl
@[simp] theorem State.fset_reqs (s : State) (f : RField) (ix : List Nat) (n : Nat) : (s.fset f ix n).reqs = s.reqs := rfl
@[simp] theorem State.fset_nmes (s : State) (f : RField) (ix : List Nat) (n : Nat) : (s.fset f ix n).nmes = s.nmes := rfl
@[simp] theorem State.fset_fills (s : State) (f : RField) (ix : List Nat) (n : Nat) : (s.fset f ix n).fills = s.fills := rfl
@[simp] theorem State.fset_dir (s : State) (f : RField) (ix : List Nat) (n : Nat) : (s.fset f ix n).dir = s.dir := rfl
@[simp] theorem State.fset_snoops (s : State) (f : RField) (ix : List Nat) (n : Nat) : (s.fset f ix n).snoops = s.snoops := rfl
@[simp] theorem State.fset_hot (s : State) (f : RField) (ix : List Nat) (n : Nat) : (s.fset f ix n).hot = s.hot := rfl
@[simp] theorem State.fset_accs (s : State) (f : RField) (ix : List Nat) (n : Nat) : (s.fset f ix n).accs = s.accs := rfl
@[simp] theorem State.fset_xin (s : State) (f : RField) (ix : List Nat) (n : Nat) : (s.fset f ix n).xin = s.xin := rfl
@[simp] theorem State.fset_shares (s : State) (f : RField) (ix : List Nat) (n : Nat) : (s.fset f ix n).shares = s.shares := rfl
@[simp] theorem State.fset_buckets (s : State) (f : RField) (ix : List Nat) (n : Nat) : (s.fset f ix n).buckets = s.buckets := rfl
@[simp] theorem State.fset_chargeRest (s : State) (f : RField) (ix : List Nat) (n : Nat) : (s.fset f ix n).chargeRest = s.chargeRest := rfl
@[simp] theorem State.fset_spillWrites (s : State) (f : RField) (ix : List Nat) (n : Nat) : (s.fset f ix n).spillWrites = s.spillWrites := rfl
@[simp] theorem State.fset_spillKey (s : State) (f : RField) (ix : List Nat) (n : Nat) : (s.fset f ix n).spillKey = s.spillKey := rfl
@[simp] theorem State.fset_rsp (s : State) (f : RField) (ix : List Nat) (n : Nat) : (s.fset f ix n).rsp = s.rsp := rfl
@[simp] theorem State.fset_grants (s : State) (f : RField) (ix : List Nat) (n : Nat) : (s.fset f ix n).grants = s.grants := rfl
@[simp] theorem State.fset_chanLoad (s : State) (f : RField) (ix : List Nat) (n : Nat) : (s.fset f ix n).chanLoad = s.chanLoad := rfl
@[simp] theorem State.fset_trayLoad (s : State) (f : RField) (ix : List Nat) (n : Nat) : (s.fset f ix n).trayLoad = s.trayLoad := rfl
@[simp] theorem State.fset_scrubs (s : State) (f : RField) (ix : List Nat) (n : Nat) : (s.fset f ix n).scrubs = s.scrubs := rfl
@[simp] theorem State.fset_winStart (s : State) (f : RField) (ix : List Nat) (n : Nat) : (s.fset f ix n).winStart = s.winStart := rfl
@[simp] theorem State.fset_imbC (s : State) (f : RField) (ix : List Nat) (n : Nat) : (s.fset f ix n).imbC = s.imbC := rfl
@[simp] theorem State.fset_imbT (s : State) (f : RField) (ix : List Nat) (n : Nat) : (s.fset f ix n).imbT = s.imbT := rfl
@[simp] theorem State.fset_crashed (s : State) (f : RField) (ix : List Nat) (n : Nat) : (s.fset f ix n).crashed = s.crashed := rfl
@[simp] theorem State.fset_viral (s : State) (f : RField) (ix : List Nat) (n : Nat) : (s.fset f ix n).viral = s.viral := rfl
@[simp] theorem State.fset_devq (s : State) (f : RField) (ix : List Nat) (n : Nat) : (s.fset f ix n).devq = s.devq := rfl
@[simp] theorem State.fset_devFault (s : State) (f : RField) (ix : List Nat) (n : Nat) : (s.fset f ix n).devFault = s.devFault := rfl
@[simp] theorem State.fset_teardowns (s : State) (f : RField) (ix : List Nat) (n : Nat) : (s.fset f ix n).teardowns = s.teardowns := rfl
@[simp] theorem State.fset_devResetDue (s : State) (f : RField) (ix : List Nat) (n : Nat) : (s.fset f ix n).devResetDue = s.devResetDue := rfl
@[simp] theorem State.fset_pwr (s : State) (f : RField) (ix : List Nat) (n : Nat) : (s.fset f ix n).pwr = s.pwr := rfl
@[simp] theorem State.fset_clk (s : State) (f : RField) (ix : List Nat) (n : Nat) : (s.fset f ix n).clk = s.clk := rfl
@[simp] theorem State.fset_pilot (s : State) (f : RField) (ix : List Nat) (n : Nat) : (s.fset f ix n).pilot = s.pilot := rfl
@[simp] theorem State.fset_link (s : State) (f : RField) (ix : List Nat) (n : Nat) : (s.fset f ix n).link = s.link := rfl
@[simp] theorem State.fset_anchors (s : State) (f : RField) (ix : List Nat) (n : Nat) : (s.fset f ix n).anchors = s.anchors := rfl
@[simp] theorem State.fset_nv (s : State) (f : RField) (ix : List Nat) (n : Nat) : (s.fset f ix n).nv = s.nv := rfl
@[simp] theorem State.fset_running (s : State) (f : RField) (ix : List Nat) (n : Nat) : (s.fset f ix n).running = s.running := rfl
@[simp] theorem State.fset_island (s : State) (f : RField) (ix : List Nat) (n : Nat) : (s.fset f ix n).island = s.island := rfl
@[simp] theorem State.fset_kdRec (s : State) (f : RField) (ix : List Nat) (n : Nat) : (s.fset f ix n).kdRec = s.kdRec := rfl
@[simp] theorem State.fset_kdStaged (s : State) (f : RField) (ix : List Nat) (n : Nat) : (s.fset f ix n).kdStaged = s.kdStaged := rfl
@[simp] theorem State.fset_tenantKeys (s : State) (f : RField) (ix : List Nat) (n : Nat) : (s.fset f ix n).tenantKeys = s.tenantKeys := rfl
@[simp] theorem State.fset_manHash (s : State) (f : RField) (ix : List Nat) (n : Nat) : (s.fset f ix n).manHash = s.manHash := rfl
@[simp] theorem State.fset_ev (s : State) (f : RField) (ix : List Nat) (n : Nat) : (s.fset f ix n).ev = s.ev := rfl
@[simp] theorem State.fset_mgmt (s : State) (f : RField) (ix : List Nat) (n : Nat) : (s.fset f ix n).mgmt = s.mgmt := rfl
@[simp] theorem State.fset_tap (s : State) (f : RField) (ix : List Nat) (n : Nat) : (s.fset f ix n).tap = s.tap := rfl
@[simp] theorem State.fset_mir (s : State) (f : RField) (ix : List Nat) (n : Nat) : (s.fset f ix n).mir = s.mir := rfl
@[simp] theorem State.fset_views (s : State) (f : RField) (ix : List Nat) (n : Nat) : (s.fset f ix n).views = s.views := rfl
@[simp] theorem State.fset_out (s : State) (f : RField) (ix : List Nat) (n : Nat) : (s.fset f ix n).out = s.out := rfl

/-! ### fsat -/

@[simp] theorem State.fsat_pending (s : State) (f : RField) (ix : List Nat) (n : Nat) : (s.fsat f ix n).pending = s.pending := rfl
@[simp] theorem State.fsat_staged (s : State) (f : RField) (ix : List Nat) (n : Nat) : (s.fsat f ix n).staged = s.staged := rfl
@[simp] theorem State.fsat_sl (s : State) (f : RField) (ix : List Nat) (n : Nat) : (s.fsat f ix n).sl = s.sl := rfl
@[simp] theorem State.fsat_now (s : State) (f : RField) (ix : List Nat) (n : Nat) : (s.fsat f ix n).now = s.now := rfl
@[simp] theorem State.fsat_rng (s : State) (f : RField) (ix : List Nat) (n : Nat) : (s.fsat f ix n).rng = s.rng := rfl
@[simp] theorem State.fsat_nextId (s : State) (f : RField) (ix : List Nat) (n : Nat) : (s.fsat f ix n).nextId = s.nextId := rfl
@[simp] theorem State.fsat_ctxs (s : State) (f : RField) (ix : List Nat) (n : Nat) : (s.fsat f ix n).ctxs = s.ctxs := rfl
@[simp] theorem State.fsat_ctxGens (s : State) (f : RField) (ix : List Nat) (n : Nat) : (s.fsat f ix n).ctxGens = s.ctxGens := rfl
@[simp] theorem State.fsat_moons (s : State) (f : RField) (ix : List Nat) (n : Nat) : (s.fsat f ix n).moons = s.moons := rfl
@[simp] theorem State.fsat_objs (s : State) (f : RField) (ix : List Nat) (n : Nat) : (s.fsat f ix n).objs = s.objs := rfl
@[simp] theorem State.fsat_placeKey (s : State) (f : RField) (ix : List Nat) (n : Nat) : (s.fsat f ix n).placeKey = s.placeKey := rfl
@[simp] theorem State.fsat_tagGen (s : State) (f : RField) (ix : List Nat) (n : Nat) : (s.fsat f ix n).tagGen = s.tagGen := rfl
@[simp] theorem State.fsat_ownPbr (s : State) (f : RField) (ix : List Nat) (n : Nat) : (s.fsat f ix n).ownPbr = s.ownPbr := rfl
@[simp] theorem State.fsat_parts (s : State) (f : RField) (ix : List Nat) (n : Nat) : (s.fsat f ix n).parts = s.parts := rfl
@[simp] theorem State.fsat_qps (s : State) (f : RField) (ix : List Nat) (n : Nat) : (s.fsat f ix n).qps = s.qps := rfl
@[simp] theorem State.fsat_own (s : State) (f : RField) (ix : List Nat) (n : Nat) : (s.fsat f ix n).own = s.own := rfl
@[simp] theorem State.fsat_reqs (s : State) (f : RField) (ix : List Nat) (n : Nat) : (s.fsat f ix n).reqs = s.reqs := rfl
@[simp] theorem State.fsat_nmes (s : State) (f : RField) (ix : List Nat) (n : Nat) : (s.fsat f ix n).nmes = s.nmes := rfl
@[simp] theorem State.fsat_fills (s : State) (f : RField) (ix : List Nat) (n : Nat) : (s.fsat f ix n).fills = s.fills := rfl
@[simp] theorem State.fsat_dir (s : State) (f : RField) (ix : List Nat) (n : Nat) : (s.fsat f ix n).dir = s.dir := rfl
@[simp] theorem State.fsat_snoops (s : State) (f : RField) (ix : List Nat) (n : Nat) : (s.fsat f ix n).snoops = s.snoops := rfl
@[simp] theorem State.fsat_hot (s : State) (f : RField) (ix : List Nat) (n : Nat) : (s.fsat f ix n).hot = s.hot := rfl
@[simp] theorem State.fsat_accs (s : State) (f : RField) (ix : List Nat) (n : Nat) : (s.fsat f ix n).accs = s.accs := rfl
@[simp] theorem State.fsat_xin (s : State) (f : RField) (ix : List Nat) (n : Nat) : (s.fsat f ix n).xin = s.xin := rfl
@[simp] theorem State.fsat_shares (s : State) (f : RField) (ix : List Nat) (n : Nat) : (s.fsat f ix n).shares = s.shares := rfl
@[simp] theorem State.fsat_buckets (s : State) (f : RField) (ix : List Nat) (n : Nat) : (s.fsat f ix n).buckets = s.buckets := rfl
@[simp] theorem State.fsat_chargeRest (s : State) (f : RField) (ix : List Nat) (n : Nat) : (s.fsat f ix n).chargeRest = s.chargeRest := rfl
@[simp] theorem State.fsat_spillWrites (s : State) (f : RField) (ix : List Nat) (n : Nat) : (s.fsat f ix n).spillWrites = s.spillWrites := rfl
@[simp] theorem State.fsat_spillKey (s : State) (f : RField) (ix : List Nat) (n : Nat) : (s.fsat f ix n).spillKey = s.spillKey := rfl
@[simp] theorem State.fsat_rsp (s : State) (f : RField) (ix : List Nat) (n : Nat) : (s.fsat f ix n).rsp = s.rsp := rfl
@[simp] theorem State.fsat_grants (s : State) (f : RField) (ix : List Nat) (n : Nat) : (s.fsat f ix n).grants = s.grants := rfl
@[simp] theorem State.fsat_chanLoad (s : State) (f : RField) (ix : List Nat) (n : Nat) : (s.fsat f ix n).chanLoad = s.chanLoad := rfl
@[simp] theorem State.fsat_trayLoad (s : State) (f : RField) (ix : List Nat) (n : Nat) : (s.fsat f ix n).trayLoad = s.trayLoad := rfl
@[simp] theorem State.fsat_scrubs (s : State) (f : RField) (ix : List Nat) (n : Nat) : (s.fsat f ix n).scrubs = s.scrubs := rfl
@[simp] theorem State.fsat_winStart (s : State) (f : RField) (ix : List Nat) (n : Nat) : (s.fsat f ix n).winStart = s.winStart := rfl
@[simp] theorem State.fsat_imbC (s : State) (f : RField) (ix : List Nat) (n : Nat) : (s.fsat f ix n).imbC = s.imbC := rfl
@[simp] theorem State.fsat_imbT (s : State) (f : RField) (ix : List Nat) (n : Nat) : (s.fsat f ix n).imbT = s.imbT := rfl
@[simp] theorem State.fsat_crashed (s : State) (f : RField) (ix : List Nat) (n : Nat) : (s.fsat f ix n).crashed = s.crashed := rfl
@[simp] theorem State.fsat_viral (s : State) (f : RField) (ix : List Nat) (n : Nat) : (s.fsat f ix n).viral = s.viral := rfl
@[simp] theorem State.fsat_devq (s : State) (f : RField) (ix : List Nat) (n : Nat) : (s.fsat f ix n).devq = s.devq := rfl
@[simp] theorem State.fsat_devFault (s : State) (f : RField) (ix : List Nat) (n : Nat) : (s.fsat f ix n).devFault = s.devFault := rfl
@[simp] theorem State.fsat_teardowns (s : State) (f : RField) (ix : List Nat) (n : Nat) : (s.fsat f ix n).teardowns = s.teardowns := rfl
@[simp] theorem State.fsat_devResetDue (s : State) (f : RField) (ix : List Nat) (n : Nat) : (s.fsat f ix n).devResetDue = s.devResetDue := rfl
@[simp] theorem State.fsat_pwr (s : State) (f : RField) (ix : List Nat) (n : Nat) : (s.fsat f ix n).pwr = s.pwr := rfl
@[simp] theorem State.fsat_clk (s : State) (f : RField) (ix : List Nat) (n : Nat) : (s.fsat f ix n).clk = s.clk := rfl
@[simp] theorem State.fsat_pilot (s : State) (f : RField) (ix : List Nat) (n : Nat) : (s.fsat f ix n).pilot = s.pilot := rfl
@[simp] theorem State.fsat_link (s : State) (f : RField) (ix : List Nat) (n : Nat) : (s.fsat f ix n).link = s.link := rfl
@[simp] theorem State.fsat_anchors (s : State) (f : RField) (ix : List Nat) (n : Nat) : (s.fsat f ix n).anchors = s.anchors := rfl
@[simp] theorem State.fsat_nv (s : State) (f : RField) (ix : List Nat) (n : Nat) : (s.fsat f ix n).nv = s.nv := rfl
@[simp] theorem State.fsat_running (s : State) (f : RField) (ix : List Nat) (n : Nat) : (s.fsat f ix n).running = s.running := rfl
@[simp] theorem State.fsat_island (s : State) (f : RField) (ix : List Nat) (n : Nat) : (s.fsat f ix n).island = s.island := rfl
@[simp] theorem State.fsat_kdRec (s : State) (f : RField) (ix : List Nat) (n : Nat) : (s.fsat f ix n).kdRec = s.kdRec := rfl
@[simp] theorem State.fsat_kdStaged (s : State) (f : RField) (ix : List Nat) (n : Nat) : (s.fsat f ix n).kdStaged = s.kdStaged := rfl
@[simp] theorem State.fsat_tenantKeys (s : State) (f : RField) (ix : List Nat) (n : Nat) : (s.fsat f ix n).tenantKeys = s.tenantKeys := rfl
@[simp] theorem State.fsat_manHash (s : State) (f : RField) (ix : List Nat) (n : Nat) : (s.fsat f ix n).manHash = s.manHash := rfl
@[simp] theorem State.fsat_ev (s : State) (f : RField) (ix : List Nat) (n : Nat) : (s.fsat f ix n).ev = s.ev := rfl
@[simp] theorem State.fsat_mgmt (s : State) (f : RField) (ix : List Nat) (n : Nat) : (s.fsat f ix n).mgmt = s.mgmt := rfl
@[simp] theorem State.fsat_tap (s : State) (f : RField) (ix : List Nat) (n : Nat) : (s.fsat f ix n).tap = s.tap := rfl
@[simp] theorem State.fsat_mir (s : State) (f : RField) (ix : List Nat) (n : Nat) : (s.fsat f ix n).mir = s.mir := rfl
@[simp] theorem State.fsat_views (s : State) (f : RField) (ix : List Nat) (n : Nat) : (s.fsat f ix n).views = s.views := rfl
@[simp] theorem State.fsat_out (s : State) (f : RField) (ix : List Nat) (n : Nat) : (s.fsat f ix n).out = s.out := rfl

/-! ### fwrap -/

@[simp] theorem State.fwrap_pending (s : State) (f : RField) (ix : List Nat) (n : Nat) : (s.fwrap f ix n).pending = s.pending := rfl
@[simp] theorem State.fwrap_staged (s : State) (f : RField) (ix : List Nat) (n : Nat) : (s.fwrap f ix n).staged = s.staged := rfl
@[simp] theorem State.fwrap_sl (s : State) (f : RField) (ix : List Nat) (n : Nat) : (s.fwrap f ix n).sl = s.sl := rfl
@[simp] theorem State.fwrap_now (s : State) (f : RField) (ix : List Nat) (n : Nat) : (s.fwrap f ix n).now = s.now := rfl
@[simp] theorem State.fwrap_rng (s : State) (f : RField) (ix : List Nat) (n : Nat) : (s.fwrap f ix n).rng = s.rng := rfl
@[simp] theorem State.fwrap_nextId (s : State) (f : RField) (ix : List Nat) (n : Nat) : (s.fwrap f ix n).nextId = s.nextId := rfl
@[simp] theorem State.fwrap_ctxs (s : State) (f : RField) (ix : List Nat) (n : Nat) : (s.fwrap f ix n).ctxs = s.ctxs := rfl
@[simp] theorem State.fwrap_ctxGens (s : State) (f : RField) (ix : List Nat) (n : Nat) : (s.fwrap f ix n).ctxGens = s.ctxGens := rfl
@[simp] theorem State.fwrap_moons (s : State) (f : RField) (ix : List Nat) (n : Nat) : (s.fwrap f ix n).moons = s.moons := rfl
@[simp] theorem State.fwrap_objs (s : State) (f : RField) (ix : List Nat) (n : Nat) : (s.fwrap f ix n).objs = s.objs := rfl
@[simp] theorem State.fwrap_placeKey (s : State) (f : RField) (ix : List Nat) (n : Nat) : (s.fwrap f ix n).placeKey = s.placeKey := rfl
@[simp] theorem State.fwrap_tagGen (s : State) (f : RField) (ix : List Nat) (n : Nat) : (s.fwrap f ix n).tagGen = s.tagGen := rfl
@[simp] theorem State.fwrap_ownPbr (s : State) (f : RField) (ix : List Nat) (n : Nat) : (s.fwrap f ix n).ownPbr = s.ownPbr := rfl
@[simp] theorem State.fwrap_parts (s : State) (f : RField) (ix : List Nat) (n : Nat) : (s.fwrap f ix n).parts = s.parts := rfl
@[simp] theorem State.fwrap_qps (s : State) (f : RField) (ix : List Nat) (n : Nat) : (s.fwrap f ix n).qps = s.qps := rfl
@[simp] theorem State.fwrap_own (s : State) (f : RField) (ix : List Nat) (n : Nat) : (s.fwrap f ix n).own = s.own := rfl
@[simp] theorem State.fwrap_reqs (s : State) (f : RField) (ix : List Nat) (n : Nat) : (s.fwrap f ix n).reqs = s.reqs := rfl
@[simp] theorem State.fwrap_nmes (s : State) (f : RField) (ix : List Nat) (n : Nat) : (s.fwrap f ix n).nmes = s.nmes := rfl
@[simp] theorem State.fwrap_fills (s : State) (f : RField) (ix : List Nat) (n : Nat) : (s.fwrap f ix n).fills = s.fills := rfl
@[simp] theorem State.fwrap_dir (s : State) (f : RField) (ix : List Nat) (n : Nat) : (s.fwrap f ix n).dir = s.dir := rfl
@[simp] theorem State.fwrap_snoops (s : State) (f : RField) (ix : List Nat) (n : Nat) : (s.fwrap f ix n).snoops = s.snoops := rfl
@[simp] theorem State.fwrap_hot (s : State) (f : RField) (ix : List Nat) (n : Nat) : (s.fwrap f ix n).hot = s.hot := rfl
@[simp] theorem State.fwrap_accs (s : State) (f : RField) (ix : List Nat) (n : Nat) : (s.fwrap f ix n).accs = s.accs := rfl
@[simp] theorem State.fwrap_xin (s : State) (f : RField) (ix : List Nat) (n : Nat) : (s.fwrap f ix n).xin = s.xin := rfl
@[simp] theorem State.fwrap_shares (s : State) (f : RField) (ix : List Nat) (n : Nat) : (s.fwrap f ix n).shares = s.shares := rfl
@[simp] theorem State.fwrap_buckets (s : State) (f : RField) (ix : List Nat) (n : Nat) : (s.fwrap f ix n).buckets = s.buckets := rfl
@[simp] theorem State.fwrap_chargeRest (s : State) (f : RField) (ix : List Nat) (n : Nat) : (s.fwrap f ix n).chargeRest = s.chargeRest := rfl
@[simp] theorem State.fwrap_spillWrites (s : State) (f : RField) (ix : List Nat) (n : Nat) : (s.fwrap f ix n).spillWrites = s.spillWrites := rfl
@[simp] theorem State.fwrap_spillKey (s : State) (f : RField) (ix : List Nat) (n : Nat) : (s.fwrap f ix n).spillKey = s.spillKey := rfl
@[simp] theorem State.fwrap_rsp (s : State) (f : RField) (ix : List Nat) (n : Nat) : (s.fwrap f ix n).rsp = s.rsp := rfl
@[simp] theorem State.fwrap_grants (s : State) (f : RField) (ix : List Nat) (n : Nat) : (s.fwrap f ix n).grants = s.grants := rfl
@[simp] theorem State.fwrap_chanLoad (s : State) (f : RField) (ix : List Nat) (n : Nat) : (s.fwrap f ix n).chanLoad = s.chanLoad := rfl
@[simp] theorem State.fwrap_trayLoad (s : State) (f : RField) (ix : List Nat) (n : Nat) : (s.fwrap f ix n).trayLoad = s.trayLoad := rfl
@[simp] theorem State.fwrap_scrubs (s : State) (f : RField) (ix : List Nat) (n : Nat) : (s.fwrap f ix n).scrubs = s.scrubs := rfl
@[simp] theorem State.fwrap_winStart (s : State) (f : RField) (ix : List Nat) (n : Nat) : (s.fwrap f ix n).winStart = s.winStart := rfl
@[simp] theorem State.fwrap_imbC (s : State) (f : RField) (ix : List Nat) (n : Nat) : (s.fwrap f ix n).imbC = s.imbC := rfl
@[simp] theorem State.fwrap_imbT (s : State) (f : RField) (ix : List Nat) (n : Nat) : (s.fwrap f ix n).imbT = s.imbT := rfl
@[simp] theorem State.fwrap_crashed (s : State) (f : RField) (ix : List Nat) (n : Nat) : (s.fwrap f ix n).crashed = s.crashed := rfl
@[simp] theorem State.fwrap_viral (s : State) (f : RField) (ix : List Nat) (n : Nat) : (s.fwrap f ix n).viral = s.viral := rfl
@[simp] theorem State.fwrap_devq (s : State) (f : RField) (ix : List Nat) (n : Nat) : (s.fwrap f ix n).devq = s.devq := rfl
@[simp] theorem State.fwrap_devFault (s : State) (f : RField) (ix : List Nat) (n : Nat) : (s.fwrap f ix n).devFault = s.devFault := rfl
@[simp] theorem State.fwrap_teardowns (s : State) (f : RField) (ix : List Nat) (n : Nat) : (s.fwrap f ix n).teardowns = s.teardowns := rfl
@[simp] theorem State.fwrap_devResetDue (s : State) (f : RField) (ix : List Nat) (n : Nat) : (s.fwrap f ix n).devResetDue = s.devResetDue := rfl
@[simp] theorem State.fwrap_pwr (s : State) (f : RField) (ix : List Nat) (n : Nat) : (s.fwrap f ix n).pwr = s.pwr := rfl
@[simp] theorem State.fwrap_clk (s : State) (f : RField) (ix : List Nat) (n : Nat) : (s.fwrap f ix n).clk = s.clk := rfl
@[simp] theorem State.fwrap_pilot (s : State) (f : RField) (ix : List Nat) (n : Nat) : (s.fwrap f ix n).pilot = s.pilot := rfl
@[simp] theorem State.fwrap_link (s : State) (f : RField) (ix : List Nat) (n : Nat) : (s.fwrap f ix n).link = s.link := rfl
@[simp] theorem State.fwrap_anchors (s : State) (f : RField) (ix : List Nat) (n : Nat) : (s.fwrap f ix n).anchors = s.anchors := rfl
@[simp] theorem State.fwrap_nv (s : State) (f : RField) (ix : List Nat) (n : Nat) : (s.fwrap f ix n).nv = s.nv := rfl
@[simp] theorem State.fwrap_running (s : State) (f : RField) (ix : List Nat) (n : Nat) : (s.fwrap f ix n).running = s.running := rfl
@[simp] theorem State.fwrap_island (s : State) (f : RField) (ix : List Nat) (n : Nat) : (s.fwrap f ix n).island = s.island := rfl
@[simp] theorem State.fwrap_kdRec (s : State) (f : RField) (ix : List Nat) (n : Nat) : (s.fwrap f ix n).kdRec = s.kdRec := rfl
@[simp] theorem State.fwrap_kdStaged (s : State) (f : RField) (ix : List Nat) (n : Nat) : (s.fwrap f ix n).kdStaged = s.kdStaged := rfl
@[simp] theorem State.fwrap_tenantKeys (s : State) (f : RField) (ix : List Nat) (n : Nat) : (s.fwrap f ix n).tenantKeys = s.tenantKeys := rfl
@[simp] theorem State.fwrap_manHash (s : State) (f : RField) (ix : List Nat) (n : Nat) : (s.fwrap f ix n).manHash = s.manHash := rfl
@[simp] theorem State.fwrap_ev (s : State) (f : RField) (ix : List Nat) (n : Nat) : (s.fwrap f ix n).ev = s.ev := rfl
@[simp] theorem State.fwrap_mgmt (s : State) (f : RField) (ix : List Nat) (n : Nat) : (s.fwrap f ix n).mgmt = s.mgmt := rfl
@[simp] theorem State.fwrap_tap (s : State) (f : RField) (ix : List Nat) (n : Nat) : (s.fwrap f ix n).tap = s.tap := rfl
@[simp] theorem State.fwrap_mir (s : State) (f : RField) (ix : List Nat) (n : Nat) : (s.fwrap f ix n).mir = s.mir := rfl
@[simp] theorem State.fwrap_views (s : State) (f : RField) (ix : List Nat) (n : Nat) : (s.fwrap f ix n).views = s.views := rfl
@[simp] theorem State.fwrap_out (s : State) (f : RField) (ix : List Nat) (n : Nat) : (s.fwrap f ix n).out = s.out := rfl

/-! ### setStagedW -/

@[simp] theorem State.setStagedW_pending (s : State) (r : RegName) (ix : List Nat) (v : Word) : (s.setStagedW r ix v).pending = s.pending := rfl
@[simp] theorem State.setStagedW_regs (s : State) (r : RegName) (ix : List Nat) (v : Word) : (s.setStagedW r ix v).regs = s.regs := rfl
@[simp] theorem State.setStagedW_sl (s : State) (r : RegName) (ix : List Nat) (v : Word) : (s.setStagedW r ix v).sl = s.sl := rfl
@[simp] theorem State.setStagedW_now (s : State) (r : RegName) (ix : List Nat) (v : Word) : (s.setStagedW r ix v).now = s.now := rfl
@[simp] theorem State.setStagedW_rng (s : State) (r : RegName) (ix : List Nat) (v : Word) : (s.setStagedW r ix v).rng = s.rng := rfl
@[simp] theorem State.setStagedW_nextId (s : State) (r : RegName) (ix : List Nat) (v : Word) : (s.setStagedW r ix v).nextId = s.nextId := rfl
@[simp] theorem State.setStagedW_ctxs (s : State) (r : RegName) (ix : List Nat) (v : Word) : (s.setStagedW r ix v).ctxs = s.ctxs := rfl
@[simp] theorem State.setStagedW_ctxGens (s : State) (r : RegName) (ix : List Nat) (v : Word) : (s.setStagedW r ix v).ctxGens = s.ctxGens := rfl
@[simp] theorem State.setStagedW_moons (s : State) (r : RegName) (ix : List Nat) (v : Word) : (s.setStagedW r ix v).moons = s.moons := rfl
@[simp] theorem State.setStagedW_objs (s : State) (r : RegName) (ix : List Nat) (v : Word) : (s.setStagedW r ix v).objs = s.objs := rfl
@[simp] theorem State.setStagedW_placeKey (s : State) (r : RegName) (ix : List Nat) (v : Word) : (s.setStagedW r ix v).placeKey = s.placeKey := rfl
@[simp] theorem State.setStagedW_tagGen (s : State) (r : RegName) (ix : List Nat) (v : Word) : (s.setStagedW r ix v).tagGen = s.tagGen := rfl
@[simp] theorem State.setStagedW_ownPbr (s : State) (r : RegName) (ix : List Nat) (v : Word) : (s.setStagedW r ix v).ownPbr = s.ownPbr := rfl
@[simp] theorem State.setStagedW_parts (s : State) (r : RegName) (ix : List Nat) (v : Word) : (s.setStagedW r ix v).parts = s.parts := rfl
@[simp] theorem State.setStagedW_qps (s : State) (r : RegName) (ix : List Nat) (v : Word) : (s.setStagedW r ix v).qps = s.qps := rfl
@[simp] theorem State.setStagedW_own (s : State) (r : RegName) (ix : List Nat) (v : Word) : (s.setStagedW r ix v).own = s.own := rfl
@[simp] theorem State.setStagedW_reqs (s : State) (r : RegName) (ix : List Nat) (v : Word) : (s.setStagedW r ix v).reqs = s.reqs := rfl
@[simp] theorem State.setStagedW_nmes (s : State) (r : RegName) (ix : List Nat) (v : Word) : (s.setStagedW r ix v).nmes = s.nmes := rfl
@[simp] theorem State.setStagedW_fills (s : State) (r : RegName) (ix : List Nat) (v : Word) : (s.setStagedW r ix v).fills = s.fills := rfl
@[simp] theorem State.setStagedW_dir (s : State) (r : RegName) (ix : List Nat) (v : Word) : (s.setStagedW r ix v).dir = s.dir := rfl
@[simp] theorem State.setStagedW_snoops (s : State) (r : RegName) (ix : List Nat) (v : Word) : (s.setStagedW r ix v).snoops = s.snoops := rfl
@[simp] theorem State.setStagedW_hot (s : State) (r : RegName) (ix : List Nat) (v : Word) : (s.setStagedW r ix v).hot = s.hot := rfl
@[simp] theorem State.setStagedW_accs (s : State) (r : RegName) (ix : List Nat) (v : Word) : (s.setStagedW r ix v).accs = s.accs := rfl
@[simp] theorem State.setStagedW_xin (s : State) (r : RegName) (ix : List Nat) (v : Word) : (s.setStagedW r ix v).xin = s.xin := rfl
@[simp] theorem State.setStagedW_shares (s : State) (r : RegName) (ix : List Nat) (v : Word) : (s.setStagedW r ix v).shares = s.shares := rfl
@[simp] theorem State.setStagedW_buckets (s : State) (r : RegName) (ix : List Nat) (v : Word) : (s.setStagedW r ix v).buckets = s.buckets := rfl
@[simp] theorem State.setStagedW_chargeRest (s : State) (r : RegName) (ix : List Nat) (v : Word) : (s.setStagedW r ix v).chargeRest = s.chargeRest := rfl
@[simp] theorem State.setStagedW_spillWrites (s : State) (r : RegName) (ix : List Nat) (v : Word) : (s.setStagedW r ix v).spillWrites = s.spillWrites := rfl
@[simp] theorem State.setStagedW_spillKey (s : State) (r : RegName) (ix : List Nat) (v : Word) : (s.setStagedW r ix v).spillKey = s.spillKey := rfl
@[simp] theorem State.setStagedW_rsp (s : State) (r : RegName) (ix : List Nat) (v : Word) : (s.setStagedW r ix v).rsp = s.rsp := rfl
@[simp] theorem State.setStagedW_grants (s : State) (r : RegName) (ix : List Nat) (v : Word) : (s.setStagedW r ix v).grants = s.grants := rfl
@[simp] theorem State.setStagedW_chanLoad (s : State) (r : RegName) (ix : List Nat) (v : Word) : (s.setStagedW r ix v).chanLoad = s.chanLoad := rfl
@[simp] theorem State.setStagedW_trayLoad (s : State) (r : RegName) (ix : List Nat) (v : Word) : (s.setStagedW r ix v).trayLoad = s.trayLoad := rfl
@[simp] theorem State.setStagedW_scrubs (s : State) (r : RegName) (ix : List Nat) (v : Word) : (s.setStagedW r ix v).scrubs = s.scrubs := rfl
@[simp] theorem State.setStagedW_winStart (s : State) (r : RegName) (ix : List Nat) (v : Word) : (s.setStagedW r ix v).winStart = s.winStart := rfl
@[simp] theorem State.setStagedW_imbC (s : State) (r : RegName) (ix : List Nat) (v : Word) : (s.setStagedW r ix v).imbC = s.imbC := rfl
@[simp] theorem State.setStagedW_imbT (s : State) (r : RegName) (ix : List Nat) (v : Word) : (s.setStagedW r ix v).imbT = s.imbT := rfl
@[simp] theorem State.setStagedW_crashed (s : State) (r : RegName) (ix : List Nat) (v : Word) : (s.setStagedW r ix v).crashed = s.crashed := rfl
@[simp] theorem State.setStagedW_viral (s : State) (r : RegName) (ix : List Nat) (v : Word) : (s.setStagedW r ix v).viral = s.viral := rfl
@[simp] theorem State.setStagedW_devq (s : State) (r : RegName) (ix : List Nat) (v : Word) : (s.setStagedW r ix v).devq = s.devq := rfl
@[simp] theorem State.setStagedW_devFault (s : State) (r : RegName) (ix : List Nat) (v : Word) : (s.setStagedW r ix v).devFault = s.devFault := rfl
@[simp] theorem State.setStagedW_teardowns (s : State) (r : RegName) (ix : List Nat) (v : Word) : (s.setStagedW r ix v).teardowns = s.teardowns := rfl
@[simp] theorem State.setStagedW_devResetDue (s : State) (r : RegName) (ix : List Nat) (v : Word) : (s.setStagedW r ix v).devResetDue = s.devResetDue := rfl
@[simp] theorem State.setStagedW_pwr (s : State) (r : RegName) (ix : List Nat) (v : Word) : (s.setStagedW r ix v).pwr = s.pwr := rfl
@[simp] theorem State.setStagedW_clk (s : State) (r : RegName) (ix : List Nat) (v : Word) : (s.setStagedW r ix v).clk = s.clk := rfl
@[simp] theorem State.setStagedW_pilot (s : State) (r : RegName) (ix : List Nat) (v : Word) : (s.setStagedW r ix v).pilot = s.pilot := rfl
@[simp] theorem State.setStagedW_link (s : State) (r : RegName) (ix : List Nat) (v : Word) : (s.setStagedW r ix v).link = s.link := rfl
@[simp] theorem State.setStagedW_anchors (s : State) (r : RegName) (ix : List Nat) (v : Word) : (s.setStagedW r ix v).anchors = s.anchors := rfl
@[simp] theorem State.setStagedW_nv (s : State) (r : RegName) (ix : List Nat) (v : Word) : (s.setStagedW r ix v).nv = s.nv := rfl
@[simp] theorem State.setStagedW_running (s : State) (r : RegName) (ix : List Nat) (v : Word) : (s.setStagedW r ix v).running = s.running := rfl
@[simp] theorem State.setStagedW_island (s : State) (r : RegName) (ix : List Nat) (v : Word) : (s.setStagedW r ix v).island = s.island := rfl
@[simp] theorem State.setStagedW_kdRec (s : State) (r : RegName) (ix : List Nat) (v : Word) : (s.setStagedW r ix v).kdRec = s.kdRec := rfl
@[simp] theorem State.setStagedW_kdStaged (s : State) (r : RegName) (ix : List Nat) (v : Word) : (s.setStagedW r ix v).kdStaged = s.kdStaged := rfl
@[simp] theorem State.setStagedW_tenantKeys (s : State) (r : RegName) (ix : List Nat) (v : Word) : (s.setStagedW r ix v).tenantKeys = s.tenantKeys := rfl
@[simp] theorem State.setStagedW_manHash (s : State) (r : RegName) (ix : List Nat) (v : Word) : (s.setStagedW r ix v).manHash = s.manHash := rfl
@[simp] theorem State.setStagedW_ev (s : State) (r : RegName) (ix : List Nat) (v : Word) : (s.setStagedW r ix v).ev = s.ev := rfl
@[simp] theorem State.setStagedW_mgmt (s : State) (r : RegName) (ix : List Nat) (v : Word) : (s.setStagedW r ix v).mgmt = s.mgmt := rfl
@[simp] theorem State.setStagedW_tap (s : State) (r : RegName) (ix : List Nat) (v : Word) : (s.setStagedW r ix v).tap = s.tap := rfl
@[simp] theorem State.setStagedW_mir (s : State) (r : RegName) (ix : List Nat) (v : Word) : (s.setStagedW r ix v).mir = s.mir := rfl
@[simp] theorem State.setStagedW_views (s : State) (r : RegName) (ix : List Nat) (v : Word) : (s.setStagedW r ix v).views = s.views := rfl
@[simp] theorem State.setStagedW_out (s : State) (r : RegName) (ix : List Nat) (v : Word) : (s.setStagedW r ix v).out = s.out := rfl

/-! ### modPart -/

@[simp] theorem State.modPart_pending (s : State) (p : Nat) (f : Part → Part) : (s.modPart p f).pending = s.pending := rfl
@[simp] theorem State.modPart_regs (s : State) (p : Nat) (f : Part → Part) : (s.modPart p f).regs = s.regs := rfl
@[simp] theorem State.modPart_staged (s : State) (p : Nat) (f : Part → Part) : (s.modPart p f).staged = s.staged := rfl
@[simp] theorem State.modPart_sl (s : State) (p : Nat) (f : Part → Part) : (s.modPart p f).sl = s.sl := rfl
@[simp] theorem State.modPart_now (s : State) (p : Nat) (f : Part → Part) : (s.modPart p f).now = s.now := rfl
@[simp] theorem State.modPart_rng (s : State) (p : Nat) (f : Part → Part) : (s.modPart p f).rng = s.rng := rfl
@[simp] theorem State.modPart_nextId (s : State) (p : Nat) (f : Part → Part) : (s.modPart p f).nextId = s.nextId := rfl
@[simp] theorem State.modPart_ctxs (s : State) (p : Nat) (f : Part → Part) : (s.modPart p f).ctxs = s.ctxs := rfl
@[simp] theorem State.modPart_ctxGens (s : State) (p : Nat) (f : Part → Part) : (s.modPart p f).ctxGens = s.ctxGens := rfl
@[simp] theorem State.modPart_moons (s : State) (p : Nat) (f : Part → Part) : (s.modPart p f).moons = s.moons := rfl
@[simp] theorem State.modPart_objs (s : State) (p : Nat) (f : Part → Part) : (s.modPart p f).objs = s.objs := rfl
@[simp] theorem State.modPart_placeKey (s : State) (p : Nat) (f : Part → Part) : (s.modPart p f).placeKey = s.placeKey := rfl
@[simp] theorem State.modPart_tagGen (s : State) (p : Nat) (f : Part → Part) : (s.modPart p f).tagGen = s.tagGen := rfl
@[simp] theorem State.modPart_ownPbr (s : State) (p : Nat) (f : Part → Part) : (s.modPart p f).ownPbr = s.ownPbr := rfl
@[simp] theorem State.modPart_qps (s : State) (p : Nat) (f : Part → Part) : (s.modPart p f).qps = s.qps := rfl
@[simp] theorem State.modPart_own (s : State) (p : Nat) (f : Part → Part) : (s.modPart p f).own = s.own := rfl
@[simp] theorem State.modPart_reqs (s : State) (p : Nat) (f : Part → Part) : (s.modPart p f).reqs = s.reqs := rfl
@[simp] theorem State.modPart_nmes (s : State) (p : Nat) (f : Part → Part) : (s.modPart p f).nmes = s.nmes := rfl
@[simp] theorem State.modPart_fills (s : State) (p : Nat) (f : Part → Part) : (s.modPart p f).fills = s.fills := rfl
@[simp] theorem State.modPart_dir (s : State) (p : Nat) (f : Part → Part) : (s.modPart p f).dir = s.dir := rfl
@[simp] theorem State.modPart_snoops (s : State) (p : Nat) (f : Part → Part) : (s.modPart p f).snoops = s.snoops := rfl
@[simp] theorem State.modPart_hot (s : State) (p : Nat) (f : Part → Part) : (s.modPart p f).hot = s.hot := rfl
@[simp] theorem State.modPart_accs (s : State) (p : Nat) (f : Part → Part) : (s.modPart p f).accs = s.accs := rfl
@[simp] theorem State.modPart_xin (s : State) (p : Nat) (f : Part → Part) : (s.modPart p f).xin = s.xin := rfl
@[simp] theorem State.modPart_shares (s : State) (p : Nat) (f : Part → Part) : (s.modPart p f).shares = s.shares := rfl
@[simp] theorem State.modPart_buckets (s : State) (p : Nat) (f : Part → Part) : (s.modPart p f).buckets = s.buckets := rfl
@[simp] theorem State.modPart_chargeRest (s : State) (p : Nat) (f : Part → Part) : (s.modPart p f).chargeRest = s.chargeRest := rfl
@[simp] theorem State.modPart_spillWrites (s : State) (p : Nat) (f : Part → Part) : (s.modPart p f).spillWrites = s.spillWrites := rfl
@[simp] theorem State.modPart_spillKey (s : State) (p : Nat) (f : Part → Part) : (s.modPart p f).spillKey = s.spillKey := rfl
@[simp] theorem State.modPart_rsp (s : State) (p : Nat) (f : Part → Part) : (s.modPart p f).rsp = s.rsp := rfl
@[simp] theorem State.modPart_grants (s : State) (p : Nat) (f : Part → Part) : (s.modPart p f).grants = s.grants := rfl
@[simp] theorem State.modPart_chanLoad (s : State) (p : Nat) (f : Part → Part) : (s.modPart p f).chanLoad = s.chanLoad := rfl
@[simp] theorem State.modPart_trayLoad (s : State) (p : Nat) (f : Part → Part) : (s.modPart p f).trayLoad = s.trayLoad := rfl
@[simp] theorem State.modPart_scrubs (s : State) (p : Nat) (f : Part → Part) : (s.modPart p f).scrubs = s.scrubs := rfl
@[simp] theorem State.modPart_winStart (s : State) (p : Nat) (f : Part → Part) : (s.modPart p f).winStart = s.winStart := rfl
@[simp] theorem State.modPart_imbC (s : State) (p : Nat) (f : Part → Part) : (s.modPart p f).imbC = s.imbC := rfl
@[simp] theorem State.modPart_imbT (s : State) (p : Nat) (f : Part → Part) : (s.modPart p f).imbT = s.imbT := rfl
@[simp] theorem State.modPart_crashed (s : State) (p : Nat) (f : Part → Part) : (s.modPart p f).crashed = s.crashed := rfl
@[simp] theorem State.modPart_viral (s : State) (p : Nat) (f : Part → Part) : (s.modPart p f).viral = s.viral := rfl
@[simp] theorem State.modPart_devq (s : State) (p : Nat) (f : Part → Part) : (s.modPart p f).devq = s.devq := rfl
@[simp] theorem State.modPart_devFault (s : State) (p : Nat) (f : Part → Part) : (s.modPart p f).devFault = s.devFault := rfl
@[simp] theorem State.modPart_teardowns (s : State) (p : Nat) (f : Part → Part) : (s.modPart p f).teardowns = s.teardowns := rfl
@[simp] theorem State.modPart_devResetDue (s : State) (p : Nat) (f : Part → Part) : (s.modPart p f).devResetDue = s.devResetDue := rfl
@[simp] theorem State.modPart_pwr (s : State) (p : Nat) (f : Part → Part) : (s.modPart p f).pwr = s.pwr := rfl
@[simp] theorem State.modPart_clk (s : State) (p : Nat) (f : Part → Part) : (s.modPart p f).clk = s.clk := rfl
@[simp] theorem State.modPart_pilot (s : State) (p : Nat) (f : Part → Part) : (s.modPart p f).pilot = s.pilot := rfl
@[simp] theorem State.modPart_link (s : State) (p : Nat) (f : Part → Part) : (s.modPart p f).link = s.link := rfl
@[simp] theorem State.modPart_anchors (s : State) (p : Nat) (f : Part → Part) : (s.modPart p f).anchors = s.anchors := rfl
@[simp] theorem State.modPart_nv (s : State) (p : Nat) (f : Part → Part) : (s.modPart p f).nv = s.nv := rfl
@[simp] theorem State.modPart_running (s : State) (p : Nat) (f : Part → Part) : (s.modPart p f).running = s.running := rfl
@[simp] theorem State.modPart_island (s : State) (p : Nat) (f : Part → Part) : (s.modPart p f).island = s.island := rfl
@[simp] theorem State.modPart_kdRec (s : State) (p : Nat) (f : Part → Part) : (s.modPart p f).kdRec = s.kdRec := rfl
@[simp] theorem State.modPart_kdStaged (s : State) (p : Nat) (f : Part → Part) : (s.modPart p f).kdStaged = s.kdStaged := rfl
@[simp] theorem State.modPart_tenantKeys (s : State) (p : Nat) (f : Part → Part) : (s.modPart p f).tenantKeys = s.tenantKeys := rfl
@[simp] theorem State.modPart_manHash (s : State) (p : Nat) (f : Part → Part) : (s.modPart p f).manHash = s.manHash := rfl
@[simp] theorem State.modPart_ev (s : State) (p : Nat) (f : Part → Part) : (s.modPart p f).ev = s.ev := rfl
@[simp] theorem State.modPart_mgmt (s : State) (p : Nat) (f : Part → Part) : (s.modPart p f).mgmt = s.mgmt := rfl
@[simp] theorem State.modPart_tap (s : State) (p : Nat) (f : Part → Part) : (s.modPart p f).tap = s.tap := rfl
@[simp] theorem State.modPart_mir (s : State) (p : Nat) (f : Part → Part) : (s.modPart p f).mir = s.mir := rfl
@[simp] theorem State.modPart_views (s : State) (p : Nat) (f : Part → Part) : (s.modPart p f).views = s.views := rfl
@[simp] theorem State.modPart_out (s : State) (p : Nat) (f : Part → Part) : (s.modPart p f).out = s.out := rfl

/-! ### modQp -/

@[simp] theorem State.modQp_pending (s : State) (q : Nat) (f : Qp → Qp) : (s.modQp q f).pending = s.pending := rfl
@[simp] theorem State.modQp_regs (s : State) (q : Nat) (f : Qp → Qp) : (s.modQp q f).regs = s.regs := rfl
@[simp] theorem State.modQp_staged (s : State) (q : Nat) (f : Qp → Qp) : (s.modQp q f).staged = s.staged := rfl
@[simp] theorem State.modQp_sl (s : State) (q : Nat) (f : Qp → Qp) : (s.modQp q f).sl = s.sl := rfl
@[simp] theorem State.modQp_now (s : State) (q : Nat) (f : Qp → Qp) : (s.modQp q f).now = s.now := rfl
@[simp] theorem State.modQp_rng (s : State) (q : Nat) (f : Qp → Qp) : (s.modQp q f).rng = s.rng := rfl
@[simp] theorem State.modQp_nextId (s : State) (q : Nat) (f : Qp → Qp) : (s.modQp q f).nextId = s.nextId := rfl
@[simp] theorem State.modQp_ctxs (s : State) (q : Nat) (f : Qp → Qp) : (s.modQp q f).ctxs = s.ctxs := rfl
@[simp] theorem State.modQp_ctxGens (s : State) (q : Nat) (f : Qp → Qp) : (s.modQp q f).ctxGens = s.ctxGens := rfl
@[simp] theorem State.modQp_moons (s : State) (q : Nat) (f : Qp → Qp) : (s.modQp q f).moons = s.moons := rfl
@[simp] theorem State.modQp_objs (s : State) (q : Nat) (f : Qp → Qp) : (s.modQp q f).objs = s.objs := rfl
@[simp] theorem State.modQp_placeKey (s : State) (q : Nat) (f : Qp → Qp) : (s.modQp q f).placeKey = s.placeKey := rfl
@[simp] theorem State.modQp_tagGen (s : State) (q : Nat) (f : Qp → Qp) : (s.modQp q f).tagGen = s.tagGen := rfl
@[simp] theorem State.modQp_ownPbr (s : State) (q : Nat) (f : Qp → Qp) : (s.modQp q f).ownPbr = s.ownPbr := rfl
@[simp] theorem State.modQp_parts (s : State) (q : Nat) (f : Qp → Qp) : (s.modQp q f).parts = s.parts := rfl
@[simp] theorem State.modQp_own (s : State) (q : Nat) (f : Qp → Qp) : (s.modQp q f).own = s.own := rfl
@[simp] theorem State.modQp_reqs (s : State) (q : Nat) (f : Qp → Qp) : (s.modQp q f).reqs = s.reqs := rfl
@[simp] theorem State.modQp_nmes (s : State) (q : Nat) (f : Qp → Qp) : (s.modQp q f).nmes = s.nmes := rfl
@[simp] theorem State.modQp_fills (s : State) (q : Nat) (f : Qp → Qp) : (s.modQp q f).fills = s.fills := rfl
@[simp] theorem State.modQp_dir (s : State) (q : Nat) (f : Qp → Qp) : (s.modQp q f).dir = s.dir := rfl
@[simp] theorem State.modQp_snoops (s : State) (q : Nat) (f : Qp → Qp) : (s.modQp q f).snoops = s.snoops := rfl
@[simp] theorem State.modQp_hot (s : State) (q : Nat) (f : Qp → Qp) : (s.modQp q f).hot = s.hot := rfl
@[simp] theorem State.modQp_accs (s : State) (q : Nat) (f : Qp → Qp) : (s.modQp q f).accs = s.accs := rfl
@[simp] theorem State.modQp_xin (s : State) (q : Nat) (f : Qp → Qp) : (s.modQp q f).xin = s.xin := rfl
@[simp] theorem State.modQp_shares (s : State) (q : Nat) (f : Qp → Qp) : (s.modQp q f).shares = s.shares := rfl
@[simp] theorem State.modQp_buckets (s : State) (q : Nat) (f : Qp → Qp) : (s.modQp q f).buckets = s.buckets := rfl
@[simp] theorem State.modQp_chargeRest (s : State) (q : Nat) (f : Qp → Qp) : (s.modQp q f).chargeRest = s.chargeRest := rfl
@[simp] theorem State.modQp_spillWrites (s : State) (q : Nat) (f : Qp → Qp) : (s.modQp q f).spillWrites = s.spillWrites := rfl
@[simp] theorem State.modQp_spillKey (s : State) (q : Nat) (f : Qp → Qp) : (s.modQp q f).spillKey = s.spillKey := rfl
@[simp] theorem State.modQp_rsp (s : State) (q : Nat) (f : Qp → Qp) : (s.modQp q f).rsp = s.rsp := rfl
@[simp] theorem State.modQp_grants (s : State) (q : Nat) (f : Qp → Qp) : (s.modQp q f).grants = s.grants := rfl
@[simp] theorem State.modQp_chanLoad (s : State) (q : Nat) (f : Qp → Qp) : (s.modQp q f).chanLoad = s.chanLoad := rfl
@[simp] theorem State.modQp_trayLoad (s : State) (q : Nat) (f : Qp → Qp) : (s.modQp q f).trayLoad = s.trayLoad := rfl
@[simp] theorem State.modQp_scrubs (s : State) (q : Nat) (f : Qp → Qp) : (s.modQp q f).scrubs = s.scrubs := rfl
@[simp] theorem State.modQp_winStart (s : State) (q : Nat) (f : Qp → Qp) : (s.modQp q f).winStart = s.winStart := rfl
@[simp] theorem State.modQp_imbC (s : State) (q : Nat) (f : Qp → Qp) : (s.modQp q f).imbC = s.imbC := rfl
@[simp] theorem State.modQp_imbT (s : State) (q : Nat) (f : Qp → Qp) : (s.modQp q f).imbT = s.imbT := rfl
@[simp] theorem State.modQp_crashed (s : State) (q : Nat) (f : Qp → Qp) : (s.modQp q f).crashed = s.crashed := rfl
@[simp] theorem State.modQp_viral (s : State) (q : Nat) (f : Qp → Qp) : (s.modQp q f).viral = s.viral := rfl
@[simp] theorem State.modQp_devq (s : State) (q : Nat) (f : Qp → Qp) : (s.modQp q f).devq = s.devq := rfl
@[simp] theorem State.modQp_devFault (s : State) (q : Nat) (f : Qp → Qp) : (s.modQp q f).devFault = s.devFault := rfl
@[simp] theorem State.modQp_teardowns (s : State) (q : Nat) (f : Qp → Qp) : (s.modQp q f).teardowns = s.teardowns := rfl
@[simp] theorem State.modQp_devResetDue (s : State) (q : Nat) (f : Qp → Qp) : (s.modQp q f).devResetDue = s.devResetDue := rfl
@[simp] theorem State.modQp_pwr (s : State) (q : Nat) (f : Qp → Qp) : (s.modQp q f).pwr = s.pwr := rfl
@[simp] theorem State.modQp_clk (s : State) (q : Nat) (f : Qp → Qp) : (s.modQp q f).clk = s.clk := rfl
@[simp] theorem State.modQp_pilot (s : State) (q : Nat) (f : Qp → Qp) : (s.modQp q f).pilot = s.pilot := rfl
@[simp] theorem State.modQp_link (s : State) (q : Nat) (f : Qp → Qp) : (s.modQp q f).link = s.link := rfl
@[simp] theorem State.modQp_anchors (s : State) (q : Nat) (f : Qp → Qp) : (s.modQp q f).anchors = s.anchors := rfl
@[simp] theorem State.modQp_nv (s : State) (q : Nat) (f : Qp → Qp) : (s.modQp q f).nv = s.nv := rfl
@[simp] theorem State.modQp_running (s : State) (q : Nat) (f : Qp → Qp) : (s.modQp q f).running = s.running := rfl
@[simp] theorem State.modQp_island (s : State) (q : Nat) (f : Qp → Qp) : (s.modQp q f).island = s.island := rfl
@[simp] theorem State.modQp_kdRec (s : State) (q : Nat) (f : Qp → Qp) : (s.modQp q f).kdRec = s.kdRec := rfl
@[simp] theorem State.modQp_kdStaged (s : State) (q : Nat) (f : Qp → Qp) : (s.modQp q f).kdStaged = s.kdStaged := rfl
@[simp] theorem State.modQp_tenantKeys (s : State) (q : Nat) (f : Qp → Qp) : (s.modQp q f).tenantKeys = s.tenantKeys := rfl
@[simp] theorem State.modQp_manHash (s : State) (q : Nat) (f : Qp → Qp) : (s.modQp q f).manHash = s.manHash := rfl
@[simp] theorem State.modQp_ev (s : State) (q : Nat) (f : Qp → Qp) : (s.modQp q f).ev = s.ev := rfl
@[simp] theorem State.modQp_mgmt (s : State) (q : Nat) (f : Qp → Qp) : (s.modQp q f).mgmt = s.mgmt := rfl
@[simp] theorem State.modQp_tap (s : State) (q : Nat) (f : Qp → Qp) : (s.modQp q f).tap = s.tap := rfl
@[simp] theorem State.modQp_mir (s : State) (q : Nat) (f : Qp → Qp) : (s.modQp q f).mir = s.mir := rfl
@[simp] theorem State.modQp_views (s : State) (q : Nat) (f : Qp → Qp) : (s.modQp q f).views = s.views := rfl
@[simp] theorem State.modQp_out (s : State) (q : Nat) (f : Qp → Qp) : (s.modQp q f).out = s.out := rfl

/-! ### modMoon -/

@[simp] theorem State.modMoon_pending (s : State) (m : Nat) (f : Moon → Moon) : (s.modMoon m f).pending = s.pending := rfl
@[simp] theorem State.modMoon_regs (s : State) (m : Nat) (f : Moon → Moon) : (s.modMoon m f).regs = s.regs := rfl
@[simp] theorem State.modMoon_staged (s : State) (m : Nat) (f : Moon → Moon) : (s.modMoon m f).staged = s.staged := rfl
@[simp] theorem State.modMoon_sl (s : State) (m : Nat) (f : Moon → Moon) : (s.modMoon m f).sl = s.sl := rfl
@[simp] theorem State.modMoon_now (s : State) (m : Nat) (f : Moon → Moon) : (s.modMoon m f).now = s.now := rfl
@[simp] theorem State.modMoon_rng (s : State) (m : Nat) (f : Moon → Moon) : (s.modMoon m f).rng = s.rng := rfl
@[simp] theorem State.modMoon_nextId (s : State) (m : Nat) (f : Moon → Moon) : (s.modMoon m f).nextId = s.nextId := rfl
@[simp] theorem State.modMoon_ctxs (s : State) (m : Nat) (f : Moon → Moon) : (s.modMoon m f).ctxs = s.ctxs := rfl
@[simp] theorem State.modMoon_ctxGens (s : State) (m : Nat) (f : Moon → Moon) : (s.modMoon m f).ctxGens = s.ctxGens := rfl
@[simp] theorem State.modMoon_objs (s : State) (m : Nat) (f : Moon → Moon) : (s.modMoon m f).objs = s.objs := rfl
@[simp] theorem State.modMoon_placeKey (s : State) (m : Nat) (f : Moon → Moon) : (s.modMoon m f).placeKey = s.placeKey := rfl
@[simp] theorem State.modMoon_tagGen (s : State) (m : Nat) (f : Moon → Moon) : (s.modMoon m f).tagGen = s.tagGen := rfl
@[simp] theorem State.modMoon_ownPbr (s : State) (m : Nat) (f : Moon → Moon) : (s.modMoon m f).ownPbr = s.ownPbr := rfl
@[simp] theorem State.modMoon_parts (s : State) (m : Nat) (f : Moon → Moon) : (s.modMoon m f).parts = s.parts := rfl
@[simp] theorem State.modMoon_qps (s : State) (m : Nat) (f : Moon → Moon) : (s.modMoon m f).qps = s.qps := rfl
@[simp] theorem State.modMoon_own (s : State) (m : Nat) (f : Moon → Moon) : (s.modMoon m f).own = s.own := rfl
@[simp] theorem State.modMoon_reqs (s : State) (m : Nat) (f : Moon → Moon) : (s.modMoon m f).reqs = s.reqs := rfl
@[simp] theorem State.modMoon_nmes (s : State) (m : Nat) (f : Moon → Moon) : (s.modMoon m f).nmes = s.nmes := rfl
@[simp] theorem State.modMoon_fills (s : State) (m : Nat) (f : Moon → Moon) : (s.modMoon m f).fills = s.fills := rfl
@[simp] theorem State.modMoon_dir (s : State) (m : Nat) (f : Moon → Moon) : (s.modMoon m f).dir = s.dir := rfl
@[simp] theorem State.modMoon_snoops (s : State) (m : Nat) (f : Moon → Moon) : (s.modMoon m f).snoops = s.snoops := rfl
@[simp] theorem State.modMoon_hot (s : State) (m : Nat) (f : Moon → Moon) : (s.modMoon m f).hot = s.hot := rfl
@[simp] theorem State.modMoon_accs (s : State) (m : Nat) (f : Moon → Moon) : (s.modMoon m f).accs = s.accs := rfl
@[simp] theorem State.modMoon_xin (s : State) (m : Nat) (f : Moon → Moon) : (s.modMoon m f).xin = s.xin := rfl
@[simp] theorem State.modMoon_shares (s : State) (m : Nat) (f : Moon → Moon) : (s.modMoon m f).shares = s.shares := rfl
@[simp] theorem State.modMoon_buckets (s : State) (m : Nat) (f : Moon → Moon) : (s.modMoon m f).buckets = s.buckets := rfl
@[simp] theorem State.modMoon_chargeRest (s : State) (m : Nat) (f : Moon → Moon) : (s.modMoon m f).chargeRest = s.chargeRest := rfl
@[simp] theorem State.modMoon_spillWrites (s : State) (m : Nat) (f : Moon → Moon) : (s.modMoon m f).spillWrites = s.spillWrites := rfl
@[simp] theorem State.modMoon_spillKey (s : State) (m : Nat) (f : Moon → Moon) : (s.modMoon m f).spillKey = s.spillKey := rfl
@[simp] theorem State.modMoon_rsp (s : State) (m : Nat) (f : Moon → Moon) : (s.modMoon m f).rsp = s.rsp := rfl
@[simp] theorem State.modMoon_grants (s : State) (m : Nat) (f : Moon → Moon) : (s.modMoon m f).grants = s.grants := rfl
@[simp] theorem State.modMoon_chanLoad (s : State) (m : Nat) (f : Moon → Moon) : (s.modMoon m f).chanLoad = s.chanLoad := rfl
@[simp] theorem State.modMoon_trayLoad (s : State) (m : Nat) (f : Moon → Moon) : (s.modMoon m f).trayLoad = s.trayLoad := rfl
@[simp] theorem State.modMoon_scrubs (s : State) (m : Nat) (f : Moon → Moon) : (s.modMoon m f).scrubs = s.scrubs := rfl
@[simp] theorem State.modMoon_winStart (s : State) (m : Nat) (f : Moon → Moon) : (s.modMoon m f).winStart = s.winStart := rfl
@[simp] theorem State.modMoon_imbC (s : State) (m : Nat) (f : Moon → Moon) : (s.modMoon m f).imbC = s.imbC := rfl
@[simp] theorem State.modMoon_imbT (s : State) (m : Nat) (f : Moon → Moon) : (s.modMoon m f).imbT = s.imbT := rfl
@[simp] theorem State.modMoon_crashed (s : State) (m : Nat) (f : Moon → Moon) : (s.modMoon m f).crashed = s.crashed := rfl
@[simp] theorem State.modMoon_viral (s : State) (m : Nat) (f : Moon → Moon) : (s.modMoon m f).viral = s.viral := rfl
@[simp] theorem State.modMoon_devq (s : State) (m : Nat) (f : Moon → Moon) : (s.modMoon m f).devq = s.devq := rfl
@[simp] theorem State.modMoon_devFault (s : State) (m : Nat) (f : Moon → Moon) : (s.modMoon m f).devFault = s.devFault := rfl
@[simp] theorem State.modMoon_teardowns (s : State) (m : Nat) (f : Moon → Moon) : (s.modMoon m f).teardowns = s.teardowns := rfl
@[simp] theorem State.modMoon_devResetDue (s : State) (m : Nat) (f : Moon → Moon) : (s.modMoon m f).devResetDue = s.devResetDue := rfl
@[simp] theorem State.modMoon_pwr (s : State) (m : Nat) (f : Moon → Moon) : (s.modMoon m f).pwr = s.pwr := rfl
@[simp] theorem State.modMoon_clk (s : State) (m : Nat) (f : Moon → Moon) : (s.modMoon m f).clk = s.clk := rfl
@[simp] theorem State.modMoon_pilot (s : State) (m : Nat) (f : Moon → Moon) : (s.modMoon m f).pilot = s.pilot := rfl
@[simp] theorem State.modMoon_link (s : State) (m : Nat) (f : Moon → Moon) : (s.modMoon m f).link = s.link := rfl
@[simp] theorem State.modMoon_anchors (s : State) (m : Nat) (f : Moon → Moon) : (s.modMoon m f).anchors = s.anchors := rfl
@[simp] theorem State.modMoon_nv (s : State) (m : Nat) (f : Moon → Moon) : (s.modMoon m f).nv = s.nv := rfl
@[simp] theorem State.modMoon_running (s : State) (m : Nat) (f : Moon → Moon) : (s.modMoon m f).running = s.running := rfl
@[simp] theorem State.modMoon_island (s : State) (m : Nat) (f : Moon → Moon) : (s.modMoon m f).island = s.island := rfl
@[simp] theorem State.modMoon_kdRec (s : State) (m : Nat) (f : Moon → Moon) : (s.modMoon m f).kdRec = s.kdRec := rfl
@[simp] theorem State.modMoon_kdStaged (s : State) (m : Nat) (f : Moon → Moon) : (s.modMoon m f).kdStaged = s.kdStaged := rfl
@[simp] theorem State.modMoon_tenantKeys (s : State) (m : Nat) (f : Moon → Moon) : (s.modMoon m f).tenantKeys = s.tenantKeys := rfl
@[simp] theorem State.modMoon_manHash (s : State) (m : Nat) (f : Moon → Moon) : (s.modMoon m f).manHash = s.manHash := rfl
@[simp] theorem State.modMoon_ev (s : State) (m : Nat) (f : Moon → Moon) : (s.modMoon m f).ev = s.ev := rfl
@[simp] theorem State.modMoon_mgmt (s : State) (m : Nat) (f : Moon → Moon) : (s.modMoon m f).mgmt = s.mgmt := rfl
@[simp] theorem State.modMoon_tap (s : State) (m : Nat) (f : Moon → Moon) : (s.modMoon m f).tap = s.tap := rfl
@[simp] theorem State.modMoon_mir (s : State) (m : Nat) (f : Moon → Moon) : (s.modMoon m f).mir = s.mir := rfl
@[simp] theorem State.modMoon_views (s : State) (m : Nat) (f : Moon → Moon) : (s.modMoon m f).views = s.views := rfl
@[simp] theorem State.modMoon_out (s : State) (m : Nat) (f : Moon → Moon) : (s.modMoon m f).out = s.out := rfl

/-! ### setCtx -/

@[simp] theorem State.setCtx_pending (s : State) (c : Nat) (x : Ctx) : (s.setCtx c x).pending = s.pending := rfl
@[simp] theorem State.setCtx_regs (s : State) (c : Nat) (x : Ctx) : (s.setCtx c x).regs = s.regs := rfl
@[simp] theorem State.setCtx_staged (s : State) (c : Nat) (x : Ctx) : (s.setCtx c x).staged = s.staged := rfl
@[simp] theorem State.setCtx_sl (s : State) (c : Nat) (x : Ctx) : (s.setCtx c x).sl = s.sl := rfl
@[simp] theorem State.setCtx_now (s : State) (c : Nat) (x : Ctx) : (s.setCtx c x).now = s.now := rfl
@[simp] theorem State.setCtx_rng (s : State) (c : Nat) (x : Ctx) : (s.setCtx c x).rng = s.rng := rfl
@[simp] theorem State.setCtx_nextId (s : State) (c : Nat) (x : Ctx) : (s.setCtx c x).nextId = s.nextId := rfl
@[simp] theorem State.setCtx_ctxGens (s : State) (c : Nat) (x : Ctx) : (s.setCtx c x).ctxGens = s.ctxGens := rfl
@[simp] theorem State.setCtx_moons (s : State) (c : Nat) (x : Ctx) : (s.setCtx c x).moons = s.moons := rfl
@[simp] theorem State.setCtx_objs (s : State) (c : Nat) (x : Ctx) : (s.setCtx c x).objs = s.objs := rfl
@[simp] theorem State.setCtx_placeKey (s : State) (c : Nat) (x : Ctx) : (s.setCtx c x).placeKey = s.placeKey := rfl
@[simp] theorem State.setCtx_tagGen (s : State) (c : Nat) (x : Ctx) : (s.setCtx c x).tagGen = s.tagGen := rfl
@[simp] theorem State.setCtx_ownPbr (s : State) (c : Nat) (x : Ctx) : (s.setCtx c x).ownPbr = s.ownPbr := rfl
@[simp] theorem State.setCtx_parts (s : State) (c : Nat) (x : Ctx) : (s.setCtx c x).parts = s.parts := rfl
@[simp] theorem State.setCtx_qps (s : State) (c : Nat) (x : Ctx) : (s.setCtx c x).qps = s.qps := rfl
@[simp] theorem State.setCtx_own (s : State) (c : Nat) (x : Ctx) : (s.setCtx c x).own = s.own := rfl
@[simp] theorem State.setCtx_reqs (s : State) (c : Nat) (x : Ctx) : (s.setCtx c x).reqs = s.reqs := rfl
@[simp] theorem State.setCtx_nmes (s : State) (c : Nat) (x : Ctx) : (s.setCtx c x).nmes = s.nmes := rfl
@[simp] theorem State.setCtx_fills (s : State) (c : Nat) (x : Ctx) : (s.setCtx c x).fills = s.fills := rfl
@[simp] theorem State.setCtx_dir (s : State) (c : Nat) (x : Ctx) : (s.setCtx c x).dir = s.dir := rfl
@[simp] theorem State.setCtx_snoops (s : State) (c : Nat) (x : Ctx) : (s.setCtx c x).snoops = s.snoops := rfl
@[simp] theorem State.setCtx_hot (s : State) (c : Nat) (x : Ctx) : (s.setCtx c x).hot = s.hot := rfl
@[simp] theorem State.setCtx_accs (s : State) (c : Nat) (x : Ctx) : (s.setCtx c x).accs = s.accs := rfl
@[simp] theorem State.setCtx_xin (s : State) (c : Nat) (x : Ctx) : (s.setCtx c x).xin = s.xin := rfl
@[simp] theorem State.setCtx_shares (s : State) (c : Nat) (x : Ctx) : (s.setCtx c x).shares = s.shares := rfl
@[simp] theorem State.setCtx_buckets (s : State) (c : Nat) (x : Ctx) : (s.setCtx c x).buckets = s.buckets := rfl
@[simp] theorem State.setCtx_chargeRest (s : State) (c : Nat) (x : Ctx) : (s.setCtx c x).chargeRest = s.chargeRest := rfl
@[simp] theorem State.setCtx_spillWrites (s : State) (c : Nat) (x : Ctx) : (s.setCtx c x).spillWrites = s.spillWrites := rfl
@[simp] theorem State.setCtx_spillKey (s : State) (c : Nat) (x : Ctx) : (s.setCtx c x).spillKey = s.spillKey := rfl
@[simp] theorem State.setCtx_rsp (s : State) (c : Nat) (x : Ctx) : (s.setCtx c x).rsp = s.rsp := rfl
@[simp] theorem State.setCtx_grants (s : State) (c : Nat) (x : Ctx) : (s.setCtx c x).grants = s.grants := rfl
@[simp] theorem State.setCtx_chanLoad (s : State) (c : Nat) (x : Ctx) : (s.setCtx c x).chanLoad = s.chanLoad := rfl
@[simp] theorem State.setCtx_trayLoad (s : State) (c : Nat) (x : Ctx) : (s.setCtx c x).trayLoad = s.trayLoad := rfl
@[simp] theorem State.setCtx_scrubs (s : State) (c : Nat) (x : Ctx) : (s.setCtx c x).scrubs = s.scrubs := rfl
@[simp] theorem State.setCtx_winStart (s : State) (c : Nat) (x : Ctx) : (s.setCtx c x).winStart = s.winStart := rfl
@[simp] theorem State.setCtx_imbC (s : State) (c : Nat) (x : Ctx) : (s.setCtx c x).imbC = s.imbC := rfl
@[simp] theorem State.setCtx_imbT (s : State) (c : Nat) (x : Ctx) : (s.setCtx c x).imbT = s.imbT := rfl
@[simp] theorem State.setCtx_crashed (s : State) (c : Nat) (x : Ctx) : (s.setCtx c x).crashed = s.crashed := rfl
@[simp] theorem State.setCtx_viral (s : State) (c : Nat) (x : Ctx) : (s.setCtx c x).viral = s.viral := rfl
@[simp] theorem State.setCtx_devq (s : State) (c : Nat) (x : Ctx) : (s.setCtx c x).devq = s.devq := rfl
@[simp] theorem State.setCtx_devFault (s : State) (c : Nat) (x : Ctx) : (s.setCtx c x).devFault = s.devFault := rfl
@[simp] theorem State.setCtx_teardowns (s : State) (c : Nat) (x : Ctx) : (s.setCtx c x).teardowns = s.teardowns := rfl
@[simp] theorem State.setCtx_devResetDue (s : State) (c : Nat) (x : Ctx) : (s.setCtx c x).devResetDue = s.devResetDue := rfl
@[simp] theorem State.setCtx_pwr (s : State) (c : Nat) (x : Ctx) : (s.setCtx c x).pwr = s.pwr := rfl
@[simp] theorem State.setCtx_clk (s : State) (c : Nat) (x : Ctx) : (s.setCtx c x).clk = s.clk := rfl
@[simp] theorem State.setCtx_pilot (s : State) (c : Nat) (x : Ctx) : (s.setCtx c x).pilot = s.pilot := rfl
@[simp] theorem State.setCtx_link (s : State) (c : Nat) (x : Ctx) : (s.setCtx c x).link = s.link := rfl
@[simp] theorem State.setCtx_anchors (s : State) (c : Nat) (x : Ctx) : (s.setCtx c x).anchors = s.anchors := rfl
@[simp] theorem State.setCtx_nv (s : State) (c : Nat) (x : Ctx) : (s.setCtx c x).nv = s.nv := rfl
@[simp] theorem State.setCtx_running (s : State) (c : Nat) (x : Ctx) : (s.setCtx c x).running = s.running := rfl
@[simp] theorem State.setCtx_island (s : State) (c : Nat) (x : Ctx) : (s.setCtx c x).island = s.island := rfl
@[simp] theorem State.setCtx_kdRec (s : State) (c : Nat) (x : Ctx) : (s.setCtx c x).kdRec = s.kdRec := rfl
@[simp] theorem State.setCtx_kdStaged (s : State) (c : Nat) (x : Ctx) : (s.setCtx c x).kdStaged = s.kdStaged := rfl
@[simp] theorem State.setCtx_tenantKeys (s : State) (c : Nat) (x : Ctx) : (s.setCtx c x).tenantKeys = s.tenantKeys := rfl
@[simp] theorem State.setCtx_manHash (s : State) (c : Nat) (x : Ctx) : (s.setCtx c x).manHash = s.manHash := rfl
@[simp] theorem State.setCtx_ev (s : State) (c : Nat) (x : Ctx) : (s.setCtx c x).ev = s.ev := rfl
@[simp] theorem State.setCtx_mgmt (s : State) (c : Nat) (x : Ctx) : (s.setCtx c x).mgmt = s.mgmt := rfl
@[simp] theorem State.setCtx_tap (s : State) (c : Nat) (x : Ctx) : (s.setCtx c x).tap = s.tap := rfl
@[simp] theorem State.setCtx_mir (s : State) (c : Nat) (x : Ctx) : (s.setCtx c x).mir = s.mir := rfl
@[simp] theorem State.setCtx_views (s : State) (c : Nat) (x : Ctx) : (s.setCtx c x).views = s.views := rfl
@[simp] theorem State.setCtx_out (s : State) (c : Nat) (x : Ctx) : (s.setCtx c x).out = s.out := rfl

/-! ### modCtx -/

@[simp] theorem State.modCtx_pending (s : State) (c : Nat) (f : Ctx → Ctx) : (s.modCtx c f).pending = s.pending := rfl
@[simp] theorem State.modCtx_regs (s : State) (c : Nat) (f : Ctx → Ctx) : (s.modCtx c f).regs = s.regs := rfl
@[simp] theorem State.modCtx_staged (s : State) (c : Nat) (f : Ctx → Ctx) : (s.modCtx c f).staged = s.staged := rfl
@[simp] theorem State.modCtx_sl (s : State) (c : Nat) (f : Ctx → Ctx) : (s.modCtx c f).sl = s.sl := rfl
@[simp] theorem State.modCtx_now (s : State) (c : Nat) (f : Ctx → Ctx) : (s.modCtx c f).now = s.now := rfl
@[simp] theorem State.modCtx_rng (s : State) (c : Nat) (f : Ctx → Ctx) : (s.modCtx c f).rng = s.rng := rfl
@[simp] theorem State.modCtx_nextId (s : State) (c : Nat) (f : Ctx → Ctx) : (s.modCtx c f).nextId = s.nextId := rfl
@[simp] theorem State.modCtx_ctxGens (s : State) (c : Nat) (f : Ctx → Ctx) : (s.modCtx c f).ctxGens = s.ctxGens := rfl
@[simp] theorem State.modCtx_moons (s : State) (c : Nat) (f : Ctx → Ctx) : (s.modCtx c f).moons = s.moons := rfl
@[simp] theorem State.modCtx_objs (s : State) (c : Nat) (f : Ctx → Ctx) : (s.modCtx c f).objs = s.objs := rfl
@[simp] theorem State.modCtx_placeKey (s : State) (c : Nat) (f : Ctx → Ctx) : (s.modCtx c f).placeKey = s.placeKey := rfl
@[simp] theorem State.modCtx_tagGen (s : State) (c : Nat) (f : Ctx → Ctx) : (s.modCtx c f).tagGen = s.tagGen := rfl
@[simp] theorem State.modCtx_ownPbr (s : State) (c : Nat) (f : Ctx → Ctx) : (s.modCtx c f).ownPbr = s.ownPbr := rfl
@[simp] theorem State.modCtx_parts (s : State) (c : Nat) (f : Ctx → Ctx) : (s.modCtx c f).parts = s.parts := rfl
@[simp] theorem State.modCtx_qps (s : State) (c : Nat) (f : Ctx → Ctx) : (s.modCtx c f).qps = s.qps := rfl
@[simp] theorem State.modCtx_own (s : State) (c : Nat) (f : Ctx → Ctx) : (s.modCtx c f).own = s.own := rfl
@[simp] theorem State.modCtx_reqs (s : State) (c : Nat) (f : Ctx → Ctx) : (s.modCtx c f).reqs = s.reqs := rfl
@[simp] theorem State.modCtx_nmes (s : State) (c : Nat) (f : Ctx → Ctx) : (s.modCtx c f).nmes = s.nmes := rfl
@[simp] theorem State.modCtx_fills (s : State) (c : Nat) (f : Ctx → Ctx) : (s.modCtx c f).fills = s.fills := rfl
@[simp] theorem State.modCtx_dir (s : State) (c : Nat) (f : Ctx → Ctx) : (s.modCtx c f).dir = s.dir := rfl
@[simp] theorem State.modCtx_snoops (s : State) (c : Nat) (f : Ctx → Ctx) : (s.modCtx c f).snoops = s.snoops := rfl
@[simp] theorem State.modCtx_hot (s : State) (c : Nat) (f : Ctx → Ctx) : (s.modCtx c f).hot = s.hot := rfl
@[simp] theorem State.modCtx_accs (s : State) (c : Nat) (f : Ctx → Ctx) : (s.modCtx c f).accs = s.accs := rfl
@[simp] theorem State.modCtx_xin (s : State) (c : Nat) (f : Ctx → Ctx) : (s.modCtx c f).xin = s.xin := rfl
@[simp] theorem State.modCtx_shares (s : State) (c : Nat) (f : Ctx → Ctx) : (s.modCtx c f).shares = s.shares := rfl
@[simp] theorem State.modCtx_buckets (s : State) (c : Nat) (f : Ctx → Ctx) : (s.modCtx c f).buckets = s.buckets := rfl
@[simp] theorem State.modCtx_chargeRest (s : State) (c : Nat) (f : Ctx → Ctx) : (s.modCtx c f).chargeRest = s.chargeRest := rfl
@[simp] theorem State.modCtx_spillWrites (s : State) (c : Nat) (f : Ctx → Ctx) : (s.modCtx c f).spillWrites = s.spillWrites := rfl
@[simp] theorem State.modCtx_spillKey (s : State) (c : Nat) (f : Ctx → Ctx) : (s.modCtx c f).spillKey = s.spillKey := rfl
@[simp] theorem State.modCtx_rsp (s : State) (c : Nat) (f : Ctx → Ctx) : (s.modCtx c f).rsp = s.rsp := rfl
@[simp] theorem State.modCtx_grants (s : State) (c : Nat) (f : Ctx → Ctx) : (s.modCtx c f).grants = s.grants := rfl
@[simp] theorem State.modCtx_chanLoad (s : State) (c : Nat) (f : Ctx → Ctx) : (s.modCtx c f).chanLoad = s.chanLoad := rfl
@[simp] theorem State.modCtx_trayLoad (s : State) (c : Nat) (f : Ctx → Ctx) : (s.modCtx c f).trayLoad = s.trayLoad := rfl
@[simp] theorem State.modCtx_scrubs (s : State) (c : Nat) (f : Ctx → Ctx) : (s.modCtx c f).scrubs = s.scrubs := rfl
@[simp] theorem State.modCtx_winStart (s : State) (c : Nat) (f : Ctx → Ctx) : (s.modCtx c f).winStart = s.winStart := rfl
@[simp] theorem State.modCtx_imbC (s : State) (c : Nat) (f : Ctx → Ctx) : (s.modCtx c f).imbC = s.imbC := rfl
@[simp] theorem State.modCtx_imbT (s : State) (c : Nat) (f : Ctx → Ctx) : (s.modCtx c f).imbT = s.imbT := rfl
@[simp] theorem State.modCtx_crashed (s : State) (c : Nat) (f : Ctx → Ctx) : (s.modCtx c f).crashed = s.crashed := rfl
@[simp] theorem State.modCtx_viral (s : State) (c : Nat) (f : Ctx → Ctx) : (s.modCtx c f).viral = s.viral := rfl
@[simp] theorem State.modCtx_devq (s : State) (c : Nat) (f : Ctx → Ctx) : (s.modCtx c f).devq = s.devq := rfl
@[simp] theorem State.modCtx_devFault (s : State) (c : Nat) (f : Ctx → Ctx) : (s.modCtx c f).devFault = s.devFault := rfl
@[simp] theorem State.modCtx_teardowns (s : State) (c : Nat) (f : Ctx → Ctx) : (s.modCtx c f).teardowns = s.teardowns := rfl
@[simp] theorem State.modCtx_devResetDue (s : State) (c : Nat) (f : Ctx → Ctx) : (s.modCtx c f).devResetDue = s.devResetDue := rfl
@[simp] theorem State.modCtx_pwr (s : State) (c : Nat) (f : Ctx → Ctx) : (s.modCtx c f).pwr = s.pwr := rfl
@[simp] theorem State.modCtx_clk (s : State) (c : Nat) (f : Ctx → Ctx) : (s.modCtx c f).clk = s.clk := rfl
@[simp] theorem State.modCtx_pilot (s : State) (c : Nat) (f : Ctx → Ctx) : (s.modCtx c f).pilot = s.pilot := rfl
@[simp] theorem State.modCtx_link (s : State) (c : Nat) (f : Ctx → Ctx) : (s.modCtx c f).link = s.link := rfl
@[simp] theorem State.modCtx_anchors (s : State) (c : Nat) (f : Ctx → Ctx) : (s.modCtx c f).anchors = s.anchors := rfl
@[simp] theorem State.modCtx_nv (s : State) (c : Nat) (f : Ctx → Ctx) : (s.modCtx c f).nv = s.nv := rfl
@[simp] theorem State.modCtx_running (s : State) (c : Nat) (f : Ctx → Ctx) : (s.modCtx c f).running = s.running := rfl
@[simp] theorem State.modCtx_island (s : State) (c : Nat) (f : Ctx → Ctx) : (s.modCtx c f).island = s.island := rfl
@[simp] theorem State.modCtx_kdRec (s : State) (c : Nat) (f : Ctx → Ctx) : (s.modCtx c f).kdRec = s.kdRec := rfl
@[simp] theorem State.modCtx_kdStaged (s : State) (c : Nat) (f : Ctx → Ctx) : (s.modCtx c f).kdStaged = s.kdStaged := rfl
@[simp] theorem State.modCtx_tenantKeys (s : State) (c : Nat) (f : Ctx → Ctx) : (s.modCtx c f).tenantKeys = s.tenantKeys := rfl
@[simp] theorem State.modCtx_manHash (s : State) (c : Nat) (f : Ctx → Ctx) : (s.modCtx c f).manHash = s.manHash := rfl
@[simp] theorem State.modCtx_ev (s : State) (c : Nat) (f : Ctx → Ctx) : (s.modCtx c f).ev = s.ev := rfl
@[simp] theorem State.modCtx_mgmt (s : State) (c : Nat) (f : Ctx → Ctx) : (s.modCtx c f).mgmt = s.mgmt := rfl
@[simp] theorem State.modCtx_tap (s : State) (c : Nat) (f : Ctx → Ctx) : (s.modCtx c f).tap = s.tap := rfl
@[simp] theorem State.modCtx_mir (s : State) (c : Nat) (f : Ctx → Ctx) : (s.modCtx c f).mir = s.mir := rfl
@[simp] theorem State.modCtx_views (s : State) (c : Nat) (f : Ctx → Ctx) : (s.modCtx c f).views = s.views := rfl
@[simp] theorem State.modCtx_out (s : State) (c : Nat) (f : Ctx → Ctx) : (s.modCtx c f).out = s.out := rfl

/-! ### modObj -/

@[simp] theorem State.modObj_pending (s : State) (h : Nat) (f : Obj → Obj) : (s.modObj h f).pending = s.pending := rfl
@[simp] theorem State.modObj_regs (s : State) (h : Nat) (f : Obj → Obj) : (s.modObj h f).regs = s.regs := rfl
@[simp] theorem State.modObj_staged (s : State) (h : Nat) (f : Obj → Obj) : (s.modObj h f).staged = s.staged := rfl
@[simp] theorem State.modObj_sl (s : State) (h : Nat) (f : Obj → Obj) : (s.modObj h f).sl = s.sl := rfl
@[simp] theorem State.modObj_now (s : State) (h : Nat) (f : Obj → Obj) : (s.modObj h f).now = s.now := rfl
@[simp] theorem State.modObj_rng (s : State) (h : Nat) (f : Obj → Obj) : (s.modObj h f).rng = s.rng := rfl
@[simp] theorem State.modObj_nextId (s : State) (h : Nat) (f : Obj → Obj) : (s.modObj h f).nextId = s.nextId := rfl
@[simp] theorem State.modObj_ctxs (s : State) (h : Nat) (f : Obj → Obj) : (s.modObj h f).ctxs = s.ctxs := rfl
@[simp] theorem State.modObj_ctxGens (s : State) (h : Nat) (f : Obj → Obj) : (s.modObj h f).ctxGens = s.ctxGens := rfl
@[simp] theorem State.modObj_moons (s : State) (h : Nat) (f : Obj → Obj) : (s.modObj h f).moons = s.moons := rfl
@[simp] theorem State.modObj_placeKey (s : State) (h : Nat) (f : Obj → Obj) : (s.modObj h f).placeKey = s.placeKey := rfl
@[simp] theorem State.modObj_tagGen (s : State) (h : Nat) (f : Obj → Obj) : (s.modObj h f).tagGen = s.tagGen := rfl
@[simp] theorem State.modObj_ownPbr (s : State) (h : Nat) (f : Obj → Obj) : (s.modObj h f).ownPbr = s.ownPbr := rfl
@[simp] theorem State.modObj_parts (s : State) (h : Nat) (f : Obj → Obj) : (s.modObj h f).parts = s.parts := rfl
@[simp] theorem State.modObj_qps (s : State) (h : Nat) (f : Obj → Obj) : (s.modObj h f).qps = s.qps := rfl
@[simp] theorem State.modObj_own (s : State) (h : Nat) (f : Obj → Obj) : (s.modObj h f).own = s.own := rfl
@[simp] theorem State.modObj_reqs (s : State) (h : Nat) (f : Obj → Obj) : (s.modObj h f).reqs = s.reqs := rfl
@[simp] theorem State.modObj_nmes (s : State) (h : Nat) (f : Obj → Obj) : (s.modObj h f).nmes = s.nmes := rfl
@[simp] theorem State.modObj_fills (s : State) (h : Nat) (f : Obj → Obj) : (s.modObj h f).fills = s.fills := rfl
@[simp] theorem State.modObj_dir (s : State) (h : Nat) (f : Obj → Obj) : (s.modObj h f).dir = s.dir := rfl
@[simp] theorem State.modObj_snoops (s : State) (h : Nat) (f : Obj → Obj) : (s.modObj h f).snoops = s.snoops := rfl
@[simp] theorem State.modObj_hot (s : State) (h : Nat) (f : Obj → Obj) : (s.modObj h f).hot = s.hot := rfl
@[simp] theorem State.modObj_accs (s : State) (h : Nat) (f : Obj → Obj) : (s.modObj h f).accs = s.accs := rfl
@[simp] theorem State.modObj_xin (s : State) (h : Nat) (f : Obj → Obj) : (s.modObj h f).xin = s.xin := rfl
@[simp] theorem State.modObj_shares (s : State) (h : Nat) (f : Obj → Obj) : (s.modObj h f).shares = s.shares := rfl
@[simp] theorem State.modObj_buckets (s : State) (h : Nat) (f : Obj → Obj) : (s.modObj h f).buckets = s.buckets := rfl
@[simp] theorem State.modObj_chargeRest (s : State) (h : Nat) (f : Obj → Obj) : (s.modObj h f).chargeRest = s.chargeRest := rfl
@[simp] theorem State.modObj_spillWrites (s : State) (h : Nat) (f : Obj → Obj) : (s.modObj h f).spillWrites = s.spillWrites := rfl
@[simp] theorem State.modObj_spillKey (s : State) (h : Nat) (f : Obj → Obj) : (s.modObj h f).spillKey = s.spillKey := rfl
@[simp] theorem State.modObj_rsp (s : State) (h : Nat) (f : Obj → Obj) : (s.modObj h f).rsp = s.rsp := rfl
@[simp] theorem State.modObj_grants (s : State) (h : Nat) (f : Obj → Obj) : (s.modObj h f).grants = s.grants := rfl
@[simp] theorem State.modObj_chanLoad (s : State) (h : Nat) (f : Obj → Obj) : (s.modObj h f).chanLoad = s.chanLoad := rfl
@[simp] theorem State.modObj_trayLoad (s : State) (h : Nat) (f : Obj → Obj) : (s.modObj h f).trayLoad = s.trayLoad := rfl
@[simp] theorem State.modObj_scrubs (s : State) (h : Nat) (f : Obj → Obj) : (s.modObj h f).scrubs = s.scrubs := rfl
@[simp] theorem State.modObj_winStart (s : State) (h : Nat) (f : Obj → Obj) : (s.modObj h f).winStart = s.winStart := rfl
@[simp] theorem State.modObj_imbC (s : State) (h : Nat) (f : Obj → Obj) : (s.modObj h f).imbC = s.imbC := rfl
@[simp] theorem State.modObj_imbT (s : State) (h : Nat) (f : Obj → Obj) : (s.modObj h f).imbT = s.imbT := rfl
@[simp] theorem State.modObj_crashed (s : State) (h : Nat) (f : Obj → Obj) : (s.modObj h f).crashed = s.crashed := rfl
@[simp] theorem State.modObj_viral (s : State) (h : Nat) (f : Obj → Obj) : (s.modObj h f).viral = s.viral := rfl
@[simp] theorem State.modObj_devq (s : State) (h : Nat) (f : Obj → Obj) : (s.modObj h f).devq = s.devq := rfl
@[simp] theorem State.modObj_devFault (s : State) (h : Nat) (f : Obj → Obj) : (s.modObj h f).devFault = s.devFault := rfl
@[simp] theorem State.modObj_teardowns (s : State) (h : Nat) (f : Obj → Obj) : (s.modObj h f).teardowns = s.teardowns := rfl
@[simp] theorem State.modObj_devResetDue (s : State) (h : Nat) (f : Obj → Obj) : (s.modObj h f).devResetDue = s.devResetDue := rfl
@[simp] theorem State.modObj_pwr (s : State) (h : Nat) (f : Obj → Obj) : (s.modObj h f).pwr = s.pwr := rfl
@[simp] theorem State.modObj_clk (s : State) (h : Nat) (f : Obj → Obj) : (s.modObj h f).clk = s.clk := rfl
@[simp] theorem State.modObj_pilot (s : State) (h : Nat) (f : Obj → Obj) : (s.modObj h f).pilot = s.pilot := rfl
@[simp] theorem State.modObj_link (s : State) (h : Nat) (f : Obj → Obj) : (s.modObj h f).link = s.link := rfl
@[simp] theorem State.modObj_anchors (s : State) (h : Nat) (f : Obj → Obj) : (s.modObj h f).anchors = s.anchors := rfl
@[simp] theorem State.modObj_nv (s : State) (h : Nat) (f : Obj → Obj) : (s.modObj h f).nv = s.nv := rfl
@[simp] theorem State.modObj_running (s : State) (h : Nat) (f : Obj → Obj) : (s.modObj h f).running = s.running := rfl
@[simp] theorem State.modObj_island (s : State) (h : Nat) (f : Obj → Obj) : (s.modObj h f).island = s.island := rfl
@[simp] theorem State.modObj_kdRec (s : State) (h : Nat) (f : Obj → Obj) : (s.modObj h f).kdRec = s.kdRec := rfl
@[simp] theorem State.modObj_kdStaged (s : State) (h : Nat) (f : Obj → Obj) : (s.modObj h f).kdStaged = s.kdStaged := rfl
@[simp] theorem State.modObj_tenantKeys (s : State) (h : Nat) (f : Obj → Obj) : (s.modObj h f).tenantKeys = s.tenantKeys := rfl
@[simp] theorem State.modObj_manHash (s : State) (h : Nat) (f : Obj → Obj) : (s.modObj h f).manHash = s.manHash := rfl
@[simp] theorem State.modObj_ev (s : State) (h : Nat) (f : Obj → Obj) : (s.modObj h f).ev = s.ev := rfl
@[simp] theorem State.modObj_mgmt (s : State) (h : Nat) (f : Obj → Obj) : (s.modObj h f).mgmt = s.mgmt := rfl
@[simp] theorem State.modObj_tap (s : State) (h : Nat) (f : Obj → Obj) : (s.modObj h f).tap = s.tap := rfl
@[simp] theorem State.modObj_mir (s : State) (h : Nat) (f : Obj → Obj) : (s.modObj h f).mir = s.mir := rfl
@[simp] theorem State.modObj_views (s : State) (h : Nat) (f : Obj → Obj) : (s.modObj h f).views = s.views := rfl
@[simp] theorem State.modObj_out (s : State) (h : Nat) (f : Obj → Obj) : (s.modObj h f).out = s.out := rfl

/-! ### emit -/

@[simp] theorem State.emit_pending (s : State) (o : Out) : (s.emit o).pending = s.pending := rfl
@[simp] theorem State.emit_regs (s : State) (o : Out) : (s.emit o).regs = s.regs := rfl
@[simp] theorem State.emit_staged (s : State) (o : Out) : (s.emit o).staged = s.staged := rfl
@[simp] theorem State.emit_sl (s : State) (o : Out) : (s.emit o).sl = s.sl := rfl
@[simp] theorem State.emit_now (s : State) (o : Out) : (s.emit o).now = s.now := rfl
@[simp] theorem State.emit_rng (s : State) (o : Out) : (s.emit o).rng = s.rng := rfl
@[simp] theorem State.emit_nextId (s : State) (o : Out) : (s.emit o).nextId = s.nextId := rfl
@[simp] theorem State.emit_ctxs (s : State) (o : Out) : (s.emit o).ctxs = s.ctxs := rfl
@[simp] theorem State.emit_ctxGens (s : State) (o : Out) : (s.emit o).ctxGens = s.ctxGens := rfl
@[simp] theorem State.emit_moons (s : State) (o : Out) : (s.emit o).moons = s.moons := rfl
@[simp] theorem State.emit_objs (s : State) (o : Out) : (s.emit o).objs = s.objs := rfl
@[simp] theorem State.emit_placeKey (s : State) (o : Out) : (s.emit o).placeKey = s.placeKey := rfl
@[simp] theorem State.emit_tagGen (s : State) (o : Out) : (s.emit o).tagGen = s.tagGen := rfl
@[simp] theorem State.emit_ownPbr (s : State) (o : Out) : (s.emit o).ownPbr = s.ownPbr := rfl
@[simp] theorem State.emit_parts (s : State) (o : Out) : (s.emit o).parts = s.parts := rfl
@[simp] theorem State.emit_qps (s : State) (o : Out) : (s.emit o).qps = s.qps := rfl
@[simp] theorem State.emit_own (s : State) (o : Out) : (s.emit o).own = s.own := rfl
@[simp] theorem State.emit_reqs (s : State) (o : Out) : (s.emit o).reqs = s.reqs := rfl
@[simp] theorem State.emit_nmes (s : State) (o : Out) : (s.emit o).nmes = s.nmes := rfl
@[simp] theorem State.emit_fills (s : State) (o : Out) : (s.emit o).fills = s.fills := rfl
@[simp] theorem State.emit_dir (s : State) (o : Out) : (s.emit o).dir = s.dir := rfl
@[simp] theorem State.emit_snoops (s : State) (o : Out) : (s.emit o).snoops = s.snoops := rfl
@[simp] theorem State.emit_hot (s : State) (o : Out) : (s.emit o).hot = s.hot := rfl
@[simp] theorem State.emit_accs (s : State) (o : Out) : (s.emit o).accs = s.accs := rfl
@[simp] theorem State.emit_xin (s : State) (o : Out) : (s.emit o).xin = s.xin := rfl
@[simp] theorem State.emit_shares (s : State) (o : Out) : (s.emit o).shares = s.shares := rfl
@[simp] theorem State.emit_buckets (s : State) (o : Out) : (s.emit o).buckets = s.buckets := rfl
@[simp] theorem State.emit_chargeRest (s : State) (o : Out) : (s.emit o).chargeRest = s.chargeRest := rfl
@[simp] theorem State.emit_spillWrites (s : State) (o : Out) : (s.emit o).spillWrites = s.spillWrites := rfl
@[simp] theorem State.emit_spillKey (s : State) (o : Out) : (s.emit o).spillKey = s.spillKey := rfl
@[simp] theorem State.emit_rsp (s : State) (o : Out) : (s.emit o).rsp = s.rsp := rfl
@[simp] theorem State.emit_grants (s : State) (o : Out) : (s.emit o).grants = s.grants := rfl
@[simp] theorem State.emit_chanLoad (s : State) (o : Out) : (s.emit o).chanLoad = s.chanLoad := rfl
@[simp] theorem State.emit_trayLoad (s : State) (o : Out) : (s.emit o).trayLoad = s.trayLoad := rfl
@[simp] theorem State.emit_scrubs (s : State) (o : Out) : (s.emit o).scrubs = s.scrubs := rfl
@[simp] theorem State.emit_winStart (s : State) (o : Out) : (s.emit o).winStart = s.winStart := rfl
@[simp] theorem State.emit_imbC (s : State) (o : Out) : (s.emit o).imbC = s.imbC := rfl
@[simp] theorem State.emit_imbT (s : State) (o : Out) : (s.emit o).imbT = s.imbT := rfl
@[simp] theorem State.emit_crashed (s : State) (o : Out) : (s.emit o).crashed = s.crashed := rfl
@[simp] theorem State.emit_viral (s : State) (o : Out) : (s.emit o).viral = s.viral := rfl
@[simp] theorem State.emit_devq (s : State) (o : Out) : (s.emit o).devq = s.devq := rfl
@[simp] theorem State.emit_devFault (s : State) (o : Out) : (s.emit o).devFault = s.devFault := rfl
@[simp] theorem State.emit_teardowns (s : State) (o : Out) : (s.emit o).teardowns = s.teardowns := rfl
@[simp] theorem State.emit_devResetDue (s : State) (o : Out) : (s.emit o).devResetDue = s.devResetDue := rfl
@[simp] theorem State.emit_pwr (s : State) (o : Out) : (s.emit o).pwr = s.pwr := rfl
@[simp] theorem State.emit_clk (s : State) (o : Out) : (s.emit o).clk = s.clk := rfl
@[simp] theorem State.emit_pilot (s : State) (o : Out) : (s.emit o).pilot = s.pilot := rfl
@[simp] theorem State.emit_link (s : State) (o : Out) : (s.emit o).link = s.link := rfl
@[simp] theorem State.emit_anchors (s : State) (o : Out) : (s.emit o).anchors = s.anchors := rfl
@[simp] theorem State.emit_nv (s : State) (o : Out) : (s.emit o).nv = s.nv := rfl
@[simp] theorem State.emit_running (s : State) (o : Out) : (s.emit o).running = s.running := rfl
@[simp] theorem State.emit_island (s : State) (o : Out) : (s.emit o).island = s.island := rfl
@[simp] theorem State.emit_kdRec (s : State) (o : Out) : (s.emit o).kdRec = s.kdRec := rfl
@[simp] theorem State.emit_kdStaged (s : State) (o : Out) : (s.emit o).kdStaged = s.kdStaged := rfl
@[simp] theorem State.emit_tenantKeys (s : State) (o : Out) : (s.emit o).tenantKeys = s.tenantKeys := rfl
@[simp] theorem State.emit_manHash (s : State) (o : Out) : (s.emit o).manHash = s.manHash := rfl
@[simp] theorem State.emit_ev (s : State) (o : Out) : (s.emit o).ev = s.ev := rfl
@[simp] theorem State.emit_mgmt (s : State) (o : Out) : (s.emit o).mgmt = s.mgmt := rfl
@[simp] theorem State.emit_tap (s : State) (o : Out) : (s.emit o).tap = s.tap := rfl
@[simp] theorem State.emit_mir (s : State) (o : Out) : (s.emit o).mir = s.mir := rfl
@[simp] theorem State.emit_views (s : State) (o : Out) : (s.emit o).views = s.views := rfl

/-! ### noteIssue -/

@[simp] theorem State.noteIssue_pending (s : State) (slot : Nat) (u : IssueSlot) : (s.noteIssue slot u).pending = s.pending := rfl
@[simp] theorem State.noteIssue_regs (s : State) (slot : Nat) (u : IssueSlot) : (s.noteIssue slot u).regs = s.regs := rfl
@[simp] theorem State.noteIssue_staged (s : State) (slot : Nat) (u : IssueSlot) : (s.noteIssue slot u).staged = s.staged := rfl
@[simp] theorem State.noteIssue_sl (s : State) (slot : Nat) (u : IssueSlot) : (s.noteIssue slot u).sl = s.sl := rfl
@[simp] theorem State.noteIssue_now (s : State) (slot : Nat) (u : IssueSlot) : (s.noteIssue slot u).now = s.now := rfl
@[simp] theorem State.noteIssue_rng (s : State) (slot : Nat) (u : IssueSlot) : (s.noteIssue slot u).rng = s.rng := rfl
@[simp] theorem State.noteIssue_nextId (s : State) (slot : Nat) (u : IssueSlot) : (s.noteIssue slot u).nextId = s.nextId := rfl
@[simp] theorem State.noteIssue_ctxs (s : State) (slot : Nat) (u : IssueSlot) : (s.noteIssue slot u).ctxs = s.ctxs := rfl
@[simp] theorem State.noteIssue_ctxGens (s : State) (slot : Nat) (u : IssueSlot) : (s.noteIssue slot u).ctxGens = s.ctxGens := rfl
@[simp] theorem State.noteIssue_objs (s : State) (slot : Nat) (u : IssueSlot) : (s.noteIssue slot u).objs = s.objs := rfl
@[simp] theorem State.noteIssue_placeKey (s : State) (slot : Nat) (u : IssueSlot) : (s.noteIssue slot u).placeKey = s.placeKey := rfl
@[simp] theorem State.noteIssue_tagGen (s : State) (slot : Nat) (u : IssueSlot) : (s.noteIssue slot u).tagGen = s.tagGen := rfl
@[simp] theorem State.noteIssue_ownPbr (s : State) (slot : Nat) (u : IssueSlot) : (s.noteIssue slot u).ownPbr = s.ownPbr := rfl
@[simp] theorem State.noteIssue_parts (s : State) (slot : Nat) (u : IssueSlot) : (s.noteIssue slot u).parts = s.parts := rfl
@[simp] theorem State.noteIssue_qps (s : State) (slot : Nat) (u : IssueSlot) : (s.noteIssue slot u).qps = s.qps := rfl
@[simp] theorem State.noteIssue_own (s : State) (slot : Nat) (u : IssueSlot) : (s.noteIssue slot u).own = s.own := rfl
@[simp] theorem State.noteIssue_reqs (s : State) (slot : Nat) (u : IssueSlot) : (s.noteIssue slot u).reqs = s.reqs := rfl
@[simp] theorem State.noteIssue_nmes (s : State) (slot : Nat) (u : IssueSlot) : (s.noteIssue slot u).nmes = s.nmes := rfl
@[simp] theorem State.noteIssue_fills (s : State) (slot : Nat) (u : IssueSlot) : (s.noteIssue slot u).fills = s.fills := rfl
@[simp] theorem State.noteIssue_dir (s : State) (slot : Nat) (u : IssueSlot) : (s.noteIssue slot u).dir = s.dir := rfl
@[simp] theorem State.noteIssue_snoops (s : State) (slot : Nat) (u : IssueSlot) : (s.noteIssue slot u).snoops = s.snoops := rfl
@[simp] theorem State.noteIssue_hot (s : State) (slot : Nat) (u : IssueSlot) : (s.noteIssue slot u).hot = s.hot := rfl
@[simp] theorem State.noteIssue_accs (s : State) (slot : Nat) (u : IssueSlot) : (s.noteIssue slot u).accs = s.accs := rfl
@[simp] theorem State.noteIssue_xin (s : State) (slot : Nat) (u : IssueSlot) : (s.noteIssue slot u).xin = s.xin := rfl
@[simp] theorem State.noteIssue_shares (s : State) (slot : Nat) (u : IssueSlot) : (s.noteIssue slot u).shares = s.shares := rfl
@[simp] theorem State.noteIssue_buckets (s : State) (slot : Nat) (u : IssueSlot) : (s.noteIssue slot u).buckets = s.buckets := rfl
@[simp] theorem State.noteIssue_chargeRest (s : State) (slot : Nat) (u : IssueSlot) : (s.noteIssue slot u).chargeRest = s.chargeRest := rfl
@[simp] theorem State.noteIssue_spillWrites (s : State) (slot : Nat) (u : IssueSlot) : (s.noteIssue slot u).spillWrites = s.spillWrites := rfl
@[simp] theorem State.noteIssue_spillKey (s : State) (slot : Nat) (u : IssueSlot) : (s.noteIssue slot u).spillKey = s.spillKey := rfl
@[simp] theorem State.noteIssue_rsp (s : State) (slot : Nat) (u : IssueSlot) : (s.noteIssue slot u).rsp = s.rsp := rfl
@[simp] theorem State.noteIssue_grants (s : State) (slot : Nat) (u : IssueSlot) : (s.noteIssue slot u).grants = s.grants := rfl
@[simp] theorem State.noteIssue_chanLoad (s : State) (slot : Nat) (u : IssueSlot) : (s.noteIssue slot u).chanLoad = s.chanLoad := rfl
@[simp] theorem State.noteIssue_trayLoad (s : State) (slot : Nat) (u : IssueSlot) : (s.noteIssue slot u).trayLoad = s.trayLoad := rfl
@[simp] theorem State.noteIssue_scrubs (s : State) (slot : Nat) (u : IssueSlot) : (s.noteIssue slot u).scrubs = s.scrubs := rfl
@[simp] theorem State.noteIssue_winStart (s : State) (slot : Nat) (u : IssueSlot) : (s.noteIssue slot u).winStart = s.winStart := rfl
@[simp] theorem State.noteIssue_imbC (s : State) (slot : Nat) (u : IssueSlot) : (s.noteIssue slot u).imbC = s.imbC := rfl
@[simp] theorem State.noteIssue_imbT (s : State) (slot : Nat) (u : IssueSlot) : (s.noteIssue slot u).imbT = s.imbT := rfl
@[simp] theorem State.noteIssue_crashed (s : State) (slot : Nat) (u : IssueSlot) : (s.noteIssue slot u).crashed = s.crashed := rfl
@[simp] theorem State.noteIssue_viral (s : State) (slot : Nat) (u : IssueSlot) : (s.noteIssue slot u).viral = s.viral := rfl
@[simp] theorem State.noteIssue_devq (s : State) (slot : Nat) (u : IssueSlot) : (s.noteIssue slot u).devq = s.devq := rfl
@[simp] theorem State.noteIssue_devFault (s : State) (slot : Nat) (u : IssueSlot) : (s.noteIssue slot u).devFault = s.devFault := rfl
@[simp] theorem State.noteIssue_teardowns (s : State) (slot : Nat) (u : IssueSlot) : (s.noteIssue slot u).teardowns = s.teardowns := rfl
@[simp] theorem State.noteIssue_devResetDue (s : State) (slot : Nat) (u : IssueSlot) : (s.noteIssue slot u).devResetDue = s.devResetDue := rfl
@[simp] theorem State.noteIssue_pwr (s : State) (slot : Nat) (u : IssueSlot) : (s.noteIssue slot u).pwr = s.pwr := rfl
@[simp] theorem State.noteIssue_clk (s : State) (slot : Nat) (u : IssueSlot) : (s.noteIssue slot u).clk = s.clk := rfl
@[simp] theorem State.noteIssue_pilot (s : State) (slot : Nat) (u : IssueSlot) : (s.noteIssue slot u).pilot = s.pilot := rfl
@[simp] theorem State.noteIssue_link (s : State) (slot : Nat) (u : IssueSlot) : (s.noteIssue slot u).link = s.link := rfl
@[simp] theorem State.noteIssue_anchors (s : State) (slot : Nat) (u : IssueSlot) : (s.noteIssue slot u).anchors = s.anchors := rfl
@[simp] theorem State.noteIssue_nv (s : State) (slot : Nat) (u : IssueSlot) : (s.noteIssue slot u).nv = s.nv := rfl
@[simp] theorem State.noteIssue_running (s : State) (slot : Nat) (u : IssueSlot) : (s.noteIssue slot u).running = s.running := rfl
@[simp] theorem State.noteIssue_island (s : State) (slot : Nat) (u : IssueSlot) : (s.noteIssue slot u).island = s.island := rfl
@[simp] theorem State.noteIssue_kdRec (s : State) (slot : Nat) (u : IssueSlot) : (s.noteIssue slot u).kdRec = s.kdRec := rfl
@[simp] theorem State.noteIssue_kdStaged (s : State) (slot : Nat) (u : IssueSlot) : (s.noteIssue slot u).kdStaged = s.kdStaged := rfl
@[simp] theorem State.noteIssue_tenantKeys (s : State) (slot : Nat) (u : IssueSlot) : (s.noteIssue slot u).tenantKeys = s.tenantKeys := rfl
@[simp] theorem State.noteIssue_manHash (s : State) (slot : Nat) (u : IssueSlot) : (s.noteIssue slot u).manHash = s.manHash := rfl
@[simp] theorem State.noteIssue_ev (s : State) (slot : Nat) (u : IssueSlot) : (s.noteIssue slot u).ev = s.ev := rfl
@[simp] theorem State.noteIssue_mgmt (s : State) (slot : Nat) (u : IssueSlot) : (s.noteIssue slot u).mgmt = s.mgmt := rfl
@[simp] theorem State.noteIssue_tap (s : State) (slot : Nat) (u : IssueSlot) : (s.noteIssue slot u).tap = s.tap := rfl
@[simp] theorem State.noteIssue_mir (s : State) (slot : Nat) (u : IssueSlot) : (s.noteIssue slot u).mir = s.mir := rfl
@[simp] theorem State.noteIssue_views (s : State) (slot : Nat) (u : IssueSlot) : (s.noteIssue slot u).views = s.views := rfl
@[simp] theorem State.noteIssue_out (s : State) (slot : Nat) (u : IssueSlot) : (s.noteIssue slot u).out = s.out := rfl

/-! ### modPwr -/

@[simp] theorem State.modPwr_pending (s : State) (f : Power → Power) : (s.modPwr f).pending = s.pending := rfl
@[simp] theorem State.modPwr_regs (s : State) (f : Power → Power) : (s.modPwr f).regs = s.regs := rfl
@[simp] theorem State.modPwr_staged (s : State) (f : Power → Power) : (s.modPwr f).staged = s.staged := rfl
@[simp] theorem State.modPwr_sl (s : State) (f : Power → Power) : (s.modPwr f).sl = s.sl := rfl
@[simp] theorem State.modPwr_now (s : State) (f : Power → Power) : (s.modPwr f).now = s.now := rfl
@[simp] theorem State.modPwr_rng (s : State) (f : Power → Power) : (s.modPwr f).rng = s.rng := rfl
@[simp] theorem State.modPwr_nextId (s : State) (f : Power → Power) : (s.modPwr f).nextId = s.nextId := rfl
@[simp] theorem State.modPwr_ctxs (s : State) (f : Power → Power) : (s.modPwr f).ctxs = s.ctxs := rfl
@[simp] theorem State.modPwr_ctxGens (s : State) (f : Power → Power) : (s.modPwr f).ctxGens = s.ctxGens := rfl
@[simp] theorem State.modPwr_moons (s : State) (f : Power → Power) : (s.modPwr f).moons = s.moons := rfl
@[simp] theorem State.modPwr_objs (s : State) (f : Power → Power) : (s.modPwr f).objs = s.objs := rfl
@[simp] theorem State.modPwr_placeKey (s : State) (f : Power → Power) : (s.modPwr f).placeKey = s.placeKey := rfl
@[simp] theorem State.modPwr_tagGen (s : State) (f : Power → Power) : (s.modPwr f).tagGen = s.tagGen := rfl
@[simp] theorem State.modPwr_ownPbr (s : State) (f : Power → Power) : (s.modPwr f).ownPbr = s.ownPbr := rfl
@[simp] theorem State.modPwr_parts (s : State) (f : Power → Power) : (s.modPwr f).parts = s.parts := rfl
@[simp] theorem State.modPwr_qps (s : State) (f : Power → Power) : (s.modPwr f).qps = s.qps := rfl
@[simp] theorem State.modPwr_own (s : State) (f : Power → Power) : (s.modPwr f).own = s.own := rfl
@[simp] theorem State.modPwr_reqs (s : State) (f : Power → Power) : (s.modPwr f).reqs = s.reqs := rfl
@[simp] theorem State.modPwr_nmes (s : State) (f : Power → Power) : (s.modPwr f).nmes = s.nmes := rfl
@[simp] theorem State.modPwr_fills (s : State) (f : Power → Power) : (s.modPwr f).fills = s.fills := rfl
@[simp] theorem State.modPwr_dir (s : State) (f : Power → Power) : (s.modPwr f).dir = s.dir := rfl
@[simp] theorem State.modPwr_snoops (s : State) (f : Power → Power) : (s.modPwr f).snoops = s.snoops := rfl
@[simp] theorem State.modPwr_hot (s : State) (f : Power → Power) : (s.modPwr f).hot = s.hot := rfl
@[simp] theorem State.modPwr_accs (s : State) (f : Power → Power) : (s.modPwr f).accs = s.accs := rfl
@[simp] theorem State.modPwr_xin (s : State) (f : Power → Power) : (s.modPwr f).xin = s.xin := rfl
@[simp] theorem State.modPwr_shares (s : State) (f : Power → Power) : (s.modPwr f).shares = s.shares := rfl
@[simp] theorem State.modPwr_buckets (s : State) (f : Power → Power) : (s.modPwr f).buckets = s.buckets := rfl
@[simp] theorem State.modPwr_chargeRest (s : State) (f : Power → Power) : (s.modPwr f).chargeRest = s.chargeRest := rfl
@[simp] theorem State.modPwr_spillWrites (s : State) (f : Power → Power) : (s.modPwr f).spillWrites = s.spillWrites := rfl
@[simp] theorem State.modPwr_spillKey (s : State) (f : Power → Power) : (s.modPwr f).spillKey = s.spillKey := rfl
@[simp] theorem State.modPwr_rsp (s : State) (f : Power → Power) : (s.modPwr f).rsp = s.rsp := rfl
@[simp] theorem State.modPwr_grants (s : State) (f : Power → Power) : (s.modPwr f).grants = s.grants := rfl
@[simp] theorem State.modPwr_chanLoad (s : State) (f : Power → Power) : (s.modPwr f).chanLoad = s.chanLoad := rfl
@[simp] theorem State.modPwr_trayLoad (s : State) (f : Power → Power) : (s.modPwr f).trayLoad = s.trayLoad := rfl
@[simp] theorem State.modPwr_scrubs (s : State) (f : Power → Power) : (s.modPwr f).scrubs = s.scrubs := rfl
@[simp] theorem State.modPwr_winStart (s : State) (f : Power → Power) : (s.modPwr f).winStart = s.winStart := rfl
@[simp] theorem State.modPwr_imbC (s : State) (f : Power → Power) : (s.modPwr f).imbC = s.imbC := rfl
@[simp] theorem State.modPwr_imbT (s : State) (f : Power → Power) : (s.modPwr f).imbT = s.imbT := rfl
@[simp] theorem State.modPwr_crashed (s : State) (f : Power → Power) : (s.modPwr f).crashed = s.crashed := rfl
@[simp] theorem State.modPwr_viral (s : State) (f : Power → Power) : (s.modPwr f).viral = s.viral := rfl
@[simp] theorem State.modPwr_devq (s : State) (f : Power → Power) : (s.modPwr f).devq = s.devq := rfl
@[simp] theorem State.modPwr_devFault (s : State) (f : Power → Power) : (s.modPwr f).devFault = s.devFault := rfl
@[simp] theorem State.modPwr_teardowns (s : State) (f : Power → Power) : (s.modPwr f).teardowns = s.teardowns := rfl
@[simp] theorem State.modPwr_devResetDue (s : State) (f : Power → Power) : (s.modPwr f).devResetDue = s.devResetDue := rfl
@[simp] theorem State.modPwr_clk (s : State) (f : Power → Power) : (s.modPwr f).clk = s.clk := rfl
@[simp] theorem State.modPwr_pilot (s : State) (f : Power → Power) : (s.modPwr f).pilot = s.pilot := rfl
@[simp] theorem State.modPwr_link (s : State) (f : Power → Power) : (s.modPwr f).link = s.link := rfl
@[simp] theorem State.modPwr_anchors (s : State) (f : Power → Power) : (s.modPwr f).anchors = s.anchors := rfl
@[simp] theorem State.modPwr_nv (s : State) (f : Power → Power) : (s.modPwr f).nv = s.nv := rfl
@[simp] theorem State.modPwr_running (s : State) (f : Power → Power) : (s.modPwr f).running = s.running := rfl
@[simp] theorem State.modPwr_island (s : State) (f : Power → Power) : (s.modPwr f).island = s.island := rfl
@[simp] theorem State.modPwr_kdRec (s : State) (f : Power → Power) : (s.modPwr f).kdRec = s.kdRec := rfl
@[simp] theorem State.modPwr_kdStaged (s : State) (f : Power → Power) : (s.modPwr f).kdStaged = s.kdStaged := rfl
@[simp] theorem State.modPwr_tenantKeys (s : State) (f : Power → Power) : (s.modPwr f).tenantKeys = s.tenantKeys := rfl
@[simp] theorem State.modPwr_manHash (s : State) (f : Power → Power) : (s.modPwr f).manHash = s.manHash := rfl
@[simp] theorem State.modPwr_ev (s : State) (f : Power → Power) : (s.modPwr f).ev = s.ev := rfl
@[simp] theorem State.modPwr_mgmt (s : State) (f : Power → Power) : (s.modPwr f).mgmt = s.mgmt := rfl
@[simp] theorem State.modPwr_tap (s : State) (f : Power → Power) : (s.modPwr f).tap = s.tap := rfl
@[simp] theorem State.modPwr_mir (s : State) (f : Power → Power) : (s.modPwr f).mir = s.mir := rfl
@[simp] theorem State.modPwr_views (s : State) (f : Power → Power) : (s.modPwr f).views = s.views := rfl
@[simp] theorem State.modPwr_out (s : State) (f : Power → Power) : (s.modPwr f).out = s.out := rfl

/-! ### modClk -/

@[simp] theorem State.modClk_pending (s : State) (f : Clocks → Clocks) : (s.modClk f).pending = s.pending := rfl
@[simp] theorem State.modClk_regs (s : State) (f : Clocks → Clocks) : (s.modClk f).regs = s.regs := rfl
@[simp] theorem State.modClk_staged (s : State) (f : Clocks → Clocks) : (s.modClk f).staged = s.staged := rfl
@[simp] theorem State.modClk_sl (s : State) (f : Clocks → Clocks) : (s.modClk f).sl = s.sl := rfl
@[simp] theorem State.modClk_now (s : State) (f : Clocks → Clocks) : (s.modClk f).now = s.now := rfl
@[simp] theorem State.modClk_rng (s : State) (f : Clocks → Clocks) : (s.modClk f).rng = s.rng := rfl
@[simp] theorem State.modClk_nextId (s : State) (f : Clocks → Clocks) : (s.modClk f).nextId = s.nextId := rfl
@[simp] theorem State.modClk_ctxs (s : State) (f : Clocks → Clocks) : (s.modClk f).ctxs = s.ctxs := rfl
@[simp] theorem State.modClk_ctxGens (s : State) (f : Clocks → Clocks) : (s.modClk f).ctxGens = s.ctxGens := rfl
@[simp] theorem State.modClk_moons (s : State) (f : Clocks → Clocks) : (s.modClk f).moons = s.moons := rfl
@[simp] theorem State.modClk_objs (s : State) (f : Clocks → Clocks) : (s.modClk f).objs = s.objs := rfl
@[simp] theorem State.modClk_placeKey (s : State) (f : Clocks → Clocks) : (s.modClk f).placeKey = s.placeKey := rfl
@[simp] theorem State.modClk_tagGen (s : State) (f : Clocks → Clocks) : (s.modClk f).tagGen = s.tagGen := rfl
@[simp] theorem State.modClk_ownPbr (s : State) (f : Clocks → Clocks) : (s.modClk f).ownPbr = s.ownPbr := rfl
@[simp] theorem State.modClk_parts (s : State) (f : Clocks → Clocks) : (s.modClk f).parts = s.parts := rfl
@[simp] theorem State.modClk_qps (s : State) (f : Clocks → Clocks) : (s.modClk f).qps = s.qps := rfl
@[simp] theorem State.modClk_own (s : State) (f : Clocks → Clocks) : (s.modClk f).own = s.own := rfl
@[simp] theorem State.modClk_reqs (s : State) (f : Clocks → Clocks) : (s.modClk f).reqs = s.reqs := rfl
@[simp] theorem State.modClk_nmes (s : State) (f : Clocks → Clocks) : (s.modClk f).nmes = s.nmes := rfl
@[simp] theorem State.modClk_fills (s : State) (f : Clocks → Clocks) : (s.modClk f).fills = s.fills := rfl
@[simp] theorem State.modClk_dir (s : State) (f : Clocks → Clocks) : (s.modClk f).dir = s.dir := rfl
@[simp] theorem State.modClk_snoops (s : State) (f : Clocks → Clocks) : (s.modClk f).snoops = s.snoops := rfl
@[simp] theorem State.modClk_hot (s : State) (f : Clocks → Clocks) : (s.modClk f).hot = s.hot := rfl
@[simp] theorem State.modClk_accs (s : State) (f : Clocks → Clocks) : (s.modClk f).accs = s.accs := rfl
@[simp] theorem State.modClk_xin (s : State) (f : Clocks → Clocks) : (s.modClk f).xin = s.xin := rfl
@[simp] theorem State.modClk_shares (s : State) (f : Clocks → Clocks) : (s.modClk f).shares = s.shares := rfl
@[simp] theorem State.modClk_buckets (s : State) (f : Clocks → Clocks) : (s.modClk f).buckets = s.buckets := rfl
@[simp] theorem State.modClk_chargeRest (s : State) (f : Clocks → Clocks) : (s.modClk f).chargeRest = s.chargeRest := rfl
@[simp] theorem State.modClk_spillWrites (s : State) (f : Clocks → Clocks) : (s.modClk f).spillWrites = s.spillWrites := rfl
@[simp] theorem State.modClk_spillKey (s : State) (f : Clocks → Clocks) : (s.modClk f).spillKey = s.spillKey := rfl
@[simp] theorem State.modClk_rsp (s : State) (f : Clocks → Clocks) : (s.modClk f).rsp = s.rsp := rfl
@[simp] theorem State.modClk_grants (s : State) (f : Clocks → Clocks) : (s.modClk f).grants = s.grants := rfl
@[simp] theorem State.modClk_chanLoad (s : State) (f : Clocks → Clocks) : (s.modClk f).chanLoad = s.chanLoad := rfl
@[simp] theorem State.modClk_trayLoad (s : State) (f : Clocks → Clocks) : (s.modClk f).trayLoad = s.trayLoad := rfl
@[simp] theorem State.modClk_scrubs (s : State) (f : Clocks → Clocks) : (s.modClk f).scrubs = s.scrubs := rfl
@[simp] theorem State.modClk_winStart (s : State) (f : Clocks → Clocks) : (s.modClk f).winStart = s.winStart := rfl
@[simp] theorem State.modClk_imbC (s : State) (f : Clocks → Clocks) : (s.modClk f).imbC = s.imbC := rfl
@[simp] theorem State.modClk_imbT (s : State) (f : Clocks → Clocks) : (s.modClk f).imbT = s.imbT := rfl
@[simp] theorem State.modClk_crashed (s : State) (f : Clocks → Clocks) : (s.modClk f).crashed = s.crashed := rfl
@[simp] theorem State.modClk_viral (s : State) (f : Clocks → Clocks) : (s.modClk f).viral = s.viral := rfl
@[simp] theorem State.modClk_devq (s : State) (f : Clocks → Clocks) : (s.modClk f).devq = s.devq := rfl
@[simp] theorem State.modClk_devFault (s : State) (f : Clocks → Clocks) : (s.modClk f).devFault = s.devFault := rfl
@[simp] theorem State.modClk_teardowns (s : State) (f : Clocks → Clocks) : (s.modClk f).teardowns = s.teardowns := rfl
@[simp] theorem State.modClk_devResetDue (s : State) (f : Clocks → Clocks) : (s.modClk f).devResetDue = s.devResetDue := rfl
@[simp] theorem State.modClk_pwr (s : State) (f : Clocks → Clocks) : (s.modClk f).pwr = s.pwr := rfl
@[simp] theorem State.modClk_pilot (s : State) (f : Clocks → Clocks) : (s.modClk f).pilot = s.pilot := rfl
@[simp] theorem State.modClk_link (s : State) (f : Clocks → Clocks) : (s.modClk f).link = s.link := rfl
@[simp] theorem State.modClk_anchors (s : State) (f : Clocks → Clocks) : (s.modClk f).anchors = s.anchors := rfl
@[simp] theorem State.modClk_nv (s : State) (f : Clocks → Clocks) : (s.modClk f).nv = s.nv := rfl
@[simp] theorem State.modClk_running (s : State) (f : Clocks → Clocks) : (s.modClk f).running = s.running := rfl
@[simp] theorem State.modClk_island (s : State) (f : Clocks → Clocks) : (s.modClk f).island = s.island := rfl
@[simp] theorem State.modClk_kdRec (s : State) (f : Clocks → Clocks) : (s.modClk f).kdRec = s.kdRec := rfl
@[simp] theorem State.modClk_kdStaged (s : State) (f : Clocks → Clocks) : (s.modClk f).kdStaged = s.kdStaged := rfl
@[simp] theorem State.modClk_tenantKeys (s : State) (f : Clocks → Clocks) : (s.modClk f).tenantKeys = s.tenantKeys := rfl
@[simp] theorem State.modClk_manHash (s : State) (f : Clocks → Clocks) : (s.modClk f).manHash = s.manHash := rfl
@[simp] theorem State.modClk_ev (s : State) (f : Clocks → Clocks) : (s.modClk f).ev = s.ev := rfl
@[simp] theorem State.modClk_mgmt (s : State) (f : Clocks → Clocks) : (s.modClk f).mgmt = s.mgmt := rfl
@[simp] theorem State.modClk_tap (s : State) (f : Clocks → Clocks) : (s.modClk f).tap = s.tap := rfl
@[simp] theorem State.modClk_mir (s : State) (f : Clocks → Clocks) : (s.modClk f).mir = s.mir := rfl
@[simp] theorem State.modClk_views (s : State) (f : Clocks → Clocks) : (s.modClk f).views = s.views := rfl
@[simp] theorem State.modClk_out (s : State) (f : Clocks → Clocks) : (s.modClk f).out = s.out := rfl

/-! ### modPilot -/

@[simp] theorem State.modPilot_pending (s : State) (f : Pilot → Pilot) : (s.modPilot f).pending = s.pending := rfl
@[simp] theorem State.modPilot_regs (s : State) (f : Pilot → Pilot) : (s.modPilot f).regs = s.regs := rfl
@[simp] theorem State.modPilot_staged (s : State) (f : Pilot → Pilot) : (s.modPilot f).staged = s.staged := rfl
@[simp] theorem State.modPilot_sl (s : State) (f : Pilot → Pilot) : (s.modPilot f).sl = s.sl := rfl
@[simp] theorem State.modPilot_now (s : State) (f : Pilot → Pilot) : (s.modPilot f).now = s.now := rfl
@[simp] theorem State.modPilot_rng (s : State) (f : Pilot → Pilot) : (s.modPilot f).rng = s.rng := rfl
@[simp] theorem State.modPilot_nextId (s : State) (f : Pilot → Pilot) : (s.modPilot f).nextId = s.nextId := rfl
@[simp] theorem State.modPilot_ctxs (s : State) (f : Pilot → Pilot) : (s.modPilot f).ctxs = s.ctxs := rfl
@[simp] theorem State.modPilot_ctxGens (s : State) (f : Pilot → Pilot) : (s.modPilot f).ctxGens = s.ctxGens := rfl
@[simp] theorem State.modPilot_moons (s : State) (f : Pilot → Pilot) : (s.modPilot f).moons = s.moons := rfl
@[simp] theorem State.modPilot_objs (s : State) (f : Pilot → Pilot) : (s.modPilot f).objs = s.objs := rfl
@[simp] theorem State.modPilot_placeKey (s : State) (f : Pilot → Pilot) : (s.modPilot f).placeKey = s.placeKey := rfl
@[simp] theorem State.modPilot_tagGen (s : State) (f : Pilot → Pilot) : (s.modPilot f).tagGen = s.tagGen := rfl
@[simp] theorem State.modPilot_ownPbr (s : State) (f : Pilot → Pilot) : (s.modPilot f).ownPbr = s.ownPbr := rfl
@[simp] theorem State.modPilot_parts (s : State) (f : Pilot → Pilot) : (s.modPilot f).parts = s.parts := rfl
@[simp] theorem State.modPilot_qps (s : State) (f : Pilot → Pilot) : (s.modPilot f).qps = s.qps := rfl
@[simp] theorem State.modPilot_own (s : State) (f : Pilot → Pilot) : (s.modPilot f).own = s.own := rfl
@[simp] theorem State.modPilot_reqs (s : State) (f : Pilot → Pilot) : (s.modPilot f).reqs = s.reqs := rfl
@[simp] theorem State.modPilot_nmes (s : State) (f : Pilot → Pilot) : (s.modPilot f).nmes = s.nmes := rfl
@[simp] theorem State.modPilot_fills (s : State) (f : Pilot → Pilot) : (s.modPilot f).fills = s.fills := rfl
@[simp] theorem State.modPilot_dir (s : State) (f : Pilot → Pilot) : (s.modPilot f).dir = s.dir := rfl
@[simp] theorem State.modPilot_snoops (s : State) (f : Pilot → Pilot) : (s.modPilot f).snoops = s.snoops := rfl
@[simp] theorem State.modPilot_hot (s : State) (f : Pilot → Pilot) : (s.modPilot f).hot = s.hot := rfl
@[simp] theorem State.modPilot_accs (s : State) (f : Pilot → Pilot) : (s.modPilot f).accs = s.accs := rfl
@[simp] theorem State.modPilot_xin (s : State) (f : Pilot → Pilot) : (s.modPilot f).xin = s.xin := rfl
@[simp] theorem State.modPilot_shares (s : State) (f : Pilot → Pilot) : (s.modPilot f).shares = s.shares := rfl
@[simp] theorem State.modPilot_buckets (s : State) (f : Pilot → Pilot) : (s.modPilot f).buckets = s.buckets := rfl
@[simp] theorem State.modPilot_chargeRest (s : State) (f : Pilot → Pilot) : (s.modPilot f).chargeRest = s.chargeRest := rfl
@[simp] theorem State.modPilot_spillWrites (s : State) (f : Pilot → Pilot) : (s.modPilot f).spillWrites = s.spillWrites := rfl
@[simp] theorem State.modPilot_spillKey (s : State) (f : Pilot → Pilot) : (s.modPilot f).spillKey = s.spillKey := rfl
@[simp] theorem State.modPilot_rsp (s : State) (f : Pilot → Pilot) : (s.modPilot f).rsp = s.rsp := rfl
@[simp] theorem State.modPilot_grants (s : State) (f : Pilot → Pilot) : (s.modPilot f).grants = s.grants := rfl
@[simp] theorem State.modPilot_chanLoad (s : State) (f : Pilot → Pilot) : (s.modPilot f).chanLoad = s.chanLoad := rfl
@[simp] theorem State.modPilot_trayLoad (s : State) (f : Pilot → Pilot) : (s.modPilot f).trayLoad = s.trayLoad := rfl
@[simp] theorem State.modPilot_scrubs (s : State) (f : Pilot → Pilot) : (s.modPilot f).scrubs = s.scrubs := rfl
@[simp] theorem State.modPilot_winStart (s : State) (f : Pilot → Pilot) : (s.modPilot f).winStart = s.winStart := rfl
@[simp] theorem State.modPilot_imbC (s : State) (f : Pilot → Pilot) : (s.modPilot f).imbC = s.imbC := rfl
@[simp] theorem State.modPilot_imbT (s : State) (f : Pilot → Pilot) : (s.modPilot f).imbT = s.imbT := rfl
@[simp] theorem State.modPilot_crashed (s : State) (f : Pilot → Pilot) : (s.modPilot f).crashed = s.crashed := rfl
@[simp] theorem State.modPilot_viral (s : State) (f : Pilot → Pilot) : (s.modPilot f).viral = s.viral := rfl
@[simp] theorem State.modPilot_devq (s : State) (f : Pilot → Pilot) : (s.modPilot f).devq = s.devq := rfl
@[simp] theorem State.modPilot_devFault (s : State) (f : Pilot → Pilot) : (s.modPilot f).devFault = s.devFault := rfl
@[simp] theorem State.modPilot_teardowns (s : State) (f : Pilot → Pilot) : (s.modPilot f).teardowns = s.teardowns := rfl
@[simp] theorem State.modPilot_devResetDue (s : State) (f : Pilot → Pilot) : (s.modPilot f).devResetDue = s.devResetDue := rfl
@[simp] theorem State.modPilot_pwr (s : State) (f : Pilot → Pilot) : (s.modPilot f).pwr = s.pwr := rfl
@[simp] theorem State.modPilot_clk (s : State) (f : Pilot → Pilot) : (s.modPilot f).clk = s.clk := rfl
@[simp] theorem State.modPilot_link (s : State) (f : Pilot → Pilot) : (s.modPilot f).link = s.link := rfl
@[simp] theorem State.modPilot_anchors (s : State) (f : Pilot → Pilot) : (s.modPilot f).anchors = s.anchors := rfl
@[simp] theorem State.modPilot_nv (s : State) (f : Pilot → Pilot) : (s.modPilot f).nv = s.nv := rfl
@[simp] theorem State.modPilot_running (s : State) (f : Pilot → Pilot) : (s.modPilot f).running = s.running := rfl
@[simp] theorem State.modPilot_island (s : State) (f : Pilot → Pilot) : (s.modPilot f).island = s.island := rfl
@[simp] theorem State.modPilot_kdRec (s : State) (f : Pilot → Pilot) : (s.modPilot f).kdRec = s.kdRec := rfl
@[simp] theorem State.modPilot_kdStaged (s : State) (f : Pilot → Pilot) : (s.modPilot f).kdStaged = s.kdStaged := rfl
@[simp] theorem State.modPilot_tenantKeys (s : State) (f : Pilot → Pilot) : (s.modPilot f).tenantKeys = s.tenantKeys := rfl
@[simp] theorem State.modPilot_manHash (s : State) (f : Pilot → Pilot) : (s.modPilot f).manHash = s.manHash := rfl
@[simp] theorem State.modPilot_ev (s : State) (f : Pilot → Pilot) : (s.modPilot f).ev = s.ev := rfl
@[simp] theorem State.modPilot_mgmt (s : State) (f : Pilot → Pilot) : (s.modPilot f).mgmt = s.mgmt := rfl
@[simp] theorem State.modPilot_tap (s : State) (f : Pilot → Pilot) : (s.modPilot f).tap = s.tap := rfl
@[simp] theorem State.modPilot_mir (s : State) (f : Pilot → Pilot) : (s.modPilot f).mir = s.mir := rfl
@[simp] theorem State.modPilot_views (s : State) (f : Pilot → Pilot) : (s.modPilot f).views = s.views := rfl
@[simp] theorem State.modPilot_out (s : State) (f : Pilot → Pilot) : (s.modPilot f).out = s.out := rfl

/-! ### modLink -/

@[simp] theorem State.modLink_pending (s : State) (f : Links → Links) : (s.modLink f).pending = s.pending := rfl
@[simp] theorem State.modLink_regs (s : State) (f : Links → Links) : (s.modLink f).regs = s.regs := rfl
@[simp] theorem State.modLink_staged (s : State) (f : Links → Links) : (s.modLink f).staged = s.staged := rfl
@[simp] theorem State.modLink_sl (s : State) (f : Links → Links) : (s.modLink f).sl = s.sl := rfl
@[simp] theorem State.modLink_now (s : State) (f : Links → Links) : (s.modLink f).now = s.now := rfl
@[simp] theorem State.modLink_rng (s : State) (f : Links → Links) : (s.modLink f).rng = s.rng := rfl
@[simp] theorem State.modLink_nextId (s : State) (f : Links → Links) : (s.modLink f).nextId = s.nextId := rfl
@[simp] theorem State.modLink_ctxs (s : State) (f : Links → Links) : (s.modLink f).ctxs = s.ctxs := rfl
@[simp] theorem State.modLink_ctxGens (s : State) (f : Links → Links) : (s.modLink f).ctxGens = s.ctxGens := rfl
@[simp] theorem State.modLink_moons (s : State) (f : Links → Links) : (s.modLink f).moons = s.moons := rfl
@[simp] theorem State.modLink_objs (s : State) (f : Links → Links) : (s.modLink f).objs = s.objs := rfl
@[simp] theorem State.modLink_placeKey (s : State) (f : Links → Links) : (s.modLink f).placeKey = s.placeKey := rfl
@[simp] theorem State.modLink_tagGen (s : State) (f : Links → Links) : (s.modLink f).tagGen = s.tagGen := rfl
@[simp] theorem State.modLink_ownPbr (s : State) (f : Links → Links) : (s.modLink f).ownPbr = s.ownPbr := rfl
@[simp] theorem State.modLink_parts (s : State) (f : Links → Links) : (s.modLink f).parts = s.parts := rfl
@[simp] theorem State.modLink_qps (s : State) (f : Links → Links) : (s.modLink f).qps = s.qps := rfl
@[simp] theorem State.modLink_own (s : State) (f : Links → Links) : (s.modLink f).own = s.own := rfl
@[simp] theorem State.modLink_reqs (s : State) (f : Links → Links) : (s.modLink f).reqs = s.reqs := rfl
@[simp] theorem State.modLink_nmes (s : State) (f : Links → Links) : (s.modLink f).nmes = s.nmes := rfl
@[simp] theorem State.modLink_fills (s : State) (f : Links → Links) : (s.modLink f).fills = s.fills := rfl
@[simp] theorem State.modLink_dir (s : State) (f : Links → Links) : (s.modLink f).dir = s.dir := rfl
@[simp] theorem State.modLink_snoops (s : State) (f : Links → Links) : (s.modLink f).snoops = s.snoops := rfl
@[simp] theorem State.modLink_hot (s : State) (f : Links → Links) : (s.modLink f).hot = s.hot := rfl
@[simp] theorem State.modLink_accs (s : State) (f : Links → Links) : (s.modLink f).accs = s.accs := rfl
@[simp] theorem State.modLink_xin (s : State) (f : Links → Links) : (s.modLink f).xin = s.xin := rfl
@[simp] theorem State.modLink_shares (s : State) (f : Links → Links) : (s.modLink f).shares = s.shares := rfl
@[simp] theorem State.modLink_buckets (s : State) (f : Links → Links) : (s.modLink f).buckets = s.buckets := rfl
@[simp] theorem State.modLink_chargeRest (s : State) (f : Links → Links) : (s.modLink f).chargeRest = s.chargeRest := rfl
@[simp] theorem State.modLink_spillWrites (s : State) (f : Links → Links) : (s.modLink f).spillWrites = s.spillWrites := rfl
@[simp] theorem State.modLink_spillKey (s : State) (f : Links → Links) : (s.modLink f).spillKey = s.spillKey := rfl
@[simp] theorem State.modLink_rsp (s : State) (f : Links → Links) : (s.modLink f).rsp = s.rsp := rfl
@[simp] theorem State.modLink_grants (s : State) (f : Links → Links) : (s.modLink f).grants = s.grants := rfl
@[simp] theorem State.modLink_chanLoad (s : State) (f : Links → Links) : (s.modLink f).chanLoad = s.chanLoad := rfl
@[simp] theorem State.modLink_trayLoad (s : State) (f : Links → Links) : (s.modLink f).trayLoad = s.trayLoad := rfl
@[simp] theorem State.modLink_scrubs (s : State) (f : Links → Links) : (s.modLink f).scrubs = s.scrubs := rfl
@[simp] theorem State.modLink_winStart (s : State) (f : Links → Links) : (s.modLink f).winStart = s.winStart := rfl
@[simp] theorem State.modLink_imbC (s : State) (f : Links → Links) : (s.modLink f).imbC = s.imbC := rfl
@[simp] theorem State.modLink_imbT (s : State) (f : Links → Links) : (s.modLink f).imbT = s.imbT := rfl
@[simp] theorem State.modLink_crashed (s : State) (f : Links → Links) : (s.modLink f).crashed = s.crashed := rfl
@[simp] theorem State.modLink_viral (s : State) (f : Links → Links) : (s.modLink f).viral = s.viral := rfl
@[simp] theorem State.modLink_devq (s : State) (f : Links → Links) : (s.modLink f).devq = s.devq := rfl
@[simp] theorem State.modLink_devFault (s : State) (f : Links → Links) : (s.modLink f).devFault = s.devFault := rfl
@[simp] theorem State.modLink_teardowns (s : State) (f : Links → Links) : (s.modLink f).teardowns = s.teardowns := rfl
@[simp] theorem State.modLink_devResetDue (s : State) (f : Links → Links) : (s.modLink f).devResetDue = s.devResetDue := rfl
@[simp] theorem State.modLink_pwr (s : State) (f : Links → Links) : (s.modLink f).pwr = s.pwr := rfl
@[simp] theorem State.modLink_clk (s : State) (f : Links → Links) : (s.modLink f).clk = s.clk := rfl
@[simp] theorem State.modLink_pilot (s : State) (f : Links → Links) : (s.modLink f).pilot = s.pilot := rfl
@[simp] theorem State.modLink_anchors (s : State) (f : Links → Links) : (s.modLink f).anchors = s.anchors := rfl
@[simp] theorem State.modLink_nv (s : State) (f : Links → Links) : (s.modLink f).nv = s.nv := rfl
@[simp] theorem State.modLink_running (s : State) (f : Links → Links) : (s.modLink f).running = s.running := rfl
@[simp] theorem State.modLink_island (s : State) (f : Links → Links) : (s.modLink f).island = s.island := rfl
@[simp] theorem State.modLink_kdRec (s : State) (f : Links → Links) : (s.modLink f).kdRec = s.kdRec := rfl
@[simp] theorem State.modLink_kdStaged (s : State) (f : Links → Links) : (s.modLink f).kdStaged = s.kdStaged := rfl
@[simp] theorem State.modLink_tenantKeys (s : State) (f : Links → Links) : (s.modLink f).tenantKeys = s.tenantKeys := rfl
@[simp] theorem State.modLink_manHash (s : State) (f : Links → Links) : (s.modLink f).manHash = s.manHash := rfl
@[simp] theorem State.modLink_ev (s : State) (f : Links → Links) : (s.modLink f).ev = s.ev := rfl
@[simp] theorem State.modLink_mgmt (s : State) (f : Links → Links) : (s.modLink f).mgmt = s.mgmt := rfl
@[simp] theorem State.modLink_tap (s : State) (f : Links → Links) : (s.modLink f).tap = s.tap := rfl
@[simp] theorem State.modLink_mir (s : State) (f : Links → Links) : (s.modLink f).mir = s.mir := rfl
@[simp] theorem State.modLink_views (s : State) (f : Links → Links) : (s.modLink f).views = s.views := rfl
@[simp] theorem State.modLink_out (s : State) (f : Links → Links) : (s.modLink f).out = s.out := rfl

/-! ### modMir -/

@[simp] theorem State.modMir_pending (s : State) (f : Mirror → Mirror) : (s.modMir f).pending = s.pending := rfl
@[simp] theorem State.modMir_regs (s : State) (f : Mirror → Mirror) : (s.modMir f).regs = s.regs := rfl
@[simp] theorem State.modMir_staged (s : State) (f : Mirror → Mirror) : (s.modMir f).staged = s.staged := rfl
@[simp] theorem State.modMir_sl (s : State) (f : Mirror → Mirror) : (s.modMir f).sl = s.sl := rfl
@[simp] theorem State.modMir_now (s : State) (f : Mirror → Mirror) : (s.modMir f).now = s.now := rfl
@[simp] theorem State.modMir_rng (s : State) (f : Mirror → Mirror) : (s.modMir f).rng = s.rng := rfl
@[simp] theorem State.modMir_nextId (s : State) (f : Mirror → Mirror) : (s.modMir f).nextId = s.nextId := rfl
@[simp] theorem State.modMir_ctxs (s : State) (f : Mirror → Mirror) : (s.modMir f).ctxs = s.ctxs := rfl
@[simp] theorem State.modMir_ctxGens (s : State) (f : Mirror → Mirror) : (s.modMir f).ctxGens = s.ctxGens := rfl
@[simp] theorem State.modMir_moons (s : State) (f : Mirror → Mirror) : (s.modMir f).moons = s.moons := rfl
@[simp] theorem State.modMir_objs (s : State) (f : Mirror → Mirror) : (s.modMir f).objs = s.objs := rfl
@[simp] theorem State.modMir_placeKey (s : State) (f : Mirror → Mirror) : (s.modMir f).placeKey = s.placeKey := rfl
@[simp] theorem State.modMir_tagGen (s : State) (f : Mirror → Mirror) : (s.modMir f).tagGen = s.tagGen := rfl
@[simp] theorem State.modMir_ownPbr (s : State) (f : Mirror → Mirror) : (s.modMir f).ownPbr = s.ownPbr := rfl
@[simp] theorem State.modMir_parts (s : State) (f : Mirror → Mirror) : (s.modMir f).parts = s.parts := rfl
@[simp] theorem State.modMir_qps (s : State) (f : Mirror → Mirror) : (s.modMir f).qps = s.qps := rfl
@[simp] theorem State.modMir_own (s : State) (f : Mirror → Mirror) : (s.modMir f).own = s.own := rfl
@[simp] theorem State.modMir_reqs (s : State) (f : Mirror → Mirror) : (s.modMir f).reqs = s.reqs := rfl
@[simp] theorem State.modMir_nmes (s : State) (f : Mirror → Mirror) : (s.modMir f).nmes = s.nmes := rfl
@[simp] theorem State.modMir_fills (s : State) (f : Mirror → Mirror) : (s.modMir f).fills = s.fills := rfl
@[simp] theorem State.modMir_dir (s : State) (f : Mirror → Mirror) : (s.modMir f).dir = s.dir := rfl
@[simp] theorem State.modMir_snoops (s : State) (f : Mirror → Mirror) : (s.modMir f).snoops = s.snoops := rfl
@[simp] theorem State.modMir_hot (s : State) (f : Mirror → Mirror) : (s.modMir f).hot = s.hot := rfl
@[simp] theorem State.modMir_accs (s : State) (f : Mirror → Mirror) : (s.modMir f).accs = s.accs := rfl
@[simp] theorem State.modMir_xin (s : State) (f : Mirror → Mirror) : (s.modMir f).xin = s.xin := rfl
@[simp] theorem State.modMir_shares (s : State) (f : Mirror → Mirror) : (s.modMir f).shares = s.shares := rfl
@[simp] theorem State.modMir_buckets (s : State) (f : Mirror → Mirror) : (s.modMir f).buckets = s.buckets := rfl
@[simp] theorem State.modMir_chargeRest (s : State) (f : Mirror → Mirror) : (s.modMir f).chargeRest = s.chargeRest := rfl
@[simp] theorem State.modMir_spillWrites (s : State) (f : Mirror → Mirror) : (s.modMir f).spillWrites = s.spillWrites := rfl
@[simp] theorem State.modMir_spillKey (s : State) (f : Mirror → Mirror) : (s.modMir f).spillKey = s.spillKey := rfl
@[simp] theorem State.modMir_rsp (s : State) (f : Mirror → Mirror) : (s.modMir f).rsp = s.rsp := rfl
@[simp] theorem State.modMir_grants (s : State) (f : Mirror → Mirror) : (s.modMir f).grants = s.grants := rfl
@[simp] theorem State.modMir_chanLoad (s : State) (f : Mirror → Mirror) : (s.modMir f).chanLoad = s.chanLoad := rfl
@[simp] theorem State.modMir_trayLoad (s : State) (f : Mirror → Mirror) : (s.modMir f).trayLoad = s.trayLoad := rfl
@[simp] theorem State.modMir_scrubs (s : State) (f : Mirror → Mirror) : (s.modMir f).scrubs = s.scrubs := rfl
@[simp] theorem State.modMir_winStart (s : State) (f : Mirror → Mirror) : (s.modMir f).winStart = s.winStart := rfl
@[simp] theorem State.modMir_imbC (s : State) (f : Mirror → Mirror) : (s.modMir f).imbC = s.imbC := rfl
@[simp] theorem State.modMir_imbT (s : State) (f : Mirror → Mirror) : (s.modMir f).imbT = s.imbT := rfl
@[simp] theorem State.modMir_crashed (s : State) (f : Mirror → Mirror) : (s.modMir f).crashed = s.crashed := rfl
@[simp] theorem State.modMir_viral (s : State) (f : Mirror → Mirror) : (s.modMir f).viral = s.viral := rfl
@[simp] theorem State.modMir_devq (s : State) (f : Mirror → Mirror) : (s.modMir f).devq = s.devq := rfl
@[simp] theorem State.modMir_devFault (s : State) (f : Mirror → Mirror) : (s.modMir f).devFault = s.devFault := rfl
@[simp] theorem State.modMir_teardowns (s : State) (f : Mirror → Mirror) : (s.modMir f).teardowns = s.teardowns := rfl
@[simp] theorem State.modMir_devResetDue (s : State) (f : Mirror → Mirror) : (s.modMir f).devResetDue = s.devResetDue := rfl
@[simp] theorem State.modMir_pwr (s : State) (f : Mirror → Mirror) : (s.modMir f).pwr = s.pwr := rfl
@[simp] theorem State.modMir_clk (s : State) (f : Mirror → Mirror) : (s.modMir f).clk = s.clk := rfl
@[simp] theorem State.modMir_pilot (s : State) (f : Mirror → Mirror) : (s.modMir f).pilot = s.pilot := rfl
@[simp] theorem State.modMir_link (s : State) (f : Mirror → Mirror) : (s.modMir f).link = s.link := rfl
@[simp] theorem State.modMir_anchors (s : State) (f : Mirror → Mirror) : (s.modMir f).anchors = s.anchors := rfl
@[simp] theorem State.modMir_nv (s : State) (f : Mirror → Mirror) : (s.modMir f).nv = s.nv := rfl
@[simp] theorem State.modMir_running (s : State) (f : Mirror → Mirror) : (s.modMir f).running = s.running := rfl
@[simp] theorem State.modMir_island (s : State) (f : Mirror → Mirror) : (s.modMir f).island = s.island := rfl
@[simp] theorem State.modMir_kdRec (s : State) (f : Mirror → Mirror) : (s.modMir f).kdRec = s.kdRec := rfl
@[simp] theorem State.modMir_kdStaged (s : State) (f : Mirror → Mirror) : (s.modMir f).kdStaged = s.kdStaged := rfl
@[simp] theorem State.modMir_tenantKeys (s : State) (f : Mirror → Mirror) : (s.modMir f).tenantKeys = s.tenantKeys := rfl
@[simp] theorem State.modMir_manHash (s : State) (f : Mirror → Mirror) : (s.modMir f).manHash = s.manHash := rfl
@[simp] theorem State.modMir_ev (s : State) (f : Mirror → Mirror) : (s.modMir f).ev = s.ev := rfl
@[simp] theorem State.modMir_mgmt (s : State) (f : Mirror → Mirror) : (s.modMir f).mgmt = s.mgmt := rfl
@[simp] theorem State.modMir_tap (s : State) (f : Mirror → Mirror) : (s.modMir f).tap = s.tap := rfl
@[simp] theorem State.modMir_views (s : State) (f : Mirror → Mirror) : (s.modMir f).views = s.views := rfl
@[simp] theorem State.modMir_out (s : State) (f : Mirror → Mirror) : (s.modMir f).out = s.out := rfl

/-! ### setService -/

@[simp] theorem State.setService_pending (s : State) (q : Nat) (d : List Byte) (v : Service) : (s.setService q d v).pending = s.pending := rfl
@[simp] theorem State.setService_regs (s : State) (q : Nat) (d : List Byte) (v : Service) : (s.setService q d v).regs = s.regs := rfl
@[simp] theorem State.setService_staged (s : State) (q : Nat) (d : List Byte) (v : Service) : (s.setService q d v).staged = s.staged := rfl
@[simp] theorem State.setService_sl (s : State) (q : Nat) (d : List Byte) (v : Service) : (s.setService q d v).sl = s.sl := rfl
@[simp] theorem State.setService_now (s : State) (q : Nat) (d : List Byte) (v : Service) : (s.setService q d v).now = s.now := rfl
@[simp] theorem State.setService_rng (s : State) (q : Nat) (d : List Byte) (v : Service) : (s.setService q d v).rng = s.rng := rfl
@[simp] theorem State.setService_nextId (s : State) (q : Nat) (d : List Byte) (v : Service) : (s.setService q d v).nextId = s.nextId := rfl
@[simp] theorem State.setService_ctxs (s : State) (q : Nat) (d : List Byte) (v : Service) : (s.setService q d v).ctxs = s.ctxs := rfl
@[simp] theorem State.setService_ctxGens (s : State) (q : Nat) (d : List Byte) (v : Service) : (s.setService q d v).ctxGens = s.ctxGens := rfl
@[simp] theorem State.setService_moons (s : State) (q : Nat) (d : List Byte) (v : Service) : (s.setService q d v).moons = s.moons := rfl
@[simp] theorem State.setService_objs (s : State) (q : Nat) (d : List Byte) (v : Service) : (s.setService q d v).objs = s.objs := rfl
@[simp] theorem State.setService_placeKey (s : State) (q : Nat) (d : List Byte) (v : Service) : (s.setService q d v).placeKey = s.placeKey := rfl
@[simp] theorem State.setService_tagGen (s : State) (q : Nat) (d : List Byte) (v : Service) : (s.setService q d v).tagGen = s.tagGen := rfl
@[simp] theorem State.setService_ownPbr (s : State) (q : Nat) (d : List Byte) (v : Service) : (s.setService q d v).ownPbr = s.ownPbr := rfl
@[simp] theorem State.setService_parts (s : State) (q : Nat) (d : List Byte) (v : Service) : (s.setService q d v).parts = s.parts := rfl
@[simp] theorem State.setService_own (s : State) (q : Nat) (d : List Byte) (v : Service) : (s.setService q d v).own = s.own := rfl
@[simp] theorem State.setService_reqs (s : State) (q : Nat) (d : List Byte) (v : Service) : (s.setService q d v).reqs = s.reqs := rfl
@[simp] theorem State.setService_nmes (s : State) (q : Nat) (d : List Byte) (v : Service) : (s.setService q d v).nmes = s.nmes := rfl
@[simp] theorem State.setService_fills (s : State) (q : Nat) (d : List Byte) (v : Service) : (s.setService q d v).fills = s.fills := rfl
@[simp] theorem State.setService_dir (s : State) (q : Nat) (d : List Byte) (v : Service) : (s.setService q d v).dir = s.dir := rfl
@[simp] theorem State.setService_snoops (s : State) (q : Nat) (d : List Byte) (v : Service) : (s.setService q d v).snoops = s.snoops := rfl
@[simp] theorem State.setService_hot (s : State) (q : Nat) (d : List Byte) (v : Service) : (s.setService q d v).hot = s.hot := rfl
@[simp] theorem State.setService_accs (s : State) (q : Nat) (d : List Byte) (v : Service) : (s.setService q d v).accs = s.accs := rfl
@[simp] theorem State.setService_xin (s : State) (q : Nat) (d : List Byte) (v : Service) : (s.setService q d v).xin = s.xin := rfl
@[simp] theorem State.setService_shares (s : State) (q : Nat) (d : List Byte) (v : Service) : (s.setService q d v).shares = s.shares := rfl
@[simp] theorem State.setService_buckets (s : State) (q : Nat) (d : List Byte) (v : Service) : (s.setService q d v).buckets = s.buckets := rfl
@[simp] theorem State.setService_chargeRest (s : State) (q : Nat) (d : List Byte) (v : Service) : (s.setService q d v).chargeRest = s.chargeRest := rfl
@[simp] theorem State.setService_spillWrites (s : State) (q : Nat) (d : List Byte) (v : Service) : (s.setService q d v).spillWrites = s.spillWrites := rfl
@[simp] theorem State.setService_spillKey (s : State) (q : Nat) (d : List Byte) (v : Service) : (s.setService q d v).spillKey = s.spillKey := rfl
@[simp] theorem State.setService_rsp (s : State) (q : Nat) (d : List Byte) (v : Service) : (s.setService q d v).rsp = s.rsp := rfl
@[simp] theorem State.setService_grants (s : State) (q : Nat) (d : List Byte) (v : Service) : (s.setService q d v).grants = s.grants := rfl
@[simp] theorem State.setService_chanLoad (s : State) (q : Nat) (d : List Byte) (v : Service) : (s.setService q d v).chanLoad = s.chanLoad := rfl
@[simp] theorem State.setService_trayLoad (s : State) (q : Nat) (d : List Byte) (v : Service) : (s.setService q d v).trayLoad = s.trayLoad := rfl
@[simp] theorem State.setService_scrubs (s : State) (q : Nat) (d : List Byte) (v : Service) : (s.setService q d v).scrubs = s.scrubs := rfl
@[simp] theorem State.setService_winStart (s : State) (q : Nat) (d : List Byte) (v : Service) : (s.setService q d v).winStart = s.winStart := rfl
@[simp] theorem State.setService_imbC (s : State) (q : Nat) (d : List Byte) (v : Service) : (s.setService q d v).imbC = s.imbC := rfl
@[simp] theorem State.setService_imbT (s : State) (q : Nat) (d : List Byte) (v : Service) : (s.setService q d v).imbT = s.imbT := rfl
@[simp] theorem State.setService_crashed (s : State) (q : Nat) (d : List Byte) (v : Service) : (s.setService q d v).crashed = s.crashed := rfl
@[simp] theorem State.setService_viral (s : State) (q : Nat) (d : List Byte) (v : Service) : (s.setService q d v).viral = s.viral := rfl
@[simp] theorem State.setService_devq (s : State) (q : Nat) (d : List Byte) (v : Service) : (s.setService q d v).devq = s.devq := rfl
@[simp] theorem State.setService_devFault (s : State) (q : Nat) (d : List Byte) (v : Service) : (s.setService q d v).devFault = s.devFault := rfl
@[simp] theorem State.setService_teardowns (s : State) (q : Nat) (d : List Byte) (v : Service) : (s.setService q d v).teardowns = s.teardowns := rfl
@[simp] theorem State.setService_devResetDue (s : State) (q : Nat) (d : List Byte) (v : Service) : (s.setService q d v).devResetDue = s.devResetDue := rfl
@[simp] theorem State.setService_pwr (s : State) (q : Nat) (d : List Byte) (v : Service) : (s.setService q d v).pwr = s.pwr := rfl
@[simp] theorem State.setService_clk (s : State) (q : Nat) (d : List Byte) (v : Service) : (s.setService q d v).clk = s.clk := rfl
@[simp] theorem State.setService_pilot (s : State) (q : Nat) (d : List Byte) (v : Service) : (s.setService q d v).pilot = s.pilot := rfl
@[simp] theorem State.setService_link (s : State) (q : Nat) (d : List Byte) (v : Service) : (s.setService q d v).link = s.link := rfl
@[simp] theorem State.setService_anchors (s : State) (q : Nat) (d : List Byte) (v : Service) : (s.setService q d v).anchors = s.anchors := rfl
@[simp] theorem State.setService_nv (s : State) (q : Nat) (d : List Byte) (v : Service) : (s.setService q d v).nv = s.nv := rfl
@[simp] theorem State.setService_running (s : State) (q : Nat) (d : List Byte) (v : Service) : (s.setService q d v).running = s.running := rfl
@[simp] theorem State.setService_island (s : State) (q : Nat) (d : List Byte) (v : Service) : (s.setService q d v).island = s.island := rfl
@[simp] theorem State.setService_kdRec (s : State) (q : Nat) (d : List Byte) (v : Service) : (s.setService q d v).kdRec = s.kdRec := rfl
@[simp] theorem State.setService_kdStaged (s : State) (q : Nat) (d : List Byte) (v : Service) : (s.setService q d v).kdStaged = s.kdStaged := rfl
@[simp] theorem State.setService_tenantKeys (s : State) (q : Nat) (d : List Byte) (v : Service) : (s.setService q d v).tenantKeys = s.tenantKeys := rfl
@[simp] theorem State.setService_manHash (s : State) (q : Nat) (d : List Byte) (v : Service) : (s.setService q d v).manHash = s.manHash := rfl
@[simp] theorem State.setService_ev (s : State) (q : Nat) (d : List Byte) (v : Service) : (s.setService q d v).ev = s.ev := rfl
@[simp] theorem State.setService_mgmt (s : State) (q : Nat) (d : List Byte) (v : Service) : (s.setService q d v).mgmt = s.mgmt := rfl
@[simp] theorem State.setService_tap (s : State) (q : Nat) (d : List Byte) (v : Service) : (s.setService q d v).tap = s.tap := rfl
@[simp] theorem State.setService_mir (s : State) (q : Nat) (d : List Byte) (v : Service) : (s.setService q d v).mir = s.mir := rfl
@[simp] theorem State.setService_views (s : State) (q : Nat) (d : List Byte) (v : Service) : (s.setService q d v).views = s.views := rfl
@[simp] theorem State.setService_out (s : State) (q : Nat) (d : List Byte) (v : Service) : (s.setService q d v).out = s.out := rfl

/-! ### fresh -/

@[simp] theorem State.fresh_pending (s : State) : s.fresh.2.pending = s.pending := rfl
@[simp] theorem State.fresh_regs (s : State) : s.fresh.2.regs = s.regs := rfl
@[simp] theorem State.fresh_staged (s : State) : s.fresh.2.staged = s.staged := rfl
@[simp] theorem State.fresh_sl (s : State) : s.fresh.2.sl = s.sl := rfl
@[simp] theorem State.fresh_now (s : State) : s.fresh.2.now = s.now := rfl
@[simp] theorem State.fresh_rng (s : State) : s.fresh.2.rng = s.rng := rfl
@[simp] theorem State.fresh_ctxs (s : State) : s.fresh.2.ctxs = s.ctxs := rfl
@[simp] theorem State.fresh_ctxGens (s : State) : s.fresh.2.ctxGens = s.ctxGens := rfl
@[simp] theorem State.fresh_moons (s : State) : s.fresh.2.moons = s.moons := rfl
@[simp] theorem State.fresh_objs (s : State) : s.fresh.2.objs = s.objs := rfl
@[simp] theorem State.fresh_placeKey (s : State) : s.fresh.2.placeKey = s.placeKey := rfl
@[simp] theorem State.fresh_tagGen (s : State) : s.fresh.2.tagGen = s.tagGen := rfl
@[simp] theorem State.fresh_ownPbr (s : State) : s.fresh.2.ownPbr = s.ownPbr := rfl
@[simp] theorem State.fresh_parts (s : State) : s.fresh.2.parts = s.parts := rfl
@[simp] theorem State.fresh_qps (s : State) : s.fresh.2.qps = s.qps := rfl
@[simp] theorem State.fresh_own (s : State) : s.fresh.2.own = s.own := rfl
@[simp] theorem State.fresh_reqs (s : State) : s.fresh.2.reqs = s.reqs := rfl
@[simp] theorem State.fresh_nmes (s : State) : s.fresh.2.nmes = s.nmes := rfl
@[simp] theorem State.fresh_fills (s : State) : s.fresh.2.fills = s.fills := rfl
@[simp] theorem State.fresh_dir (s : State) : s.fresh.2.dir = s.dir := rfl
@[simp] theorem State.fresh_snoops (s : State) : s.fresh.2.snoops = s.snoops := rfl
@[simp] theorem State.fresh_hot (s : State) : s.fresh.2.hot = s.hot := rfl
@[simp] theorem State.fresh_accs (s : State) : s.fresh.2.accs = s.accs := rfl
@[simp] theorem State.fresh_xin (s : State) : s.fresh.2.xin = s.xin := rfl
@[simp] theorem State.fresh_shares (s : State) : s.fresh.2.shares = s.shares := rfl
@[simp] theorem State.fresh_buckets (s : State) : s.fresh.2.buckets = s.buckets := rfl
@[simp] theorem State.fresh_chargeRest (s : State) : s.fresh.2.chargeRest = s.chargeRest := rfl
@[simp] theorem State.fresh_spillWrites (s : State) : s.fresh.2.spillWrites = s.spillWrites := rfl
@[simp] theorem State.fresh_spillKey (s : State) : s.fresh.2.spillKey = s.spillKey := rfl
@[simp] theorem State.fresh_rsp (s : State) : s.fresh.2.rsp = s.rsp := rfl
@[simp] theorem State.fresh_grants (s : State) : s.fresh.2.grants = s.grants := rfl
@[simp] theorem State.fresh_chanLoad (s : State) : s.fresh.2.chanLoad = s.chanLoad := rfl
@[simp] theorem State.fresh_trayLoad (s : State) : s.fresh.2.trayLoad = s.trayLoad := rfl
@[simp] theorem State.fresh_scrubs (s : State) : s.fresh.2.scrubs = s.scrubs := rfl
@[simp] theorem State.fresh_winStart (s : State) : s.fresh.2.winStart = s.winStart := rfl
@[simp] theorem State.fresh_imbC (s : State) : s.fresh.2.imbC = s.imbC := rfl
@[simp] theorem State.fresh_imbT (s : State) : s.fresh.2.imbT = s.imbT := rfl
@[simp] theorem State.fresh_crashed (s : State) : s.fresh.2.crashed = s.crashed := rfl
@[simp] theorem State.fresh_viral (s : State) : s.fresh.2.viral = s.viral := rfl
@[simp] theorem State.fresh_devq (s : State) : s.fresh.2.devq = s.devq := rfl
@[simp] theorem State.fresh_devFault (s : State) : s.fresh.2.devFault = s.devFault := rfl
@[simp] theorem State.fresh_teardowns (s : State) : s.fresh.2.teardowns = s.teardowns := rfl
@[simp] theorem State.fresh_devResetDue (s : State) : s.fresh.2.devResetDue = s.devResetDue := rfl
@[simp] theorem State.fresh_pwr (s : State) : s.fresh.2.pwr = s.pwr := rfl
@[simp] theorem State.fresh_clk (s : State) : s.fresh.2.clk = s.clk := rfl
@[simp] theorem State.fresh_pilot (s : State) : s.fresh.2.pilot = s.pilot := rfl
@[simp] theorem State.fresh_link (s : State) : s.fresh.2.link = s.link := rfl
@[simp] theorem State.fresh_anchors (s : State) : s.fresh.2.anchors = s.anchors := rfl
@[simp] theorem State.fresh_nv (s : State) : s.fresh.2.nv = s.nv := rfl
@[simp] theorem State.fresh_running (s : State) : s.fresh.2.running = s.running := rfl
@[simp] theorem State.fresh_island (s : State) : s.fresh.2.island = s.island := rfl
@[simp] theorem State.fresh_kdRec (s : State) : s.fresh.2.kdRec = s.kdRec := rfl
@[simp] theorem State.fresh_kdStaged (s : State) : s.fresh.2.kdStaged = s.kdStaged := rfl
@[simp] theorem State.fresh_tenantKeys (s : State) : s.fresh.2.tenantKeys = s.tenantKeys := rfl
@[simp] theorem State.fresh_manHash (s : State) : s.fresh.2.manHash = s.manHash := rfl
@[simp] theorem State.fresh_ev (s : State) : s.fresh.2.ev = s.ev := rfl
@[simp] theorem State.fresh_mgmt (s : State) : s.fresh.2.mgmt = s.mgmt := rfl
@[simp] theorem State.fresh_tap (s : State) : s.fresh.2.tap = s.tap := rfl
@[simp] theorem State.fresh_mir (s : State) : s.fresh.2.mir = s.mir := rfl
@[simp] theorem State.fresh_views (s : State) : s.fresh.2.views = s.views := rfl
@[simp] theorem State.fresh_out (s : State) : s.fresh.2.out = s.out := rfl

/-! ### drawTag -/

@[simp] theorem State.drawTag_pending (s : State) : s.drawTag.2.pending = s.pending := rfl
@[simp] theorem State.drawTag_regs (s : State) : s.drawTag.2.regs = s.regs := rfl
@[simp] theorem State.drawTag_staged (s : State) : s.drawTag.2.staged = s.staged := rfl
@[simp] theorem State.drawTag_sl (s : State) : s.drawTag.2.sl = s.sl := rfl
@[simp] theorem State.drawTag_now (s : State) : s.drawTag.2.now = s.now := rfl
@[simp] theorem State.drawTag_rng (s : State) : s.drawTag.2.rng = s.rng := rfl
@[simp] theorem State.drawTag_nextId (s : State) : s.drawTag.2.nextId = s.nextId := rfl
@[simp] theorem State.drawTag_ctxs (s : State) : s.drawTag.2.ctxs = s.ctxs := rfl
@[simp] theorem State.drawTag_ctxGens (s : State) : s.drawTag.2.ctxGens = s.ctxGens := rfl
@[simp] theorem State.drawTag_moons (s : State) : s.drawTag.2.moons = s.moons := rfl
@[simp] theorem State.drawTag_objs (s : State) : s.drawTag.2.objs = s.objs := rfl
@[simp] theorem State.drawTag_placeKey (s : State) : s.drawTag.2.placeKey = s.placeKey := rfl
@[simp] theorem State.drawTag_ownPbr (s : State) : s.drawTag.2.ownPbr = s.ownPbr := rfl
@[simp] theorem State.drawTag_parts (s : State) : s.drawTag.2.parts = s.parts := rfl
@[simp] theorem State.drawTag_qps (s : State) : s.drawTag.2.qps = s.qps := rfl
@[simp] theorem State.drawTag_own (s : State) : s.drawTag.2.own = s.own := rfl
@[simp] theorem State.drawTag_reqs (s : State) : s.drawTag.2.reqs = s.reqs := rfl
@[simp] theorem State.drawTag_nmes (s : State) : s.drawTag.2.nmes = s.nmes := rfl
@[simp] theorem State.drawTag_fills (s : State) : s.drawTag.2.fills = s.fills := rfl
@[simp] theorem State.drawTag_dir (s : State) : s.drawTag.2.dir = s.dir := rfl
@[simp] theorem State.drawTag_snoops (s : State) : s.drawTag.2.snoops = s.snoops := rfl
@[simp] theorem State.drawTag_hot (s : State) : s.drawTag.2.hot = s.hot := rfl
@[simp] theorem State.drawTag_accs (s : State) : s.drawTag.2.accs = s.accs := rfl
@[simp] theorem State.drawTag_xin (s : State) : s.drawTag.2.xin = s.xin := rfl
@[simp] theorem State.drawTag_shares (s : State) : s.drawTag.2.shares = s.shares := rfl
@[simp] theorem State.drawTag_buckets (s : State) : s.drawTag.2.buckets = s.buckets := rfl
@[simp] theorem State.drawTag_chargeRest (s : State) : s.drawTag.2.chargeRest = s.chargeRest := rfl
@[simp] theorem State.drawTag_spillWrites (s : State) : s.drawTag.2.spillWrites = s.spillWrites := rfl
@[simp] theorem State.drawTag_spillKey (s : State) : s.drawTag.2.spillKey = s.spillKey := rfl
@[simp] theorem State.drawTag_rsp (s : State) : s.drawTag.2.rsp = s.rsp := rfl
@[simp] theorem State.drawTag_grants (s : State) : s.drawTag.2.grants = s.grants := rfl
@[simp] theorem State.drawTag_chanLoad (s : State) : s.drawTag.2.chanLoad = s.chanLoad := rfl
@[simp] theorem State.drawTag_trayLoad (s : State) : s.drawTag.2.trayLoad = s.trayLoad := rfl
@[simp] theorem State.drawTag_scrubs (s : State) : s.drawTag.2.scrubs = s.scrubs := rfl
@[simp] theorem State.drawTag_winStart (s : State) : s.drawTag.2.winStart = s.winStart := rfl
@[simp] theorem State.drawTag_imbC (s : State) : s.drawTag.2.imbC = s.imbC := rfl
@[simp] theorem State.drawTag_imbT (s : State) : s.drawTag.2.imbT = s.imbT := rfl
@[simp] theorem State.drawTag_crashed (s : State) : s.drawTag.2.crashed = s.crashed := rfl
@[simp] theorem State.drawTag_viral (s : State) : s.drawTag.2.viral = s.viral := rfl
@[simp] theorem State.drawTag_devq (s : State) : s.drawTag.2.devq = s.devq := rfl
@[simp] theorem State.drawTag_devFault (s : State) : s.drawTag.2.devFault = s.devFault := rfl
@[simp] theorem State.drawTag_teardowns (s : State) : s.drawTag.2.teardowns = s.teardowns := rfl
@[simp] theorem State.drawTag_devResetDue (s : State) : s.drawTag.2.devResetDue = s.devResetDue := rfl
@[simp] theorem State.drawTag_pwr (s : State) : s.drawTag.2.pwr = s.pwr := rfl
@[simp] theorem State.drawTag_clk (s : State) : s.drawTag.2.clk = s.clk := rfl
@[simp] theorem State.drawTag_pilot (s : State) : s.drawTag.2.pilot = s.pilot := rfl
@[simp] theorem State.drawTag_link (s : State) : s.drawTag.2.link = s.link := rfl
@[simp] theorem State.drawTag_anchors (s : State) : s.drawTag.2.anchors = s.anchors := rfl
@[simp] theorem State.drawTag_nv (s : State) : s.drawTag.2.nv = s.nv := rfl
@[simp] theorem State.drawTag_running (s : State) : s.drawTag.2.running = s.running := rfl
@[simp] theorem State.drawTag_island (s : State) : s.drawTag.2.island = s.island := rfl
@[simp] theorem State.drawTag_kdRec (s : State) : s.drawTag.2.kdRec = s.kdRec := rfl
@[simp] theorem State.drawTag_kdStaged (s : State) : s.drawTag.2.kdStaged = s.kdStaged := rfl
@[simp] theorem State.drawTag_tenantKeys (s : State) : s.drawTag.2.tenantKeys = s.tenantKeys := rfl
@[simp] theorem State.drawTag_manHash (s : State) : s.drawTag.2.manHash = s.manHash := rfl
@[simp] theorem State.drawTag_ev (s : State) : s.drawTag.2.ev = s.ev := rfl
@[simp] theorem State.drawTag_mgmt (s : State) : s.drawTag.2.mgmt = s.mgmt := rfl
@[simp] theorem State.drawTag_tap (s : State) : s.drawTag.2.tap = s.tap := rfl
@[simp] theorem State.drawTag_mir (s : State) : s.drawTag.2.mir = s.mir := rfl
@[simp] theorem State.drawTag_views (s : State) : s.drawTag.2.views = s.views := rfl
@[simp] theorem State.drawTag_out (s : State) : s.drawTag.2.out = s.out := rfl

/-! ### draw -/

@[simp] theorem State.draw_pending (s : State) : s.draw.2.pending = s.pending := rfl
@[simp] theorem State.draw_regs (s : State) : s.draw.2.regs = s.regs := rfl
@[simp] theorem State.draw_staged (s : State) : s.draw.2.staged = s.staged := rfl
@[simp] theorem State.draw_sl (s : State) : s.draw.2.sl = s.sl := rfl
@[simp] theorem State.draw_now (s : State) : s.draw.2.now = s.now := rfl
@[simp] theorem State.draw_nextId (s : State) : s.draw.2.nextId = s.nextId := rfl
@[simp] theorem State.draw_ctxs (s : State) : s.draw.2.ctxs = s.ctxs := rfl
@[simp] theorem State.draw_ctxGens (s : State) : s.draw.2.ctxGens = s.ctxGens := rfl
@[simp] theorem State.draw_moons (s : State) : s.draw.2.moons = s.moons := rfl
@[simp] theorem State.draw_objs (s : State) : s.draw.2.objs = s.objs := rfl
@[simp] theorem State.draw_placeKey (s : State) : s.draw.2.placeKey = s.placeKey := rfl
@[simp] theorem State.draw_tagGen (s : State) : s.draw.2.tagGen = s.tagGen := rfl
@[simp] theorem State.draw_ownPbr (s : State) : s.draw.2.ownPbr = s.ownPbr := rfl
@[simp] theorem State.draw_parts (s : State) : s.draw.2.parts = s.parts := rfl
@[simp] theorem State.draw_qps (s : State) : s.draw.2.qps = s.qps := rfl
@[simp] theorem State.draw_own (s : State) : s.draw.2.own = s.own := rfl
@[simp] theorem State.draw_reqs (s : State) : s.draw.2.reqs = s.reqs := rfl
@[simp] theorem State.draw_nmes (s : State) : s.draw.2.nmes = s.nmes := rfl
@[simp] theorem State.draw_fills (s : State) : s.draw.2.fills = s.fills := rfl
@[simp] theorem State.draw_dir (s : State) : s.draw.2.dir = s.dir := rfl
@[simp] theorem State.draw_snoops (s : State) : s.draw.2.snoops = s.snoops := rfl
@[simp] theorem State.draw_hot (s : State) : s.draw.2.hot = s.hot := rfl
@[simp] theorem State.draw_accs (s : State) : s.draw.2.accs = s.accs := rfl
@[simp] theorem State.draw_xin (s : State) : s.draw.2.xin = s.xin := rfl
@[simp] theorem State.draw_shares (s : State) : s.draw.2.shares = s.shares := rfl
@[simp] theorem State.draw_buckets (s : State) : s.draw.2.buckets = s.buckets := rfl
@[simp] theorem State.draw_chargeRest (s : State) : s.draw.2.chargeRest = s.chargeRest := rfl
@[simp] theorem State.draw_spillWrites (s : State) : s.draw.2.spillWrites = s.spillWrites := rfl
@[simp] theorem State.draw_spillKey (s : State) : s.draw.2.spillKey = s.spillKey := rfl
@[simp] theorem State.draw_rsp (s : State) : s.draw.2.rsp = s.rsp := rfl
@[simp] theorem State.draw_grants (s : State) : s.draw.2.grants = s.grants := rfl
@[simp] theorem State.draw_chanLoad (s : State) : s.draw.2.chanLoad = s.chanLoad := rfl
@[simp] theorem State.draw_trayLoad (s : State) : s.draw.2.trayLoad = s.trayLoad := rfl
@[simp] theorem State.draw_scrubs (s : State) : s.draw.2.scrubs = s.scrubs := rfl
@[simp] theorem State.draw_winStart (s : State) : s.draw.2.winStart = s.winStart := rfl
@[simp] theorem State.draw_imbC (s : State) : s.draw.2.imbC = s.imbC := rfl
@[simp] theorem State.draw_imbT (s : State) : s.draw.2.imbT = s.imbT := rfl
@[simp] theorem State.draw_crashed (s : State) : s.draw.2.crashed = s.crashed := rfl
@[simp] theorem State.draw_viral (s : State) : s.draw.2.viral = s.viral := rfl
@[simp] theorem State.draw_devq (s : State) : s.draw.2.devq = s.devq := rfl
@[simp] theorem State.draw_devFault (s : State) : s.draw.2.devFault = s.devFault := rfl
@[simp] theorem State.draw_teardowns (s : State) : s.draw.2.teardowns = s.teardowns := rfl
@[simp] theorem State.draw_devResetDue (s : State) : s.draw.2.devResetDue = s.devResetDue := rfl
@[simp] theorem State.draw_pwr (s : State) : s.draw.2.pwr = s.pwr := rfl
@[simp] theorem State.draw_clk (s : State) : s.draw.2.clk = s.clk := rfl
@[simp] theorem State.draw_pilot (s : State) : s.draw.2.pilot = s.pilot := rfl
@[simp] theorem State.draw_link (s : State) : s.draw.2.link = s.link := rfl
@[simp] theorem State.draw_anchors (s : State) : s.draw.2.anchors = s.anchors := rfl
@[simp] theorem State.draw_nv (s : State) : s.draw.2.nv = s.nv := rfl
@[simp] theorem State.draw_running (s : State) : s.draw.2.running = s.running := rfl
@[simp] theorem State.draw_island (s : State) : s.draw.2.island = s.island := rfl
@[simp] theorem State.draw_kdRec (s : State) : s.draw.2.kdRec = s.kdRec := rfl
@[simp] theorem State.draw_kdStaged (s : State) : s.draw.2.kdStaged = s.kdStaged := rfl
@[simp] theorem State.draw_tenantKeys (s : State) : s.draw.2.tenantKeys = s.tenantKeys := rfl
@[simp] theorem State.draw_manHash (s : State) : s.draw.2.manHash = s.manHash := rfl
@[simp] theorem State.draw_ev (s : State) : s.draw.2.ev = s.ev := rfl
@[simp] theorem State.draw_mgmt (s : State) : s.draw.2.mgmt = s.mgmt := rfl
@[simp] theorem State.draw_tap (s : State) : s.draw.2.tap = s.tap := rfl
@[simp] theorem State.draw_mir (s : State) : s.draw.2.mir = s.mir := rfl
@[simp] theorem State.draw_views (s : State) : s.draw.2.views = s.views := rfl
@[simp] theorem State.draw_out (s : State) : s.draw.2.out = s.out := rfl

end Sys2Proof.Machine
end

