-- ==== Sys2Proof/Tests/Slice0.lean ====
section
/-!
SUPPORT. Tests of the model: an ill-formed term for each check of WellFormed, one state and operands that meet the hypotheses
of each statement, and single steps on a small device whose results are worked out from the spec.
-/
open Sys2Proof Sys2Proof.Machine

namespace Sys2Proof.Tests

-- One theorem at a time: kernel evaluations side by side take memory each.
set_option Elab.async false

/-! ### A small device -/

/-- A whole register written, whatever its access codes. -/
def poke (s : State) (r : RegName) (ix : List Nat) (v : Word) : State := (s.setRegW r ix v).setSlW r ix v

/-- A device in operation, before it is configured: power up, BAR0 open, its links' keys set, every unit in service. -/
def up : State :=
  poke (poke (poke { State.reset with
    pwr := { State.reset.pwr with phase := .ready }
    pilot := { State.reset.pilot with ready := true }
    ownPbr := some 7 } .LINK_PILOT_STAT [] (2 <<< 8)) .GLB_MOON_AVAIL [] (BitVec.allOnes 64)) .GLB_UNIT_AVAIL [] (BitVec.allOnes 64)

/-- Partition 1 valid, its owner and every other privilege held by the pilot host, queue pair 3 of partition 1, tenant 9 and
job 1 in service, key slot 5 LIVE in generation 1 of tenant 9 and partition 1. -/
def ready : State :=
  (poke (poke (poke (poke (poke up .PART_CFG_A [1] (1 <<< 63 + 1 <<< 47)) .PART_PRIV [] (BitVec.allOnes 64)) .CTX_QP_A [3]
    (1 <<< 63 + 31 <<< 56 + 1 <<< 52 + 4 <<< 48 + 4 <<< 44 + 9)) .SEC_KS_A [5] (1 <<< 32 + 9)) .SEC_KS_B [5] (1 <<< 60 + 1 <<< 59 + 1 <<< 5)).fset
    Reg.CTX_QP_C_JOB [3] 1

/-- A registered object of partition 1, of class 1, 1 MiB, readable and writable, validated. -/
def object : Obj :=
  { hgen := 1, size := 2 ^ 20, cls := 1, rd := true, wr := true, keyslot := 5, keyGen := 1, tenant := 9, decl := 0, salt := 0,
    pairs := [], data := [], written := [], poison := [], orphan := [], lost := [], validated := true, validating := false,
    releasing := false, extents := [], move := none, old := none }

/-- The reference of handle 1 of partition 1. -/
def ref1 : Nat := mkRef (2 ^ 28 + 1) 1

/-- The reference of handle 2 of partition 1, the program object. -/
def ref2 : Nat := mkRef (2 ^ 28 + 2) 1

/-- The number of an instruction word: the opcode in bits 127:120 and the fields below it, the lowest IMM (R89). -/
def wordNat (opc : Nat) (w : MWord) : Nat :=
  opc * 2 ^ 120 + w.fmt.toNat * 2 ^ 116 + w.md.toNat * 2 ^ 112 + bit01 w.pn * 2 ^ 111 + w.pr.toNat * 2 ^ 108 +
    w.dst.toNat * 2 ^ 103 + w.sa.toNat * 2 ^ 98 + w.sb.toNat * 2 ^ 93 + w.sc.toNat * 2 ^ 88 + w.aux.toNat * 2 ^ 80 +
    w.rsv.toNat * 2 ^ 64 + w.imm.toNat

/-- A program object with one instruction at a PC. -/
def program (pc opc : Nat) (w : MWord) : Obj := { object with wr := false, data := memPutNat [] pc 16 (wordNat opc w) }

/-- A state whose program object holds one instruction at a PC. -/
def holding (s : State) (pc opc : Nat) (w : MWord) : State :=
  { s with objs := kvSet s.objs (2 ^ 28 + 2) (program pc opc w) }

/-- A context of partition 1 resident in slot 0 and running, the line of its PC fetched. -/
def strand : Ctx :=
  { Ctx.opened [] 1 1 9 1 with
    job := 1, qp := 3, cls := 0, prog := ref2, phase := .resident, slot := some 0, running := true, winBytes := 65536, tunits := 64
    xa := List.replicate 4 XAcc.clear, walkers := List.replicate 2 ⟨0, 0, [], [], []⟩, ringSlots := 4, code := some 0 }

/-- The device with an object and a context 0. -/
def stocked (o : Obj) (y : Ctx) : State := { ready with objs := [(2 ^ 28 + 1, o)], ctxs := [(0, y)] }

/-- The device with the object above and a context 0. -/
def devOf (y : Ctx) : State := stocked object y

/-- The small device. -/
def dev : State := devOf strand

/-- Every field of a word reads back from its number. -/
theorem splitWord_wordNat (opc : Nat) (w : MWord) (h : opc < 256) : splitWord (wordNat opc w) = (opc, w) := by
  obtain ⟨fmt, md, pn, pr, dst, sa, sb, sc, aux, rsv, imm⟩ := w
  have a1 := fmt.isLt; have a2 := md.isLt; have a3 := pr.isLt; have a4 := dst.isLt; have a5 := sa.isLt; have a6 := sb.isLt
  have a7 := sc.isLt; have a8 := aux.isLt; have a9 := rsv.isLt; have a0 := imm.isLt
  have hp : bit01 pn < 2 := by cases pn <;> decide
  have hb : ∀ n, n = bit01 pn → (n == 1) = pn := by rintro _ rfl; cases pn <;> rfl
  simp only [splitWord, wordNat, bitsOf, bitAt]
  refine Prod.ext (by dsimp only; omega) ?_
  dsimp only
  congr 1
  · apply BitVec.eq_of_toNat_eq; rw [BitVec.toNat_ofNat]; omega
  · apply BitVec.eq_of_toNat_eq; rw [BitVec.toNat_ofNat]; omega
  · apply hb; omega
  all_goals (apply BitVec.eq_of_toNat_eq; rw [BitVec.toNat_ofNat]; omega)

/-- What makes a strand that has fetched its line issue the instruction its program object holds at its PC. -/
theorem runs_of (s : State) (slot c : Nat) (x : Ctx) (opc : Nat) (w : MWord) (ho : opc < 256) (h1 : s.occupant slot = some c)
    (h2 : s.ctx? c = some x) (h3 : (s.mayIssue x && s.moonInService (slot / 8)) = true) (h4 : x.prog = ref2)
    (h5 : x.code = some (lineOf x.pc)) (h6 : x.pc % 16 = 0 ∧ x.pc + 16 ≤ 2 ^ 20)
    (h7 : s.slotTaken slot (IssueSlot.of opc) = false) : Runs (holding s x.pc opc w) slot c x opc w := by
  have hobj : (holding s x.pc opc w).objOfRef x.prog = some (program x.pc opc w) := by
    have h : (holding s x.pc opc w).obj? (2 ^ 28 + 2) = some (program x.pc opc w) := kvGet?_kvSet_self _ _ _
    have e : refHandle ref2 = 2 ^ 28 + 2 := by decide
    rw [h4, State.objOfRef, e, h]
    rfl
  have hw : wordNat opc w < 256 ^ 16 := by
    obtain ⟨fmt, md, pn, pr, dst, sa, sb, sc, aux, rsv, imm⟩ := w
    have hp : bit01 pn < 2 := by cases pn <;> decide
    simp only [wordNat]
    omega
  refine ⟨⟨?_, ?_, ?_⟩, ?_, h7⟩
  · have e1 : (holding s x.pc opc w).occupant slot = some c := h1
    have e2 : (holding s x.pc opc w).ctx? c = some x := h2
    have e3 : ((holding s x.pc opc w).mayIssue x && (holding s x.pc opc w).moonInService (slot / 8)) = true := h3
    simp only [State.issuer, e1, e2, e3, if_true]
  · simp only [State.fetchOk, hobj]
    simp [h6.1, program, object]
    omega
  · simp [Ctx.holdsCode, h5]
  · simp only [State.wordAtPc, hobj, program]
    rw [memNat_memPutNat _ _ _ _ rfl hw, splitWord_wordNat opc w ho]

/-- The strand of the small device issues whatever instruction its program holds. -/
theorem strand_runs (opc : Nat) (w : MWord) (ho : opc < 256) : Runs (holding dev 0 opc w) 0 0 strand opc w :=
  runs_of dev 0 0 strand opc w ho (by decide) rfl (by decide) rfl rfl (by decide) (by cases IssueSlot.of opc <;> decide)

/-- What makes the context of such a device issue the instruction its program holds at its PC. -/
theorem stocked_runs (o : Obj) (y : Ctx) (opc : Nat) (w : MWord) (h0 : opc < 256) (h1 : (stocked o y).occupant 0 = some 0)
    (h3 : ((stocked o y).mayIssue y && (stocked o y).moonInService 0) = true) (h4 : y.prog = ref2)
    (h5 : y.code = some (lineOf y.pc)) (h6 : y.pc % 16 = 0 ∧ y.pc + 16 ≤ 2 ^ 20) :
    Runs (holding (stocked o y) y.pc opc w) 0 0 y opc w :=
  runs_of (stocked o y) 0 0 y opc w h0 h1 rfl h3 h4 h5 h6 (by cases IssueSlot.of opc <;> rfl)

/-- The device of a context whose program holds one instruction at its PC. -/
def loaded (y : Ctx) (opc : Nat) (w : MWord) : State := holding (devOf y) y.pc opc w

/-- What makes that context issue the instruction. -/
theorem loaded_runs (y : Ctx) (opc : Nat) (w : MWord) (h0 : opc < 256) (h1 : (devOf y).occupant 0 = some 0)
    (h3 : ((devOf y).mayIssue y && (devOf y).moonInService 0) = true) (h4 : y.prog = ref2) (h5 : y.code = some (lineOf y.pc))
    (h6 : y.pc % 16 = 0 ∧ y.pc + 16 ≤ 2 ^ 20) : Runs (loaded y opc w) 0 0 y opc w :=
  stocked_runs object y opc w h0 h1 h3 h4 h5 h6

/-- A word that gives only AUX and IMM. -/
def word (aux imm : Nat) : MWord := { MWord.gate false 0 with aux := BitVec.ofNat 8 aux, imm := BitVec.ofNat 64 imm }


/-! ### One state and operands for the hypotheses of each statement: the Moons -/

theorem witness_ScalarInstructions :
    (∀ opc w, opc < 256 → Runs (holding dev 0 opc w) 0 0 strand opc w) ∧ strand.enabled (MWord.gate false 0) 0 = true ∧
      (63#64).toNat < 64 :=
  ⟨strand_runs, by decide, by decide⟩

/-- A context whose s2 holds a window of one byte. -/
def described : Ctx := strand.setS 2 0x100000000

theorem witness_ControlAndStreamDescriptors :
    (∀ opc w, opc < 256 → Runs (loaded described opc w) 0 0 described opc w) ∧ described.enabled (MWord.gate false 0) 0 = true ∧
      (0xFFFFFFFF#64).toNat < 2 ^ 32 ∧ described.comets = [] ∧
      (⟨described.getS 0, described.getS 1, described.getS 2, 3⟩ : Desc).formOk = true ∧
      (⟨described.getS 0, described.getS 1, described.getS 2, 4⟩ : Desc).formOk = false :=
  ⟨fun _ _ h => loaded_runs _ _ _ h (by decide) (by decide) rfl rfl (by decide), by decide, by decide, rfl, by decide, by decide⟩

theorem witness_VectorArithmetic :
    (∀ opc w, opc < 256 → Runs (holding dev 0 opc w) 0 0 strand opc w) ∧ Fmt.ofCode (6#4).toNat = some .int32 ∧ (6#4).toNat ∈ [0, 1, 2, 5, 6] :=
  ⟨strand_runs, by decide, by decide⟩

theorem witness_VectorMoves :
    (∀ opc w, opc < 256 → Runs (holding dev 0 opc w) 0 0 strand opc w) ∧ Fmt.ofCode (7#4).toNat = some .u8 ∧ (255#64).toNat < Fmt.u8.elems ∧
      strand.enabled (MWord.gate false 0) 0 = true ∧ Fmt.u8.elems ≤ (256#64).toNat :=
  ⟨strand_runs, by decide, by decide, by decide, by decide⟩

theorem witness_ElementsReadBack : 63 < Fmt.fp32.elems ∧ 256 ≤ 256 := by decide

theorem witness_PredicateResults :
    (∀ opc w, opc < 256 → Runs (holding dev 0 opc w) 0 0 strand opc w) ∧ Fmt.ofCode (7#4).toNat = some .u8 ∧ (7#4).toNat ∈ [0, 1, 2, 5, 6, 7] ∧ (6#4).toNat ≤ 6 ∧
      strand.enabled (MWord.gate false 0) 0 = true ∧ (256#64).toNat ≤ 256 :=
  ⟨strand_runs, by decide, by decide, by decide, by decide, by decide⟩

theorem witness_VectorFunctions :
    (∀ opc w, opc < 256 → Runs (holding dev 0 opc w) 0 0 strand opc w) ∧ Fmt.ofCode (0#4).toNat = some .fp32 ∧ Fmt.ofCode (5#4).toNat = some .int8 ∧ (5#4).toNat < 7 ∧
      3 * min Fmt.fp32.elems Fmt.int8.elems < max Fmt.fp32.elems Fmt.int8.elems ∧ (0#4).toNat ∈ [0, 1, 2] ∧
      (0#4).toNat ∈ [0, 1, 2, 5, 6] :=
  ⟨strand_runs, by decide, by decide, by decide, by decide, by decide, by decide⟩

/-- A context with a wide window, s1 = 0, s2 = 2^20, s3 = 2^22, s4 = 2^22 + 2^20. -/
def wide : Ctx :=
  (((({ strand with winBytes := 2 ^ 23 }.setS 1 0).setS 2 0x100000).setS 3 0x400000).setS 4 0x500000).setS 5 0

theorem wide_runs : (∀ opc w, opc < 256 → Runs (loaded wide opc w) 0 0 wide opc w) :=
  fun _ _ h => loaded_runs _ _ _ h (by decide) (by decide) rfl rfl (by decide)

theorem witness_TableBuilding :
    (∀ opc w, opc < 256 → Runs (loaded wide opc w) 0 0 wide opc w) ∧ wide.enabled (MWord.gate false 0) 0 = true ∧ wide.comets = [] ∧
      ((1#4).toNat ∈ [1, 2] ∧ Fmt.ofCode (1#4).toNat = some .bf16 ∧ 8 * 512 ≤ 4096 ∧
        wide.scratchOk (wide.getS 1).toNat (1 * 8 * 512 * 2) 2 = true ∧
        wide.scratchOk (wide.getS 2).toNat (8 * 256 * 512 * 2) 2 = true ∧
        wide.tableOk (wide.getS 5).toNat (1 * 8 * tableUnits .fp32) (tableUnits .fp32) = true) ∧
      (wide.scratchOk (wide.getS 1).toNat (64 * 256) 256 = true ∧ wide.tableOk (wide.getS 5).toNat 64 1 = true) ∧
      (wide.scratchOk (wide.getS 1).toNat (64 * 64 * 8 * 2) 2 = true ∧
        wide.scratchOk (wide.getS 2).toNat (64 * 256 * 8 * 2) 2 = true ∧
        wide.scratchOk (wide.getS 3).toNat (64 * 64) 1 = true) :=
  ⟨wide_runs, by decide, rfl, by decide, by decide, by decide⟩

theorem witness_LookupAccumulate :
    (∀ opc w, opc < 256 → Runs (loaded wide opc w) 0 0 wide opc w) ∧ wide.enabled (MWord.gate false 0) 0 = true ∧ wide.comets = [] ∧
      Fmt.ofCode (0#4).toNat = some .fp32 ∧
      (overlap 0x400000 (4096 * 1 * 4) 0 4096 = false ∧ overlap 0x500000 4 0 4096 = false ∧
        wide.scratchOk (wide.getS 1).toNat 4096 1 = true ∧
        wide.tableOk (wide.getS 5).toNat (1 * 1 * tableUnits .fp32) (tableUnits .fp32) = true ∧
        wide.scratchOk (wide.getS 3).toNat (4096 * 1 * 4) 4 = true ∧ wide.scratchOk (wide.getS 4).toNat 4 4 = true) ∧
      (overlap 0x400000 (4096 * 64 * 4) 0 (4096 * 64 * 4) = false ∧ overlap 0x400000 (4096 * 64 * 4) 0x100000 256 = false ∧
        wide.scratchOk (wide.getS 1).toNat (4096 * 64 * 4) 4 = true ∧ wide.scratchOk (wide.getS 2).toNat 256 4 = true ∧
        wide.scratchOk (wide.getS 3).toNat (4096 * 64 * 4) 4 = true) ∧
      (overlap 0x400000 (1 * 64 * 256 * 4) 0 (4096 * 1 * 4) = false ∧ overlap 0x500000 4 0 (4096 * 1 * 4) = false ∧
        overlap 0x400000 (1 * 64 * 256 * 4) 0x100000 (4096 * 64) = false ∧ overlap 0x500000 4 0x100000 (4096 * 64) = false ∧
        wide.scratchOk (wide.getS 2).toNat (4096 * 64) 1 = true ∧
        wide.scratchOk (wide.getS 3).toNat (1 * 64 * 256 * 4) 4 = true) :=
  ⟨wide_runs, by decide, rfl, by decide, by decide, by decide, by decide⟩

/-- A context whose accumulator 1 is at its add limit and due for normalisation. -/
def counted : Ctx :=
  { strand with
    xa := [XAcc.clear, { XAcc.clear with count := 2 ^ 48 - 1, sinceNorm := 2 ^ 30 }, XAcc.clear, XAcc.clear]
    scratch := memWrite [] 92 [1] }

theorem witness_ExactAccumulators :
    (∀ opc w, opc < 256 → Runs (loaded counted opc w) 0 0 counted opc w) ∧ counted.comets = [] ∧ Fmt.ofCode (0#4).toNat = some .fp32 ∧
      3 < counted.xa.length ∧ (0#4).toNat ∈ [0, 1, 2, 3, 4, 6] ∧
      ((counted.getX 0).count + 64 < 2 ^ 48 ∧ (counted.getX 0).sinceNorm < 2 ^ 30) ∧ 2 ^ 48 ≤ (counted.getX 1).count + 64 ∧
      (0 + 4 ≤ strand.xa.length ∧ ∀ q ∈ strand.xa, q.count + 1 < 2 ^ 48 ∧ q.sinceNorm < 2 ^ 30) ∧
      counted.enabled (MWord.gate false 0) 0 = true ∧ counted.scratchOk 0 88 8 = true ∧ counted.scratchOk 88 88 8 = true ∧
      XAcc.ofImage (memRead counted.scratch 0 88) ≠ none ∧ XAcc.ofImage (memRead counted.scratch 88 88) = none ∧
      (counted.getX 0).count + (counted.getX 1).count < 2 ^ 48 ∧ 2 ^ 30 ≤ (counted.getX 1).sinceNorm :=
  ⟨fun _ _ h => loaded_runs _ _ _ h (by decide) (by decide) rfl rfl (by decide), rfl, by decide, by decide, by decide, by decide,
    by decide, by decide, by decide, by decide, by decide, by decide, by decide, by decide, by decide⟩

/-- A context with an open chain of four products. -/
def chained : Ctx := { wide with chain := some { Chain.start 64 1 .int8 .int8 with k := 4 } }

theorem witness_MatrixMultiply :
    (∀ opc w, opc < 256 → Runs (loaded chained opc w) 0 0 chained opc w) ∧ chained.enabled (MWord.gate false 0) 0 = true ∧ chained.comets = [] ∧
      Fmt.ofCode (5#4).toNat = some .int8 ∧ mmaFormats Fmt.int8.code Fmt.int8.code = true ∧
      (∃ q, chained.chain = some q ∧ q.m = 64 ∧ q.n = 1 ∧ q.fa = .int8 ∧ q.fb = .int8 ∧ q.k + 16384 ≤ 2 ^ 32) ∧
      (wide.scratchOk 0 (64 * 16384 * 1) 1 = true ∧ wide.scratchOk 0x100000 (16384 * 1 * 1) 1 = true ∧
        wide.scratchOk 0x400000 (64 * 1 * 4) 4 = true ∧ overlap 0x400000 (64 * 1 * 4) 0 (64 * 16384) = false ∧
        overlap 0x400000 (64 * 1 * 4) 0x100000 16384 = false) :=
  ⟨fun _ _ h => loaded_runs _ _ _ h (by decide) (by decide) rfl rfl (by decide), by decide, rfl, by decide, by decide,
    ⟨_, rfl, rfl, rfl, rfl, rfl, by decide⟩, by decide⟩


/-! ### One state and operands for the hypotheses of each statement: memory, messages, tiles and walkers -/

/-- A stream descriptor of the object: OFFSET, LENGTH, STRIDE, RECLEN, KIND, FMT, and RD, WR in the low bits (R103). -/
def descOf (off len stride reclen kind fmt rw : Nat) : Desc :=
  ⟨BitVec.ofNat 64 off, BitVec.ofNat 64 ref1, BitVec.ofNat 64 (len * 2 ^ 32 + stride),
    BitVec.ofNat 64 (reclen * 2 ^ 48 + kind * 2 ^ 36 + fmt * 2 ^ 32 + rw)⟩

/-- A context with a linear descriptor 1, a strided descriptor 2, a gather descriptor 3 of items of 20 bytes whose list of
items 0, 5 and 9 is at s3, and a word descriptor 4. -/
def streamer : Ctx :=
  ({ ((((strand.setD 1 (descOf 64 4096 0 0 0 0 3)).setD 2 (descOf 64 4096 256 20 1 0 3)).setD 3
      (descOf 64 4096 0 20 2 0 3)).setD 4 (descOf 8 8 0 0 0 0 3)) with
    scratch := memWrite (memWrite [] 4104 [5]) 4112 [9] }.setS 3 4096)

theorem streamer_runs (opc : Nat) (w : MWord) (h : opc < 256) : Runs (loaded streamer opc w) 0 0 streamer opc w :=
  loaded_runs _ _ _ h (by decide) (by decide) rfl rfl (by decide)

theorem witness_StreamMovesBegin :
    (∀ opc w, opc < 256 → Runs (loaded streamer opc w) 0 0 streamer opc w) ∧ streamer.enabled (MWord.gate false 0) 0 = true ∧
      (∀ e ∈ [(0x80, word 1 4096), (0x82, word 1 (4096 + 2 ^ 32)), (0x81, word 1 4096), (0x83, word 1 (4096 + 2 ^ 32))],
        let s := loaded streamer e.1 e.2
        MemoryReady s 0 streamer ∧
        (let d := streamer.getD 1
         let rs := streamRecords d 0 4096 (fun _ => 0)
         d.kind ≠ 3 ∧ streamer.scratchOk 0 4096 1 = true ∧ inObject (s.descSize d) rs = true ∧ inWindow d rs = true ∧
           (d.rd = true ∧ s.descOk streamer d true false = true) ∧ d.wr = true ∧ s.descOk streamer d false true = true)) ∧
      (let s := loaded streamer 0x80 { word 3 3 with sb := 3 }
       let d := streamer.getD 3
       let b := streamer.getS 3
       let rs := streamRecords d b 3 (fun r => memNat streamer.scratch (b.toNat + 8 * r) 8)
       d.kind = 2 ∧ streamer.scratchOk 0 (3 * d.reclen) 1 = true ∧ streamer.scratchOk b.toNat (8 * 3) 8 = true ∧
         inObject (s.descSize d) rs = true ∧ inWindow d rs = true ∧ s.descOk streamer d true false = true) :=
  ⟨streamer_runs, by decide, by unfold MemoryReady; decide, by decide⟩

/-- An object that holds a compressed tensor of eight blocks of one format. -/
def tensor : Obj := { object with cls := 3, wr := false, data := memWrite [] 8 (natBytes 8 40) }

/-- A context with a descriptor 4 of the tensor's last block, and s2 = 0. -/
def expander : Ctx := { strand.setD 4 (descOf 1 8 0 0 3 1 1) with pc := 16 }

/-- The small device whose object is that tensor and whose program holds an instruction. -/
def tensorDev (opc : Nat) (w : MWord) : State := holding (stocked tensor expander) 16 opc w

theorem tensor_runs (opc : Nat) (w : MWord) (h : opc < 256) : Runs (tensorDev opc w) 0 0 expander opc w :=
  stocked_runs tensor expander opc w h (by decide) (by decide) rfl rfl (by decide)

set_option maxRecDepth 8000 in
theorem witness_WordAndBlockAccessesBegin :
    ((∀ opc w, opc < 256 → Runs (loaded streamer opc w) 0 0 streamer opc w) ∧ streamer.enabled (MWord.gate false 0) 0 = true ∧
      (∀ e ∈ [(0x85, word 4 0), (0x86, word 4 0)],
        let s := loaded streamer e.1 e.2
        let d := streamer.getD 4
        MemoryReady s 0 streamer ∧ d.rd = true ∧ d.wr = true ∧ d.kind ≠ 3 ∧ s.descOk streamer d true true = true ∧
          d.offset % 8 = 0 ∧ d.offset + 0 + 8 ≤ s.descSize d ∧ 0 + 8 ≤ d.length) ∧
      (let s := loaded streamer 0xA4 (word 1 256)
       let d := streamer.getD 1
       MemoryReady s 0 streamer ∧ d.rd = true ∧ d.kind = 0 ∧ streamer.lanesOk (word 1 0) 0 8 256 8 = true ∧
         s.descOk streamer d true false = true ∧ d.offset + d.length ≤ s.descSize d)) ∧
    ((∀ opc w, opc < 256 → Runs (tensorDev opc w) 0 0 expander opc w) ∧ expander.enabled (MWord.gate false 0) 0 = true ∧
      (let s := tensorDev 0x84 { word 4 8 with fmt := 1 }
       let d := expander.getD 4
       MemoryReady s 0 expander ∧ d.kind = 3 ∧ d.compressedForm = true ∧ d.fmt = 1 ∧
         expander.scratchOk 0 (8 * 256 * 2) 2 = true ∧ s.compressedOk expander d = true ∧ 0 + 8 ≤ d.length ∧
         s.streamsFull 0 = false)) :=
  ⟨⟨streamer_runs, by decide, by unfold MemoryReady; decide, by unfold MemoryReady; decide⟩,
    tensor_runs, by decide, by unfold MemoryReady; decide⟩

theorem witness_MatrixMultiply_exp :
    (∀ opc w, opc < 256 → Runs (tensorDev opc w) 0 0 expander opc w) ∧
      (let s := tensorDev 0x40 { word (1 + 16 * 4) (64 + 64 * 2 ^ 16 + 32 * 2 ^ 32) with fmt := 1, md := 7 }
       let d := expander.getD 4
       Fmt.bf16 ≠ .int8 ∧ 32 * 64 % 256 = 0 ∧ d.kind = 3 ∧ d.compressedForm = true ∧ d.fmt = Fmt.bf16.code ∧
         s.compressedOk expander d = true ∧ 1 ≤ d.length ∧ 32 * 64 / 256 ≤ d.length ∧ MemoryReady s 0 expander ∧
         s.streamsFull 0 = false ∧ expander.scratchOk 0 (64 * 32 * 2) 2 = true ∧
         expander.scratchOk 8192 (64 * 64 * 4) 4 = true ∧ overlap 8192 (64 * 64 * 4) 0 (64 * 32 * 2) = false) :=
  ⟨tensor_runs, by unfold MemoryReady; decide⟩

/-- A context that takes part in orbits, with a message in its ring, counter 0 at 2^31 − 1 and counter 1 at 2^31. -/
def talker : Ctx :=
  { (strand.setAc 0 0x7FFFFFFF).setAc 1 0x80000000 with enroll := true, ring := [⟨List.replicate 64 1, [2, 3]⟩] }

/-- A route entry of kind 3: to a context of this device, or of the device with PBR ID 9. -/
def routeTo (isLocal : Bool) : List Byte := natBytes 8 (3 + (if isLocal then 2 ^ 16 else 0)) ++ natBytes 56 9

/-- The device of that context with a route map of one entry. -/
def mapped (isLocal : Bool) : State :=
  (devOf talker).modPart 1 (fun p => { p with routeCur := ⟨2, [(0, routeTo isLocal)]⟩ })

theorem mapped_runs (l : Bool) (opc : Nat) (w : MWord) (h : opc < 256) :
    Runs (holding (mapped l) 0 opc w) 0 0 talker opc w :=
  runs_of (mapped l) 0 0 talker opc w h (by cases l <;> decide) rfl (by cases l <;> decide) rfl rfl (by decide)
    (by cases IssueSlot.of opc <;> rfl)

theorem witness_SynchronisationAndMessages :
    (∀ opc w, opc < 256 → Runs (loaded talker opc w) 0 0 talker opc w) ∧
    (talker.enabled (MWord.gate false 0) 0 = true ∧ (talker.getAc 0 - (talker.getS 1).setWidth 32).toNat < 2 ^ 31 ∧
      2 ^ 31 ≤ (talker.getAc 1 - (talker.getS 1).setWidth 32).toNat ∧ talker.enroll = true) ∧
    ((∀ opc w, opc < 256 → Runs (loaded strand opc w) 0 0 strand opc w) ∧ strand.enroll = false) ∧
    (∀ l opc w, opc < 256 → Runs (holding (mapped l) 0 opc w) 0 0 talker opc w) ∧
    (∀ l, let s := holding (mapped l) 0 0x98 (word 0 (4032 + 2 ^ 16))
      MemoryReady s 0 talker ∧ talker.scratchOk 0 4032 1 = true ∧ reKind (kvGet [] (s.part 1).routeCur.entries 0) = 3 ∧
      reLocal (kvGet [] (s.part 1).routeCur.entries 0) = l ∧ s.suppressed 1 = false) ∧
    (talker.scratchOk 0 4096 64 = true ∧ talker.ringSlots ≠ 0 ∧ talker.ring ≠ []) ∧
    (MemoryReady (loaded strand 0x99 (word 0 0)) 0 strand ∧ strand.ringSlots ≠ 0 ∧ strand.ring = []) := by
  unfold MemoryReady
  exact ⟨fun _ _ h => loaded_runs _ _ _ h (by decide) (by decide) rfl rfl (by decide), by decide, ⟨fun _ _ h => loaded_runs _ _ _ h (by decide) (by decide) rfl rfl (by decide), rfl⟩, mapped_runs, by decide, by decide, by decide⟩

/-- A step of five tiles of two units, of which tile 0 is claimed by context 0 and tile 2 committed. -/
def fiveTiles : Step :=
  { job := 1, id := 0, t := 5, units := 2, moons := [0], dealt := dealOver [] (List.range 5) [0], claims := [(1, 0)]
    done := [], slots := [(2, List.replicate 512 7)], finished := false }

/-- The small device with that step. -/
def stepDev : State := dev.modPart 1 (fun p => { p with steps := [fiveTiles] })

theorem step_runs (opc : Nat) (w : MWord) (h : opc < 256) : Runs (holding stepDev 0 opc w) 0 0 strand opc w :=
  runs_of stepDev 0 0 strand opc w h (by decide) rfl (by decide) rfl rfl (by decide) (by cases IssueSlot.of opc <;> rfl)

/-- A context of two walkers: a queue of three entries that is full in the first, nothing in the second. -/
def walking : Ctx :=
  { strand with walkers := [⟨4, 3, [⟨1, 2⟩, ⟨2, 3⟩, ⟨2, 4⟩, ⟨3, 1⟩], [⟨1, 2⟩, ⟨2, 3⟩, ⟨2, 4⟩], [5]⟩, ⟨0, 0, [], [], []⟩] }

set_option maxRecDepth 8000 in
theorem witness_TilesMergesAndWalkers :
    ((∀ opc w, opc < 256 → Runs (holding dev 0 opc w) 0 0 strand opc w) ∧ strand.enabled (MWord.gate false 0) 0 = true ∧
      strand.comets = [] ∧
      (let s := holding dev 0 0x9C (word 0 (1 + 256 * 2 ^ 32))
       s.step? 1 1 0 = none ∧ ((s.part 1).steps.filter (fun q => decide (q.job = 1) && !q.finished)).length < 5 ∧
         s.mergeUsed 1 + (1 + 1) * 256 * 256 ≤ s.mergeSpace 1)) ∧
    ((∀ opc w, opc < 256 → Runs (holding stepDev 0 opc w) 0 0 strand opc w) ∧
      (let s := holding stepDev 0 0x9D (word 0 0)
       s.step? 1 1 0 = some fiveTiles) ∧
      (fiveTiles.finished = false ∧ fiveTiles.claimable 0 = some 0 ∧ strand.scratchOk 0 (2 * 256) 256 = true ∧
        kvGet? fiveTiles.claims 1 = some 0) ∧
      kvGet? fiveTiles.slots 2 = some (List.replicate 512 7)) ∧
    ((∀ opc w, opc < 256 → Runs (loaded walking opc w) 0 0 walking opc w) ∧ walking.comets = [] ∧
      1 < walking.walkers.length ∧ walking.enabled (MWord.gate false 0) 0 = true ∧ (walking.getW 0).queue ≠ [] ∧
      (walking.getW 1).queue = [] ∧ walking.scratchOk 0 (16 * (walking.getW 0).top.length) 16 = true ∧
      walking.lanesOk (word 0 0) 0 16 256 16 = true ∧ walking.lanesOk (word 0 0) 0 8 256 8 = true) :=
  ⟨⟨strand_runs, by decide⟩, ⟨step_runs, rfl, by decide, rfl⟩, fun _ _ h => loaded_runs _ _ _ h (by decide) (by decide) rfl rfl (by decide), by decide⟩

/-- A store of two pieces. -/
def storeOp : Outst := { Outst.blank (2 ^ 28 + 1) [0, 1] true (.store [(60, [1, 2]), (100, [3])]) with id := 9 }

/-- A load of two pieces. -/
def loadOp : Outst := { Outst.blank (2 ^ 28 + 1) [0, 1] false (.load [(60, 2, 8), (100, 1, 0)]) with id := 9 }

/-- A message of one byte from context 0 of this device, number 0 of its entry, on channel 5. -/
def selfMessage : Msg := ⟨msgHeader 7 1 1 5 0 (talker.ref 0) 2 9 1 false, [2]⟩

/-- That message as a comet to the context itself, by entry 0. -/
def messageOp : Outst :=
  { Outst.blank 0 [] false (.message 0 5 selfMessage) with id := 9, gen := 2 }

/-- The context with that message as a comet out. -/
def courier : Ctx := { talker with comets := [messageOp], ring := [] }

/-- A route map whose entry 0 leads to context 0 itself, or, with `isLocal` false, to PBR ID 9, and whose entry 1 admits it. -/
def selfMapped (isLocal : Bool) : State :=
  (devOf courier).modPart 1 (fun p => { p with
    routeCur := ⟨2, [(0, natBytes 8 (3 + (if isLocal then 2 ^ 16 else 0)) ++ natBytes 4 9 ++ natBytes 52 (courier.ref 0)),
      (1, natBytes 8 4 ++ natBytes 8 (7 + 7 * 2 ^ 16 + 2 ^ 32) ++ natBytes 48 (courier.ref 0))]⟩ })

/-- A request for a line of the object that its home has answered. -/
def answered (ow : ReqOwner) (line : Nat) (wr : Bool) : Req :=
  { id := 20 + line, owner := ow, part := 1, handle := 2 ^ 28 + 1, line := line, write := wr, tier := 2, tray := 4, port := 4
    inp := 256, out := 4, charge := ⟨0, 16, 9⟩, rdFirst := false, passedOver := false, seq := 1, state := .answered
    repeated := false, late := false, failing := false, poisoned := false, final := none, since := 0 }

/-- A compressed stream of the strand over the last block, whose segment is entered. -/
def stream : Strm :=
  { ctx := 0, req := 9, ref := ref1, next := 1, stop := 9, entered := true, books := [], sitMiss := false, loads := [] }

theorem witness_AnswersArrive :
    (let x : Ctx := { strand with outst := some loadOp }
     let s := devOf x
     s.ctx? 0 = some x ∧ s.obj? loadOp.handle = some object ∧ x.inOrder loadOp = true ∧ s.occupant 0 = some 0 ∧
       x.outst = some loadOp ∧ s.ready (.instr 0 9) loadOp.handle loadOp.lines loadOp.write = true ∧
       s.answerStatus (.instr 0 9) loadOp = none ∧ s.strm? 0 loadOp.id = none ∧ loadOp.op ≠ .fetch) ∧
    (let q : Outst := { Outst.blank (2 ^ 28 + 1) [0] false .fetch with id := 9 }
     let x : Ctx := { strand with outst := some q }
     let s := devOf x
     s.ctx? 0 = some x ∧ x.inOrder q = true ∧ s.occupant 0 = some 0 ∧
       s.ready (.instr 0 9) q.handle q.lines q.write = true ∧ s.answerStatus (.instr 0 9) q = none ∧ s.strm? 0 q.id = none) ∧
    (let q : Outst := { Outst.blank (2 ^ 28 + 1) [1] false (.expand 1 8 0 .bf16) with id := 9 }
     let x : Ctx := { strand with outst := some q }
     let s := (devOf x).modMoon 0 (fun m => { m with streams := [stream] })
     s.ctx? 0 = some x ∧ x.inOrder q = true ∧ s.occupant 0 = some 0 ∧
       s.ready (.instr 0 9) q.handle q.lines q.write = true ∧ s.answerStatus (.instr 0 9) q = none ∧
       s.strm? 0 q.id = some stream ∧ stream.entered = true) ∧
    (let x : Ctx := { strand with comets := [storeOp] }
     let s : State := { devOf x with reqs := [answered (.comet 0 9) 0 true, answered (.comet 0 9) 1 true] }
     s.ctx? 0 = some x ∧ s.obj? storeOp.handle = some object ∧ x.inOrder storeOp = true ∧
       x.comets.find? (fun e => decide (e.id = storeOp.id)) = some storeOp ∧
       s.ready (.comet 0 9) storeOp.handle storeOp.lines storeOp.write = true ∧ s.answerStatus (.comet 0 9) storeOp = none) ∧
    (∀ l, (selfMapped l).ctx? 0 = some courier ∧ courier.comets.find? (fun e => decide (e.id = messageOp.id)) = some messageOp ∧
      (∀ e ∈ courier.comets, ¬ e.id < messageOp.id) ∧ (selfMapped l).reqs = [] ∧
      reLocal (kvGet [] ((selfMapped l).mapOfGen courier.part messageOp.gen) 0) = l) ∧
    ((selfMapped true).deliver none (reCtx (kvGet [] ((selfMapped true).mapOfGen courier.part messageOp.gen) 0))
      selfMessage).1 = .written :=
  ⟨⟨rfl, rfl, by decide, by decide, rfl, by decide, by decide, by decide, by decide⟩,
    ⟨rfl, by decide, by decide, by decide, by decide, by decide⟩, ⟨rfl, by decide, by decide, by decide, by decide, rfl, rfl⟩,
    ⟨rfl, rfl, by decide, by decide, by decide, by decide⟩,
    by intro l; cases l <;> exact ⟨rfl, by decide, by decide, rfl, by decide⟩, by decide⟩

/-- The object with line 0 poisoned. -/
def poisoned : Obj := { object with poison := [0] }

theorem witness_FailedAnswersRaise :
    let x : Ctx := { strand with outst := some loadOp }
    let s := stocked poisoned x
    s.ctx? 0 = some x ∧ s.occupant 0 = some 0 ∧ x.outst = some loadOp ∧ x.abortPending = false ∧ x.inOrder loadOp = true ∧
      s.ready (.instr 0 9) loadOp.handle loadOp.lines loadOp.write = true ∧
      s.answerStatus (.instr 0 9) loadOp = some stPoison :=
  ⟨rfl, by decide, rfl, rfl, by decide, by decide, by decide⟩

theorem witness_StoresTouchTheirBytes :
    dev.obj? storeOp.handle = some object ∧ Memory.wf object.data = true ∧ storeOp.op = .store [(60, [1, 2]), (100, [3])] ∧
      storeOp.applied = [] ∧
      [((60 : Nat), ([1, 2] : List Byte)), (100, [3])].Pairwise
        (fun p k => p.1 + p.2.length ≤ k.1 ∨ k.1 + k.2.length ≤ p.1) :=
  ⟨rfl, by decide, rfl, rfl, by decide⟩

theorem witness_AtomicWords :
    (let q := Outst.blank (2 ^ 28 + 1) [0] true (.amo 8 7 5 0 3)
     dev.obj? q.handle = some object ∧ Memory.wf object.data = true ∧ q.found = none ∧
       q.op = .amo 8 7 (5#64).toNat (0#64).toNat 3) ∧
    (let q := Outst.blank (2 ^ 28 + 1) [0] true (.pub 8 0 5 3 1)
     dev.obj? q.handle = some object ∧ q.found = none ∧ q.op = .pub 8 (0#64).toNat (5#64).toNat 3 1) :=
  ⟨⟨rfl, by decide, rfl, rfl⟩, rfl, rfl, rfl⟩


/-! ### One state and operands for the hypotheses of each statement: placement, near-memory operations and combiners -/

/-- A request of a fill of granule 3 of the object, at a tray or, with `tier` 1, at a stack. -/
def fillReq (tier : Nat) (state : ReqState) : Req :=
  { id := 5, owner := .fill (2 ^ 28 + 1) 3, part := 1, handle := 2 ^ 28 + 1, line := 192, write := false, tier := tier, tray := 2
    port := 3, inp := 256, out := 270, charge := deviceCharge 0, rdFirst := false, passedOver := false, seq := 1, state := state
    repeated := false, late := false, failing := false, poisoned := false, final := none, since := 0 }

/-- The fill it belongs to. -/
def fill3 : Fill := ⟨2 ^ 28 + 1, 3, true, false, deviceCharge 0⟩

/-- A staged move that has its room. -/
def move2 : Move := ⟨2, 3, [], true, false⟩

/-- A device with that request and fill, a staged move and an old layout of the object, and a bound on moves. -/
def filling (tier : Nat) (state : ReqState) : State :=
  ({ dev with
    objs := [(2 ^ 28 + 1, { object with cls := 0, move := some move2, old := some (0, 0, 3) })]
    fills := [fill3]
    reqs := [fillReq tier state]
    now := 2 ^ 40 } : State).fset Reg.PLACE_MOVE_CTRL_MOVE_RATE [] 3

theorem witness_PlacementEvents :
    (∀ tier ∈ [1, 2], (filling tier .sent).req? 5 = some (fillReq tier .sent) ∧
      (fillReq tier .sent).since + (filling tier .sent).fget
        (if (fillReq tier .sent).tier = 1 then Reg.PLACE_TIER1_T_LATE_T else Reg.PLACE_TIER2_T_LATE_T) [] < (filling tier .sent).now ∧
      (fillReq tier .sent).since + (filling tier .sent).fget
        (if (fillReq tier .sent).tier = 1 then Reg.PLACE_TIER1_T_FAIL_T else Reg.PLACE_TIER2_T_FAIL_T) [] < (filling tier .sent).now) ∧
    (let s := filling 2 .answered
     s.fills.find? (fun e => decide (e.handle = 2 ^ 28 + 1) && decide (e.granule = 3) && !e.waiting) = some fill3 ∧
       (∀ q ∈ s.reqs, q.owner = .fill (2 ^ 28 + 1) 3 → q.state = .answered) ∧ s.hot = [] ∧
       worst (s.reqFinals (.fill (2 ^ 28 + 1) 3)) = none ∧
       (s.obj? (2 ^ 28 + 1)).map (fun o => (o.move, o.old)) = some (some move2, some (0, 0, 3)) ∧ move2.copied = false ∧
       move2.room = true ∧ s.fget Reg.PLACE_MOVE_CTRL_MOVE_RATE [] ≠ 0 ∧
       s.reqsAnswered (.move (2 ^ 28 + 1)) = true ∧ ∀ q ∈ s.reqs, q.handle = 2 ^ 28 + 1 → 3 ≤ q.id) := by decide

theorem witness_PlacementRounds :
    dev.winStart + dev.windowCycles ≤ ({ dev with now := 2 ^ 40 } : State).now ∧
    (dev.fset Reg.NME_SCRUB_CTRL_PERIOD_H [] 1).fget Reg.NME_SCRUB_CTRL_PERIOD_H [] ≠ 0 ∧
      (dev.fset Reg.NME_SCRUB_CTRL_PERIOD_H [] 0).fget Reg.NME_SCRUB_CTRL_PERIOD_H [] = 0 ∧
      (({ dev with objs := [(2 ^ 28 + 1, { object with extents := [(0, ⟨0, [], [], false⟩)] })] } : State).roomForExtent
        (2 ^ 28 + 1) 0).2 = .made := by decide

/-- A device with one near-memory operation of queue pair 3, whose requests for two lines are answered. -/
def nearMemory (a : NmeArg) : State :=
  ({ dev with nmes := [⟨5, 3, 1, a, none⟩], reqs := [answered (.nme 5) 0 true, answered (.nme 5) 1 true] } : State).modQp 3
    (fun q => { q with service := some ([], .nme 5) })

theorem witness_NearMemoryOperations :
    (let s := nearMemory (.fill (2 ^ 28 + 1) 8 100 7)
     s.nmes.find? (fun e => decide (e.id = 5)) = some ⟨5, 3, 1, .fill (2 ^ 28 + 1) 8 100 7, none⟩ ∧
       s.opReady 5 (.fill (2 ^ 28 + 1) 8 100 7) = true ∧
       (∀ r ∈ (NmeArg.fill (2 ^ 28 + 1) 8 100 7).ranges, s.rangeFails (.nme 5) r = [])) ∧
    (let s := nearMemory (.publish (2 ^ 28 + 1) 8 0 9)
     s.nmes.find? (fun e => decide (e.id = 5)) = some ⟨5, 3, 1, .publish (2 ^ 28 + 1) 8 0 9, none⟩ ∧
       s.opReady 5 (.publish (2 ^ 28 + 1) 8 0 9) = true ∧ s.obj? (2 ^ 28 + 1) = some object ∧ object.decl = 0 ∧
       worst (s.reqFinals (.nme 5)) = none ∧
       s.readStatus object (2 ^ 28 + 1) (8 / 64) (s.sentLine (.nme 5) (2 ^ 28 + 1) (8 / 64)) = none) := by
  decide

/-- The object, pinned in tier 1. -/
def pinned : Obj := { object with cls := 0 }

/-- A device whose object's line 192 one request waits for, with ENTER 1, and some lines in combiners. -/
def hotDev (hot : List HotLine) : State :=
  ({ dev with
    objs := [(2 ^ 28 + 1, pinned)]
    reqs := [{ fillReq 1 .sent with owner := .nme 5 }]
    hot := hot
    now := 2 ^ 20 } : State).fset Reg.XBAR_FAB_CTRL_ENTER [] 1

/-- The home of that line. -/
def home192 : Nat := stackOfChannel ((hotDev []).channelOf pinned (2 ^ 28 + 1) 3)

theorem home192_is : (hotDev []).combinerOf (2 ^ 28 + 1) 192 = some home192 := by
  have h1 : (hotDev []).obj? (2 ^ 28 + 1) = some pinned := rfl
  have h2 : pinned.inTier1 (granuleOfLine 192) = true := by decide
  have h3 : granuleOfLine 192 = 3 := rfl
  simp only [State.combinerOf, h1, h3 ▸ h2, if_true, home192, h3]

theorem witness_CombinerEnters :
    (hotDev []).combinerOf (2 ^ 28 + 1) 192 = some home192 ∧ (hotDev []).fget Reg.XBAR_FAB_CTRL_ENTER [] = 1 ∧
      (hotDev []).waitingAt (2 ^ 28 + 1) 192 = [.nme 5] ∧ (hotDev []).hotLine (2 ^ 28 + 1) 192 = none ∧
      (hotDev []).dirEntry (2 ^ 28 + 1) 192 = none ∧ (hotDev []).coherentWaits (2 ^ 28 + 1) 192 = false ∧
      ((hotDev []).hot.filter (fun e => decide (e.home = home192))).length < 32 ∧
      ((List.replicate 32 (⟨home192, 0, 0, [], 0⟩ : HotLine)).filter (fun e => decide (e.home = home192))).length = 32 :=
  ⟨home192_is, by decide, by decide, by decide, by decide, by decide, by decide, by simp⟩

theorem witness_CombinerLines :
    (hotDev [⟨8, 2 ^ 28 + 1, 192, [.nme 5], 0⟩]).hotLine (2 ^ 28 + 1) 192 = some ⟨8, 2 ^ 28 + 1, 192, [.nme 5], 0⟩ ∧
      (hotDev [⟨8, 2 ^ 28 + 1, 192, [.nme 5], 0⟩]).hotTurn (.nme 5) = true ∧
      (hotDev [⟨8, 2 ^ 28 + 1, 192, [], 0⟩]).hotLine (2 ^ 28 + 1) 192 = some ⟨8, 2 ^ 28 + 1, 192, [], 0⟩ ∧
      0 + max 1 ((hotDev []).fget Reg.XBAR_FAB_CTRL_COOL []) ≤ (hotDev []).now := by decide


/-! ### One state and operands for the hypotheses of each statement: descriptors and ownership -/

/-- A descriptor of 64 bytes with some fields (offset, bytes, value) set. -/
def descriptor (fs : List (Nat × Nat × Nat)) : List Byte :=
  fs.foldl (fun b f => b.take f.1 ++ natBytes f.2.1 f.2.2 ++ b.drop (f.1 + f.2.1)) (List.replicate 64 0)

/-- A device, with quotas and privileges for partition 1, whose queue pair 3 holds one descriptor; `o` is its object and `x` its
context 0. -/
def deskOf (o : Obj) (x : Ctx) (own : List OwnRec) (d : List Byte) : State :=
  (poke (poke (poke { dev with objs := [(2 ^ 28 + 1, o)], ctxs := [(0, x)], own := own } .CTX_PART_CFG [1] (BitVec.allOnes 64))
    .PART_CFG_A [1] (BitVec.allOnes 64)) .PART_CFG_B [1] (8 <<< 32)).modQp 3 (fun q => { q with ring := [d] })

/-- That device with the object pinned, its context parked, and no owner. -/
def desk (d : List Byte) : State := deskOf pinned { strand with phase := .parked } [] d

/-- A device of queue pair 3 with its descriptor taken. -/
def takenFrom (s : State) (d : List Byte) : State :=
  (s.modQp 3 (fun x => { x with ring := [], taken := x.taken + 1 })).forward (s.qpPart 3) (.descriptor 3 d)

theorem take_of (s : State) (d : List Byte) (h1 : (s.qpValid 3 && s.serving (s.qpPart 3) && (s.qp 3).service.isNone) = true)
    (h2 : (s.qp 3).ring = [d]) : s.takeDesc 3 = some (d, takenFrom s d) := by
  simp only [State.takeDesc, h1, if_true, h2, takenFrom]

theorem starts_of (s : State) (op : Nat) (priv : Option Nat) (used : List (Nat × Nat)) (d : List Byte)
    (h1 : (s.qpValid 3 && s.serving (s.qpPart 3) && (s.qp 3).service.isNone) = true) (h2 : (s.qp 3).ring = [d])
    (h3 : (decide (field d 0 1 = op) && descClean d used && decide (field d 4 4 = 0)) = true)
    (h4 : (priv.all (fun b => bitAt b (s.fget Reg.CTX_QP_A_PRIV [3]))) = true) (h5 : s.registryBusy (s.qpPart 3) = false) : 
    s.starts 3 op priv used d (takenFrom s d) := by
  simp only [Bool.and_eq_true, decide_eq_true_eq] at h3
  refine ⟨take_of s d h1 h2, h3.1.1, fun _ _ => h5, h3.1.2, ?_, .inl h3.2⟩
  intro b hb
  simpa [hb] using h4

/-- A QUERY of the object; one with a reserved byte set; one that names a route-map generation. -/
def queryDesc : List Byte := descriptor [(0, 1, 0x0D), (16, 8, ref1)]

theorem witness_DescriptorChecks :
    (let d := descriptor [(0, 1, 0x0D), (16, 8, ref1), (63, 1, 1)]
     (desk d).takeDesc 3 = some (d, takenFrom (desk d) d) ∧ field d 0 1 = 0x0D ∧
       (desk d).registryBusy ((desk d).qpPart 3) = false ∧ descClean d [(16, 8)] = false) ∧
    (let d := descriptor [(0, 1, 0x28), (4, 4, 7), (16, 8, ref1)]
     (desk d).takeDesc 3 = some (d, takenFrom (desk d) d) ∧ field d 0 1 = 0x28 ∧ descClean d [(16, 8)] = true ∧
       bitAt 4 ((desk d).fget Reg.CTX_QP_A_PRIV [3]) = true ∧ field d 4 4 ≠ 0 ∧
       field d 4 4 ≠ ((desk d).part ((desk d).qpPart 3)).routeCur.gen) :=
  ⟨⟨take_of _ _ (by decide) rfl, by decide⟩, take_of _ _ (by decide) rfl, by decide⟩

/-- RUN with an object reference and without one. -/
def runDesc (ref : Nat) : List Byte := descriptor [(0, 1, 1), (16, 8, ref)]

/-- CTX_OPEN of a context of job 3 at queue pair 3 with all its resources at their limits but the window. -/
def openDesc : List Byte :=
  descriptor [(0, 1, 2), (16, 8, ref1), (24, 8, 2 ^ 20 - 16), (32, 4, 1), (36, 2, 3), (40, 4, 64), (44, 2, 4), (46, 1, 2), (47, 1, 1)]

/-- CTX_CLOSE of context 0, with or without ABORT. -/
def closeDesc (abort : Nat) : List Byte := descriptor [(0, 1, 3), (16, 4, strand.ref 0), (20, 1, abort)]

theorem witness_ContextDescriptors :
    (let s := desk (runDesc 0)
     s.starts 3 1 none [(16, 48)] (runDesc 0) (takenFrom s (runDesc 0)) ∧ (takenFrom s (runDesc 0)).group 3 ≠ [] ∧
       (s.qp 3).service = none ∧ field (runDesc 0) 16 8 = 0) ∧
    (∀ owner ∈ [1, 2], let s := deskOf object strand [⟨ref1, owner, 0, none, true⟩] (runDesc ref1)
     s.starts 3 1 none [(16, 48)] (runDesc ref1) (takenFrom s (runDesc ref1)) ∧ (takenFrom s (runDesc ref1)).group 3 ≠ [] ∧
       (takenFrom s (runDesc ref1)).ownRec (field (runDesc ref1) 16 8) = some ⟨ref1, owner, 0, none, true⟩ ∧
       ((takenFrom s (runDesc ref1)).qpJob 3 = owner ↔ owner = 1)) ∧
    (let s := desk openDesc
     let u := takenFrom s openDesc
     s.starts 3 2 (some 1) [(16, 34)] openDesc u ∧
       (openFieldsOk openDesc = true ∧ u.refOk (field openDesc 16 8) 1 9 true false = true ∧ u.qpPart 3 = 1 ∧ u.qpTenant 3 = 9 ∧
        u.qpValid 3 = true ∧ (u.objOfRef (field openDesc 16 8)).map (fun o => o.size) = some (2 ^ 20) ∧ (u.group 3).length < 512 ∧
        (∀ i ∈ u.group 3, (u.ctx? i).map (fun y => y.job) = some (field openDesc 32 4)) ∧ field openDesc 48 2 = 0 ∧
        (u.ctxsOf 1).length < u.fget Reg.CTX_PART_CFG_CTX_QUOTA [1] ∧ u.carved 1 = false ∧ u.freeCtx = some 1)) ∧
    (∀ abort ∈ [0, 1], let s := desk (closeDesc abort)
     let u := takenFrom s (closeDesc abort)
     s.starts 3 3 (some 1) [(16, 5)] (closeDesc abort) u ∧ (u.ctxOfRef (field (closeDesc abort) 16 4) = some 0 ∧
       (u.ctx? 0).map (fun x => (x.part, x.tenant, x.phase)) = some (u.qpPart 3, u.qpTenant 3, .parked) ∧
       field (closeDesc abort) 20 1 = abort)) := by
  refine ⟨⟨starts_of _ _ _ _ _ (by decide) rfl (by decide) (by decide) (by decide), by decide, by decide, by decide⟩, ?_,
    ⟨starts_of _ _ _ _ _ (by decide) rfl (by decide) (by decide) (by decide), by decide +kernel⟩, ?_⟩
  · intro owner h
    refine ⟨starts_of _ _ _ _ _ ?_ ?_ ?_ ?_ ?_, ?_, ?_, ?_⟩ <;> revert owner h <;> decide
  · intro abort h
    refine ⟨starts_of _ _ _ _ _ ?_ ?_ ?_ ?_ ?_, ?_⟩ <;> revert abort h <;> decide

/-- The device whose queue pair 3 holds a CTX_CLOSE of context 0, which is resident and a member of an open RUN of queue pair 4. -/
def closing (abort : Nat) : State :=
  (deskOf object { strand with qp := 4 } [] (closeDesc abort)).modQp 4 (fun q => { q with service := some ([], .run [0] [] false) })

theorem witness_CloseResident :
    ∀ abort ∈ [0, 1], let s := closing abort
      let u := takenFrom s (closeDesc abort)
      s.starts 3 3 (some 1) [(16, 5)] (closeDesc abort) u ∧ (u.ctxOfRef (field (closeDesc abort) 16 4) = some 0 ∧
        (u.ctx? 0).map (fun x => (x.part, x.tenant, x.phase, u.runOpen 0 x)) = some (u.qpPart 3, u.qpTenant 3, .resident, true) ∧
        field (closeDesc abort) 20 1 = abort) := by
  intro abort h
  refine ⟨starts_of _ _ _ _ _ ?_ ?_ ?_ ?_ ?_, ?_⟩ <;> revert abort h <;> decide

/-- A REGISTER of a pinned object of two granules under key slot 5. -/
def registerDesc : List Byte := descriptor [(0, 1, 8), (16, 8, 8192), (24, 1, 5), (25, 1, 3), (26, 2, 5), (28, 4, 9), (32, 4, 77)]

theorem witness_Register :
    let s := desk registerDesc
    let u := takenFrom s registerDesc
    s.starts 3 8 (some 0) [(16, 20)] registerDesc u ∧ (u.slotPart 5 = some (u.qpPart 3) ∧ u.slotState 5 = 1 ∧
      u.fget Reg.SEC_KS_A_TENANT [5] = field registerDesc 28 4 ∧ field registerDesc 28 4 = u.qpTenant 3 ∧
      u.objs.length < 4194304 ∧ (u.objsOf 1).length < u.fget Reg.PART_CFG_A_OBJ_QUOTA [1] ∧
      u.objOfDecl 1 (field registerDesc 32 4) = none) ∧ u.pinnedRoom 1 8192 = true ∧
      u.freeIndex 1 ((u.objsOf 1).length + (u.part 1).hgens.length + 1) 1 = some 2 ∧
      (u.makeRoom 1 8192 (u.extentCount 1)).2 = .made :=
  ⟨starts_of _ _ _ _ _ (by decide) rfl (by decide) (by decide) (by decide), by decide, by decide, by decide, by decide⟩

/-- The desk of a REGISTER in a partition whose tier 1 is full: a pinned object takes all but 24 MiB of its 1 GiB, and twelve
cached extents take those. They are too young to be evicted, and the first is being written back where `back` says so. -/
def crowded (back : Bool) : State :=
  (poke { desk registerDesc with
    objs := [(2 ^ 28 + 1, { pinned with size := 1000 * 2 ^ 20 }),
      (2 ^ 28 + 3, { object with extents := (List.range 12).map (fun k => (k, ⟨0, [], [], back && k == 0⟩)) })] } .PART_CFG_A [1]
    (1 <<< 63 + 1 <<< 54 + 1 <<< 47 + 100 <<< 24 + 1)).fset Reg.PLACE_AGE_AGE_MIN [1] 5

theorem witness_RegisterRoom :
    (∀ back, let s := crowded back
     let u := takenFrom s registerDesc
     s.starts 3 8 (some 0) [(16, 20)] registerDesc u ∧ u.mayRegister 1 9 registerDesc = true ∧ u.pinnedRoom 1 8192 = true ∧
       (u.makeRoom 1 8192 (u.extentCount 1)).2 = (if back then .writing else .wait)) ∧
    (let d := descriptor [(0, 1, 8)]
     (desk d).starts 3 8 (some 0) [(16, 20)] d (takenFrom (desk d) d) ∧
       (takenFrom (desk d) d).mayRegister 1 9 d = false) := by
  refine ⟨?_, starts_of _ _ _ _ _ (by decide) rfl (by decide) (by decide) (by decide), by decide⟩
  intro back
  refine ⟨starts_of _ _ _ _ _ ?_ ?_ ?_ ?_ ?_, ?_, ?_, ?_⟩ <;> revert back <;> decide

/-- An object descriptor with an opcode of its own. -/
def objectDesc (op : Nat) : List Byte := descriptor [(0, 1, op), (16, 8, ref1)]

theorem witness_ObjectDescriptors :
    (∀ op ∈ [0x09, 0x0A, 0x0B, 0x0D], let s := desk (objectDesc op)
     s.starts 3 op (some 0) [(16, 8)] (objectDesc op) (takenFrom s (objectDesc op)) ∧
       s.starts 3 op (some 0) [(16, 9)] (objectDesc op) (takenFrom s (objectDesc op)) ∧
       (takenFrom s (objectDesc op)).qpObj 3 (field (objectDesc op) 16 8) = some pinned ∧
       pinnedClass (field (objectDesc op) 24 1) = pinnedClass pinned.cls) ∧
    (let d := descriptor [(0, 1, 0x09), (16, 8, 7)]
     (desk d).starts 3 9 (some 0) [(16, 8)] d (takenFrom (desk d) d) ∧ (takenFrom (desk d) d).qpObj 3 (field d 16 8) = none) ∧
    (∀ cls ∈ [1, 5],
     let d := descriptor [(0, 1, 0x0C), (16, 4, strand.ref 0), (24, 8, ref1)]
     let s := deskOf { object with cls := cls } strand [] d
     let u := takenFrom s d
     s.starts 3 0x0C (some 0) [(16, 16)] d u ∧ (u.ctxOfRef (field d 16 4) = some 0 ∧
       (u.ctx? 0).map (fun x => x.part) = some (u.qpPart 3) ∧ (u.qpObj 3 (field d 24 8)).map (fun o => o.cls) = some cls)) := by
  refine ⟨?_, ⟨starts_of _ _ _ _ _ (by decide) rfl (by decide) (by decide) (by decide), by decide⟩, ?_⟩
  · intro op h
    refine ⟨starts_of _ _ _ _ _ ?_ ?_ ?_ ?_ ?_, starts_of _ _ _ _ _ ?_ ?_ ?_ ?_ ?_, ?_, ?_⟩ <;> revert op h <;> decide
  · intro cls h
    refine ⟨starts_of _ _ _ _ _ ?_ ?_ ?_ ?_ ?_, ?_⟩ <;> revert cls h <;> decide

/-- FILL and PUBLISH of the object at an offset; COPY and COMPARE of 64 bytes of it; MAP_STAGE of one entry. -/
def fillDesc (op off : Nat) : List Byte := descriptor [(0, 1, op), (16, 8, ref1), (24, 8, off), (32, 8, 64), (40, 8, 5)]

/-- COPY and COMPARE. -/
def copyDesc (op : Nat) : List Byte :=
  descriptor [(0, 1, op), (16, 8, ref1), (24, 8, 64), (32, 8, ref1), (40, 8, 2 ^ 20 - 64), (48, 8, 64)]

/-- REDUCE of two ranges listed at offset 0 of the object into a third. -/
def reduceDesc : List Byte := descriptor [(0, 1, 0x13), (16, 8, ref1), (24, 8, 0), (32, 1, 2), (40, 8, 64)]

/-- The object, holding three references to itself with offsets 4096, 8192 and 12288. -/
def reducing : Obj :=
  { pinned with data := memWrite [] 0 (natBytes 8 ref1 ++ natBytes 8 4096 ++ natBytes 8 ref1 ++ natBytes 8 8192 ++
      natBytes 8 ref1 ++ natBytes 8 12288) }

theorem witness_OperationDescriptors :
    (∀ op ∈ [0x10, 0x18], let s := desk (fillDesc op 64)
     s.starts 3 op (if op = 0x10 then some 2 else none) [(16, 32)] (fillDesc op 64) (takenFrom s (fillDesc op 64)) ∧
       nmeLen (field (fillDesc op 64) 32 8) = true ∧
       (takenFrom s (fillDesc op 64)).rangeOk 3 ref1 64 64 false true = true ∧
       (takenFrom s (fillDesc op 64)).rangeOk 3 ref1 64 8 true true = true) ∧
    (∀ op ∈ [0x11, 0x12], let s := desk (copyDesc op)
     s.starts 3 op (some 2) [(16, 40)] (copyDesc op) (takenFrom s (copyDesc op)) ∧
       (takenFrom s (copyDesc op)).rangeOk 3 ref1 64 64 true false = true ∧
       (takenFrom s (copyDesc op)).rangeOk 3 ref1 (2 ^ 20 - 64) 64 (op == 0x12) (op == 0x11) = true) ∧
    (let s := deskOf reducing strand [] reduceDesc
     let u := takenFrom s reduceDesc
     s.starts 3 0x13 (some 2) [(16, 19), (40, 8)] reduceDesc u ∧ field reduceDesc 33 1 ∈ reduceFormats (field reduceDesc 34 1) ∧
       (Fmt.ofCode (field reduceDesc 33 1)).isSome = true ∧ u.rangeOk 3 ref1 0 (16 * 3) true false = true ∧
       u.scanStatus (refHandle ref1) [(0, 16 * 3)] = none ∧
       (∀ i, i < 3 → u.rangeOk 3 (u.wordAt (refHandle ref1) (16 * i)) (u.wordAt (refHandle ref1) (16 * i + 8)) 64 true true =
         true)) ∧
    (let d := descriptor [(0, 1, 0x20), (16, 8, ref1), (24, 4, 1)]
     let s := desk d
     let u := takenFrom s d
     s.starts 3 0x20 (some 3) [(16, 12)] d u ∧ u.rangeOk 3 ref1 0 32 true false = true ∧
       u.scanStatus (refHandle ref1) [(0, 32)] = none ∧ u.entryOk 1 (u.bytesAt (refHandle ref1) 0 32) = true ∧
       noOverlap [u.bytesAt (refHandle ref1) 0 32] = true) := by
  refine ⟨?_, ?_, ⟨starts_of _ _ _ _ _ (by decide) rfl (by decide) (by decide) (by decide), by decide, by decide, by decide, by decide,
    by decide⟩, starts_of _ _ _ _ _ (by decide) rfl (by decide) (by decide) (by decide), by decide, by decide, by decide, by decide⟩
  · intro op h
    refine ⟨starts_of _ _ _ _ _ ?_ ?_ ?_ ?_ ?_, ?_, ?_, ?_⟩ <;> revert op h <;> decide
  · intro op h
    refine ⟨starts_of _ _ _ _ _ ?_ ?_ ?_ ?_ ?_, ?_, ?_⟩ <;> revert op h <;> decide

/-- An ownership record of the object. -/
def owned (owner epoch : Nat) (offer : Option (Nat × Nat)) : OwnRec := ⟨ref1, owner, epoch, offer, false⟩

/-- A descriptor of ownership at an epoch, and the device that holds it. -/
def ownDesc (op epoch : Nat) : List Byte := descriptor [(0, 1, op), (16, 8, ref1), (24, 8, epoch)]

theorem witness_Ownership :
    (∀ r ∈ [[], [owned 1 4 none], [owned 2 4 none]], let d := descriptor [(0, 1, 0x28), (16, 8, ref1)]
     let s := deskOf object strand r d
     s.starts 3 0x28 (some 4) [(16, 8)] d (takenFrom s d) ∧ (takenFrom s d).qpObj 3 (field d 16 8) = some object ∧
       (takenFrom s d).ownRec (field d 16 8) = r.head? ∧ (takenFrom s d).qpJob 3 = 1 ∧ (takenFrom s d).own.length < 65536) ∧
    (∀ r ∈ [owned 1 4 none, owned 1 4 (some (1, 0)), owned 2 4 none], ∀ op ∈ [(0x29, 20), (0x2A, 16), (0x2B, 16)],
     ∀ e ∈ [4, 5],
     let d := ownDesc op.1 e
     let s := deskOf object strand [r] d
     s.starts 3 op.1 (some 4) [(16, op.2)] d (takenFrom s d) ∧ (takenFrom s d).qpObj 3 (field d 16 8) = some object ∧
       (takenFrom s d).ownRec (field d 16 8) = some r ∧ field d 24 8 = e) ∧
    (∀ now ∈ [169999999, 170000000],
     let s : State := { deskOf object strand [owned 1 4 (some (2, 0))] [] with now := now }
     s.ownRec ref1 = some (owned 1 4 (some (2, 0))) ∧
       (0 + max 1 (s.fget Reg.CTX_CFG_OWN_T []) * 1700 ≤ s.now ↔ now = 170000000)) := by
  refine ⟨?_, ?_, ?_⟩
  · intro r h
    refine ⟨starts_of _ _ _ _ _ ?_ ?_ ?_ ?_ ?_, ?_, ?_, ?_, ?_⟩ <;> revert r h <;> decide
  · intro r h op ho e he
    refine ⟨starts_of _ _ _ _ _ ?_ ?_ ?_ ?_ ?_, ?_, ?_, ?_⟩ <;> revert r h op ho e he <;> decide
  · decide

/-- A device whose queue pair 3 has a descriptor that has ended, with its completion ring in host memory or in the object. -/
def completing (host : Bool) : State :=
  ((({ dev with objs := [(2 ^ 28 + 1, pinned)] }).fset Reg.CTX_QP_A_CQ_HOST [3] (if host then 1 else 0)).fset
    Reg.CTX_QP_B_CQ_BASE [3] ref1).modQp 3 (fun q => { q with service := some ([], .done 0 5 6), written := 17, consumed := 6 })

theorem witness_CompletionsWritten :
    (∀ host, let s := completing host
     s.qpValid 3 = true ∧ (s.qp 3).service = some ([], .done 0 5 6) ∧ (s.qp 3).written < (s.qp 3).consumed + s.cqSize 3 ∧
       s.cqHost 3 = host ∧ s.suppressed (s.qpPart 3) = false ∧ s.snoops = [] ∧ s.dir = []) ∧
    (completing false).ringOk 3 (64 + 32 * (17 % (completing false).cqSize 3) + 32) = true := by decide


/-! ### One state and operands for the hypotheses of each statement: registers, orbits and containment -/

/-- The small device, sealed, with port 4 in ACTIVE. -/
def sealedDev : State := poke (poke dev .PART_SEAL [] 1) .LINK_PORT_STAT [4] 6

/-- The same with BAR0 closed by a device reset that is due. -/
def closedDev : State := { sealedDev with devResetDue := true }

theorem witness_RegisterMapResolves :
    indexOk RegName.MOON_CYC.desc.dims [63, 7, 8] = true ∧ indexOk RegName.GLB_ORB_RAISE.desc.dims [] = true ∧
      regAt (RegName.MOON_CYC.addr [63, 7, 8]) = some (.MOON_CYC, [63, 7, 8]) := by decide +kernel

theorem witness_RegisterWrites :
    (sealedDev.bar0Open = true ∧ closedDev.bar0Open = false) ∧
    (regAt (RegName.CTX_PART_CFG.addr [2]) = some (.CTX_PART_CFG, [2]) ∧ RegName.CTX_PART_CFG.desc.owner = .first ∧
      sealedDev.partValid 2 = false) ∧
    (poke sealedDev .PART_PRIV [] 0).holdsPriv RegName.PLACE_MOVE_CTRL.desc.wpriv (sealedDev.regPart .PLACE_MOVE_CTRL []) = false ∧
    (regAt (RegName.PLACE_MOVE_CTRL.addr []) = some (.PLACE_MOVE_CTRL, []) ∧ (sealedDev.writeSpecial .PLACE_MOVE_CTRL [] 3).isNone) ∧
    (sealedDev.writeSpecial .PART_CFG_A [1] 0).isNone ∧
    (0 ^^^ sealedDev.regW .PART_CFG_A [1]) &&& RegName.PART_CFG_A.mask .sl ≠ 0 ∧ sealedDev.fget Reg.PART_SEAL_SEALED [] = 1 := by
  decide +kernel

theorem witness_RegisterMayWrite :
    sealedDev.mayWrite .PLACE_MOVE_CTRL [] ∧ sealedDev.mayWrite .PART_CFG_A [1] := by
  unfold State.mayWrite; decide +kernel

theorem witness_RegisterReadsAndStaging :
    (sealedDev.bar0Open = true ∧ ((7 : Nat) ≠ 8 ∨ 0 % 8 ≠ 0)) ∧
    (sealedDev.holdsPriv RegName.PLACE_CHAN_LOAD.desc.rpriv (sealedDev.regPart .PLACE_CHAN_LOAD [511]) = true ∧
      (poke sealedDev .PART_PRIV [] 0).holdsPriv RegName.PLACE_CHAN_LOAD.desc.rpriv (sealedDev.regPart .PLACE_CHAN_LOAD [511]) =
        false) ∧
    (sealedDev.pwr.phase = .ready ∧ sealedDev.regPart .PLACE_AGE [1] = some 1 ∧ RegName.PLACE_AGE.mask .st ≠ 0 ∧
      sealedDev.partValid 1 = true ∧ sealedDev.regPart .ERR_PQ_PTR [1] = some 1 ∧ RegName.ERR_PQ_PTR.mask .st = 0) ∧
    ((sealedDev.fset Reg.LINK_PILOT_STAT_CXL_UP [] 1).fget Reg.LINK_PILOT_STAT_CXL_UP [] ≠ 0 ∧ sealedDev.pilot.ready = true ∧
      ({ sealedDev with pilot := { sealedDev.pilot with ready := false } } : State).pilot.ready = false) := by decide +kernel

theorem witness_SealedTablesFixed : sealedDev.fget Reg.PART_SEAL_SEALED [] = 1 := by decide

theorem witness_CommandWrites_may :
    (sealedDev.mayWrite .GLB_ORB_RAISE [] ∧ sealedDev.mayWrite .QPDB_D [3, 7] ∧ sealedDev.mayWrite .XBAR_TAG_BUDGET [255] ∧
      sealedDev.mayWrite .LINK_PORT_CTRL [4] ∧ sealedDev.mayWrite .GLB_CYC_SNAP [] ∧ sealedDev.mayWrite .SEC_KD_CTRL []) ∧
    (sealedDev.mayWrite .ERR_PQ_PTR [1] ∧ sealedDev.mayWrite .ERR_DQ_PTR [] ∧ sealedDev.mayWrite .ERR_PQ_STAT [1] ∧
      sealedDev.mayWrite .ERR_CTX_ABORT [] ∧ sealedDev.mayWrite .ERR_PART_RESET [] ∧ sealedDev.mayWrite .ERR_DEV_RESET [] ∧
      sealedDev.mayWrite .PLACE_TRAY_CTRL [23]) := by
  unfold State.mayWrite; decide +kernel

theorem witness_CommandWrites :
    (sealedDev.fget Reg.CTX_QP_A_DB_FABRIC [3] = 0 ∧ sealedDev.controls (sealedDev.qpPart 3) = true ∧
      sealedDev.partValid (sealedDev.qpPart 3) = true ∧ sealedDev.qpValid 3 = true ∧
      sealedDev.suppressed (sealedDev.qpPart 3) = false) ∧
    (bitsOf 16 0 (4 + 9 <<< 29 : BitVec 64).toNat ≤ min 65536 (bitsOf 45 29 (4 + 9 <<< 29 : BitVec 64).toNat) ∧
      sealedDev.minSum - sealedDev.fget Reg.XBAR_TAG_BUDGET_TAG_MIN [255] + bitsOf 16 0 (4 + 9 <<< 29 : BitVec 64).toNat ≤ 65536) ∧
    ((sealedDev.part 1).errq.used ≠ 128 ∧ sealedDev.devFault = false) ∧
    (sealedDev.ctxOfRef (BitVec.ofNat 32 (strand.ref 0)).toNat = some 0 ∧ sealedDev.ctx? 0 = some strand ∧
      sealedDev.controls strand.part = true) ∧
    sealedDev.manages = true ∧ (0 : BitVec 32) ≠ 0x54535244 :=
  ⟨by decide +kernel, by decide +kernel, by decide +kernel, ⟨by decide +kernel, rfl, by decide +kernel⟩, by decide +kernel,
    by decide⟩

/-- The first 12 bytes of a key-delivery record of tenant 9 for key slot 6, the rest zero, in SEC_KD_BUF; partition 1 has slots 0
to 7. -/
def delivering : State :=
  poke (poke (poke sealedDev .PART_CFG_B [1] (8 <<< 32)) .SEC_KD_BUF [0] (0x31444B54 + 6 <<< 32)) .SEC_KD_BUF [1] 9

theorem witness_KeySubmission :
    (sealedDev.fset Reg.SEC_KD_STAT_BUSY [] 1).fget Reg.SEC_KD_STAT_BUSY [] = 1 ∧
      delivering.fget Reg.SEC_KD_STAT_BUSY [] = 0 ∧ kdForm delivering.kdBytes = true ∧
      (delivering.fset Reg.SEC_KD_STAT_DONE [] 0).kdControl delivering.kdBytes = true ∧
      (delivering.fset Reg.SEC_KD_STAT_DONE [] 0).kdEmpty delivering.kdBytes = none ∧
      (delivering.fset Reg.SEC_KD_STAT_DONE [] 0).kdFree delivering.kdBytes = true ∧ kdForm sealedDev.kdBytes = false := by
  decide +kernel

theorem witness_KeySubmission_may : delivering.mayWrite .SEC_KD_CTRL [] ∧ sealedDev.mayWrite .SEC_KD_CTRL [] := by
  unfold State.mayWrite; decide +kernel


/-- The small device with its partition changed. -/
def partDev (f : Part → Part) : State := dev.modPart 1 f

/-- The same with ORB_LIMIT 10 and a flag raised at cycle 5. -/
def raisedDev (now : Nat) (reported : Bool) : State :=
  { (partDev (fun p => { p with raisedAt := some 5, reported := reported })).fset Reg.GLB_ORB_LIMIT_ORB_LIMIT [] 10 with now := now }

/-- The strand while it parks or is resumed. -/
def copying (ph : Phase) : Ctx := { strand with phase := ph }

/-- A swap of partition 1 that began at cycle 4 and whose next step is `k`. -/
def swapAt (k : SwapStep) : Swap :=
  { start := 4, closing := 7, next := k, regs := [], route := none, keys := [], moves := [], views := [], heldBack := false }

/-- The small device at cycle 893, in that swap, with a partition reset due or not. -/
def swapping (k : SwapStep) (due : Bool) : State :=
  { partDev (fun p => { p with swap := some (swapAt k), resetDue := if due then some 2 else none }) with now := 893 }

theorem witness_OrbitsParkingAndResuming :
    (let s := partDev (fun p => { p with idleEvent := true })
     (s.part 1).swap = none ∧ s.partValid 1 = true ∧ s.boundaryDue 1 = true ∧ (s.part 1).fenced = false ∧
       (s.part 1).held = false ∧ (s.part 1).resetDue = none) ∧
    ((dev.part 1).swap = none ∧ dev.boundaryDue 1 = false) ∧
    (∀ k ∈ [SwapStep.snapshot, .keys, .maps, .shares, .placement, .visibility, .parking, .release],
      ((swapping k false).part 1).swap = some (swapAt k) ∧ ((swapping k false).part 1).resetDue = none ∧
        ((swapping k true).part 1).swap = some (swapAt k) ∧ ((swapping k true).part 1).resetDue ≠ none ∧ (swapAt k).next = k ∧
        (swapping k false).now ≤ (swapAt k).start + 889) ∧
    (∀ now ∈ [15, 16], ∀ r, let s := raisedDev now r
     (s.part 1).raisedAt = some 5 ∧ s.partValid 1 = true ∧ s.fget Reg.GLB_ORB_LIMIT_ORB_LIMIT [] = 10 ∧ (s.part 1).reported = r ∧
       (5 + 10 < s.now ↔ now = 16)) ∧
    (∀ ph ∈ [Phase.parking, .resuming], let x := copying ph
     (devOf x).ctx? 0 = some x ∧ x.slot = some 0 ∧ x.phase = ph ∧ x.comets = [] ∧ x.outst = none ∧ x.abortPending = false) ∧
    (devOf (copying .resuming)).leaving (0 / 8) = false := by
  refine ⟨by decide, by decide, by decide, by decide, ?_, by decide⟩
  intro ph _
  exact ⟨rfl, rfl, rfl, rfl, rfl, rfl⟩

/-- A device with one aborted context, a teardown of job 1, an accelerator port 4 that is live or crashed, and a partition reset
that is due. -/
def contained (crashed : Bool) : State :=
  { (devOf { strand with abortPending := true }).modPart 1 (fun p => { p with resetDue := some 2 }) with
    teardowns := [(1, 1, 3, 0)]
    crashed := if crashed then [255] else [] }.fset Reg.MGT_DISC_ROLE [255] 1

theorem witness_Containment :
    (∀ b, let s := contained b
     (s.ctx? 0).map (fun x => x.abortPending) = some true ∧ s.inSwap 1 = false ∧
       (∀ q ∈ s.qps, ∀ d ∈ q.2.service, d.2 ≠ .close 0) ∧
       (∀ q ∈ (s.abortCtx 0).qps, ∀ d ∈ q.2.service, d.2 ≠ .close 0) ∧
       s.teardowns.find? (fun e => decide (e.1 = 1) && decide (e.2.1 = 1)) = some (1, 1, 3, 0) ∧ s.discRole 255 = 1 ∧
       s.crashed.contains 255 = b ∧ s.moonInService 0 = true ∧ (s.part 1).resetDue = some 2 ∧ s.partValid 1 = true) ∧
    (let s := (contained false).modPart 1 (fun p => { p with swap := some (swapAt .keys) })
     (s.ctx? 0).map (fun x => x.abortPending) = some true ∧ s.inSwap 1 = true) := by decide

theorem witness_AbortedContextsAreGone :
    ((contained false).ctx? 0).map (fun x => x.abortPending) = some true ∧ (contained false).inSwap 1 = false ∧
      kvSorted (contained false).ctxs = true := by decide


/-! ### One state and operands for the hypotheses of each statement: the fabric -/

/-- A field of a register written, whatever its access code. -/
def put (s : State) (f : RField) (ix : List Nat) (n : Nat) : State :=
  poke s f.reg ix (BitVec.ofNat 64 (putBits f.hi f.lo (s.regW f.reg ix).toNat n))

/-- The small device with port 4 of a role, in ACTIVE, its stream secure, its partner PBR ID 11. -/
def ported (role : Nat) : State :=
  put (put (put (put (put dev Reg.LINK_PORT_CFG_ROLE [4] role) Reg.LINK_PORT_STAT_STATE [4] 6) Reg.LINK_IDE_STAT_STATE [4] 2)
    Reg.MGT_DISC_PBR [4] 11) Reg.MGT_DISC_PBR_VALID [4] 1

/-- The aperture of the object at address 0: 256 pages, job 1. -/
def aperture : List Byte :=
  natBytes 4 1 ++ natBytes 4 1 ++ natBytes 8 0 ++ natBytes 8 ref1 ++ natBytes 4 256 ++ natBytes 36 0

/-- That device as an accelerator's, with window 0 for PBR IDs 0 to 20 over the first GiB and that aperture in the route map. -/
def fabric : State :=
  (put (put (put (put (put (put (put (ported 1) Reg.PART_WIN_A_VALID [0] 1) Reg.PART_WIN_A_PART [0] 1) Reg.PART_WIN_A_SRC_HI [0] 20)
    Reg.PART_WIN_A_RD [0] 1) Reg.PART_WIN_A_WR [0] 1) Reg.PART_WIN_A_COH [0] 1) Reg.PART_WIN_B_SIZE_GIB [0] 1).modPart 1
      (fun p => { p with routeCur := ⟨2, [(0, aperture)]⟩ })

/-- A request of that accelerator for the last line of the object. -/
def lastLine : M2S := ⟨4, 11, 7, 5, 2 ^ 20 - 64⟩

theorem witness_AcceleratorRequestsEnter : ∀ wr, fabric.admits lastLine wr 1 aperture object 16383 := by
  intro wr
  cases wr <;>
    exact ⟨by unfold State.takesFlit; decide +kernel, by decide +kernel, by decide +kernel, by decide +kernel, by decide +kernel,
      rfl, by decide +kernel, ⟨0, by decide +kernel, by decide +kernel, by decide +kernel, by decide +kernel⟩, by decide +kernel,
      by decide +kernel, by decide +kernel, by decide +kernel, rfl, by decide +kernel, by decide, by decide, by decide,
      by decide +kernel⟩

theorem witness_AcceleratorRequestsRefused :
    (dev.active 4 = false ∧ (put dev Reg.LINK_PORT_STAT_STATE [4] 6).active 4 = true ∧
      (put dev Reg.LINK_PORT_STAT_STATE [4] 6).secure 4 = false) ∧
    (let s := put (ported 1) Reg.MGT_DISC_PBR_VALID [4] 0
     s.active 4 = true ∧ s.secure 4 = true ∧ s.addressed 4 = false) ∧
    (∀ s ∈ [fabric, ported 2], s.takesFlit 4 ∧ s.ownPbr = some 7 ∧ (s.role 4 = 1 → s.poolRoom 4 .m2sReq 1 = true) ∧
      s.crashed.contains 4 = false ∧ s.viral.contains 4 = false ∧ s.pbrOfPort 4 = some 11) ∧
    ({ fabric with crashed := [4] } : State).crashed.contains 4 = true ∧
    ({ fabric with viral := [4] } : State).viral.contains 4 = true ∧ (ported 2).role 4 ≠ 1 ∧ fabric.role 4 = 1 ∧
    fabric.pbrOfPort 4 ≠ some 12 ∧ fabric.findWindow 11 (2 ^ 30) = none := by
  unfold State.takesFlit; decide +kernel

/-- A snoop of port 4 that has been sent at cycle 0. -/
def snoop4 : Snoop := { handle := 2 ^ 28 + 1, line := 0, port := 4, inv := true, sent := true, back := false, since := 0 }

/-- A request to the tray at port 4. -/
def trayReq (write rdFirst : Bool) : Req :=
  { fillReq 2 .sent with owner := .nme 9, port := 4, write := write, rdFirst := rdFirst }

theorem witness_FabricResponses :
    (∀ now ∈ [9, 10], let s : State := { put (ported 1) Reg.XBAR_FAB_CTRL_BI_TIMEOUT [] 10 with snoops := [snoop4], now := now }
     s.takesFlit 4 ∧ s.crashed.contains 4 = false ∧ s.rspRoom 4 .birsp = true ∧
       s.snoops.find? (fun e => e.sent && !e.back && decide (e.port = 4) && decide (e.handle = 2 ^ 28 + 1) && decide (e.line = 0)) =
         some snoop4 ∧
       s.fget Reg.XBAR_FAB_CTRL_BI_TIMEOUT [] = 10 ∧ (snoop4.since + 10 ≤ s.now ↔ now = 10)) ∧
    ((ported 1).snoops = [] ∧ (ported 1).takesFlit 4 ∧ (ported 1).crashed.contains 4 = false ∧
      (ported 1).rspRoom 4 .birsp = true) ∧
    ((ported 2).takesFlit 4 ∧ (ported 2).role 4 = 2 ∧ (ported 2).rspRoom 4 .drs = true ∧ (ported 2).rspRoom 4 .ndr = true ∧
      (ported 2).outstanding 4 5 = none) ∧
    (∀ w ∈ [(false, false), (true, false), (true, true)],
      ({ ported 2 with reqs := [trayReq w.1 w.2] } : State).outstanding 4 5 = some (trayReq w.1 w.2)) := by
  unfold State.takesFlit; decide +kernel

/-- A peer port 4, with partition 1's context 0 ready for messages from it, or with PBR IDs 0 to 20 reached through it. -/
def peered : State :=
  put (put (put (put (put { selfMapped true with regs := (ported 3).regs, sl := (ported 3).sl } Reg.PART_PGRP_VALID [0] 1)
    Reg.PART_PGRP_PORT_LO [0] 4) Reg.PART_PGRP_PORT_HI [0] 4) Reg.PART_PGRP_PBR_LO [0] 0) Reg.PART_PGRP_PBR_HI [0] 20

theorem witness_OtherFlits :
    ((ported 2).role 4 = 2 ∧ (ported 2).takesFlit 4) ∧
    (peered.role 4 = 3 ∧ peered.takesFlit 4 ∧ peered.ownPbr = some 7 ∧
      peered.poolRoom 4 .posted (ceilDiv (64 + 4096) 128) = true) ∧
    (peered.judge (some 4) (courier.ref 0) selfMessage = .inl 0 ∧ courier.ring.length < courier.ringSlots) ∧
    (∃ q, peered.judge (some 4) (courier.ref 0 + 1) selfMessage = .inr q) ∧
    peered.transitPort 9 = (some 4, true) ∧ peered.transitPort 21 = (none, false) ∧
    (peered.ctx? 0).map (fun x => x.ring) = some [] ∧
    (let s := peered.modCtx 0 (fun x => { x with ring := List.replicate 4 selfMessage })
     s.judge (some 4) (courier.ref 0) selfMessage = .inl 0 ∧
       (s.ctx? 0).map (fun x => decide (x.ringSlots ≤ x.ring.length)) = some true) ∧
    ((put (ported 1) Reg.LINK_IDE_STAT_STATE [4] 1).secure 4 = false ∧ (put (ported 1) Reg.LINK_IDE_STAT_STATE [4] 1).active 4 = true) ∧
    ioAllowed .errorMessage 1 = true ∧ ioAllowed .atomicOp 1 = false := by
  unfold State.takesFlit
  exact ⟨by decide +kernel, by decide +kernel, by decide +kernel, ⟨none, by decide +kernel⟩, by decide +kernel, by decide +kernel,
    by decide +kernel, by decide +kernel, by decide +kernel, by decide +kernel, by decide +kernel⟩


/-! ### One state and operands for the hypotheses of each statement: crossbar, manager, links and power -/

/-- A cell of a class for an output, with what it carries. -/
def cellOf (out cls : Nat) (b : CellBody) : Cell :=
  { seq := 1, out := out, charge := ⟨cls, 1, 0⟩, src := 11, dst := 2 ^ 40 + 3, len := 80, tag := (1, 1), body := b, chan := .m2sReq }

/-- Port 4 with one queue, for output 270 and class 0. -/
def inputOf (q : XQueue) : State := { ported 1 with xin := [(4, ⟨[(2160, q)], [], 0, 0⟩)], now := 300 }

/-- Port 4 with one cell at the head of its queue. -/
def crossing (c : Cell) : State :=
  { ported 1 with xin := [(4, ⟨[(c.key, ⟨[c], [], [], 0, [], 0, []⟩)], [], 0, 0⟩)], now := 300, snoops := [{ snoop4 with back := true }] }

/-- A request of the device for a line at a tray. -/
def queuedReq : Req := { fillReq 2 .queued with out := 264 }

/-- A response to port 4. -/
def response : Rsp := ⟨4, 6, 264, .cmp 4 5⟩

theorem witness_Crossbar :
    (∀ c ∈ [cellOf 262 0 (.request 5), cellOf 270 0 (.doorbell 5 0 3 []), cellOf 262 6 (.answer 5 false false true),
        cellOf 262 7 (.birsp (2 ^ 28 + 1) 0 true), cellOf 256 5 .part, cellOf 4 0 (.transit 9 1 0 selfMessage)],
      (crossing c).choose c.out = some ⟨c.charge, 4, .cell c⟩ ∧ (crossing c).accepted c.out ⟨c.charge, 4, .cell c⟩ = true) ∧
    (let s : State := { crossing (cellOf 262 0 (.request 5)) with grants := ⟨300, [(262, 64)], []⟩ }
     s.choose 262 ≠ none ∧ s.accepted 262 ⟨⟨0, 1, 0⟩, 4, .cell (cellOf 262 0 (.request 5))⟩ = false) ∧
    ((crossing (cellOf 256 5 .part)).snoops.find? (fun e => e.back && decide (e.port = 4) && decide (e.handle = 2 ^ 28 + 1) && decide (e.line = 0)) =
      some { snoop4 with back := true }) ∧
    (let s : State := { dev with reqs := [queuedReq] }
     s.choose 264 = some ⟨queuedReq.charge, 256, .req 5⟩ ∧ s.accepted 264 ⟨queuedReq.charge, 256, .req 5⟩ = true ∧
       (((s.passOver 264 queuedReq.charge).modShare 264 (fun e => { e with rr := kvSet e.rr queuedReq.charge.cls 256 })).req? 5).isSome =
         true) ∧
    (let s : State := { ported 1 with rsp := [response] }
     (s.choose 4).map (fun h => (h.inp, h.what)) = some (264, .rsp response) ∧
       (s.choose 4).all (fun h => s.accepted 4 h) = true) ∧
    (let s := inputOf ⟨[], [cellOf 270 0 .part], [], 0, [], 0, []⟩
     let e := (s.xinOf 4).queue (8 * 270 + 0)
     e.head.length < 8 ∧ e.spill ≠ [] ∧ e.back = [] ∧ (s.xinOf 4).used < poolSize ∧ s.spillBusy 4 = false ∧
       min poolSize (s.fget Reg.XBAR_CFG_RET_FREE []) ≤ poolSize - (s.xinOf 4).used) ∧
    (let s := inputOf ⟨[], [], [cellOf 270 0 .part], 0, [], 0, []⟩
     let e := (s.xinOf 4).queue (8 * 270 + 0)
     e.back ≠ [] ∧ e.since + 300 ≤ s.now) ∧
    (let q := { snoop4 with sent := false }
     let s : State := { put (ported 1) Reg.XBAR_TAG_BUDGET_TAG_MIN [4] 1 with snoops := [q] }
     s.tagFree 4 = true ∧ s.snoops.find? (fun e => !e.sent && decide (e.port = 4)) = some q) ∧
    (let r := { fillReq 2 .needsTag with port := 4 }
     let s : State := { put (ported 2) Reg.XBAR_TAG_BUDGET_TAG_MIN [4] 1 with reqs := [r] }
     s.tagFree 4 = true ∧ s.snoops = [] ∧ s.nextWaiter 4 = some r) := by decide +kernel

/-- A device served by the mailbox and over MCTP, with a background operation. -/
def managed (w : Option BgWork) : State := { sealedDev with mgmt := { sealedDev.mgmt with bg := w } }

theorem witness_FabricManagerCommands :
    (∀ w ∈ [none, some (.clearOrphans (2 ^ 28 + 1) 0 64), some (.partReset 1)], let s := managed w
     (s.bar0Open = true ∧ s.devResetDue = false ∧ s.manages = true ∧ s.mctpUp = true ∧ s.pwr.phase ≠ .halted) ∧
       s.mgmt.bg = w ∧ s.partValid 1 = true ∧ s.partValid 2 = false ∧ (s.part 1).resetDue = none) ∧
    ((∀ k ∈ [0, 255], k < 256) ∧ ∃ k ∈ [0, 256], 256 ≤ k) ∧
    (let input := natBytes 2 0xFFFF ++ natBytes 2 4095
     field input 2 2 < 4096 ∧ (managed none).mayAssign (field input 0 2) (field input 2 2) = false ∧
       ({ managed none with ownPbr := none } : State).mayAssign (field input 0 2) (field input 2 2) = true) ∧
    (peered.mayAssign 4 11 = true ∧ (4 : Nat) ≠ 0xFFFF) ∧
    ((managed none).portsHolding 11 = [] ∧ (ported 1).portsHolding 11 = [4]) ∧
    ((managed none).orphanRangeOk ref1 0 (2 ^ 20) = true ∧ (managed none).orphanRangeOk ref1 64 (2 ^ 20) = false) ∧
    (field (natBytes 1 15 ++ natBytes 3 0 ++ natBytes 4 1) 0 1 < 16 ∧ 16 ≤ field (natBytes 1 16 ++ natBytes 7 0) 0 1 ∧
      field (natBytes 8 1) 1 3 = 0) ∧ field [120] 0 1 = 120 := by decide +kernel

/-- The small device with port 4 an accelerator's, homed there, in a training state, its fibres bright. -/
def training (st : Nat) : State :=
  (put (put (put (ported 1) Reg.LINK_PORT_STAT_STATE [4] st) Reg.LINK_PORT_CFG_HOME [4] 1) Reg.GLB_UNIT_AVAIL_OE_IN_SERVICE []
    1).modLink (fun l => { l with dim := [] })

theorem witness_Frames : ∃ f : List Byte, f.length = 256 ∧ f ≠ idleBytes ∧ [f] ≠ [] ∧
    ((sendFrame 16 63 [f]).1).reverse.Perm (sendFrame 16 63 [f]).1 := by
  by_cases h : List.replicate 256 (1 : Byte) = idleBytes
  · refine ⟨List.replicate 256 2, List.length_replicate, fun e => ?_, List.cons_ne_nil _ _, List.reverse_perm _⟩
    have hd : (List.replicate 256 (1 : Byte)).head? = (List.replicate 256 (2 : Byte)).head? := by rw [h, e]
    exact absurd hd (by decide)
  · exact ⟨List.replicate 256 1, List.length_replicate, h, List.cons_ne_nil _ _, List.reverse_perm _⟩

/-- A codeword with a header and no payload. -/
def headed (type lcw : Nat) : Codeword := ⟨BitVec.ofNat 20 (type * 2 ^ 8 + lcw), []⟩

theorem witness_LinkTraining :
    (let s := put (training 6) Reg.LINK_CFG_IDLE_T [] 1
     s.active 4 = true ∧ s.livePort 4 = true ∧ s.fget Reg.LINK_CFG_IDLE_T [] ≠ 0 ∧ s.fget Reg.LINK_PORT_CTRL_PSTATE_REQ [4] ≠ 1 ∧
       s.fget Reg.LINK_PORT_STAT_PSTATE [4] = 0 ∧
       (put s Reg.LINK_PORT_STAT_PSTATE [4] 1).fget Reg.LINK_PORT_STAT_PSTATE [4] = 1) ∧
    ((∃ e ∈ [15, 16], 15 < e) ∧ (∀ e ∈ [15, 0], e ≤ 15) ∧ (headed 0 1).lcw = 1 ∧ (headed 2 0).type = 2 ∧
      (∀ x ∈ [headed 0 0], x.lcw ≠ 1 ∧ x.type ≠ 2) ∧ (headed 0 0).type = 0) ∧
    (max 1 ((put (training 6) Reg.LINK_CFG_UNC_MAX [] 3).fget Reg.LINK_CFG_UNC_MAX []) < 4) ∧
    ((training 4).active 4 = false ∧ (training 5).portState 4 = 5 ∧ kvGet? (training 4).link.exits 4 ≠ some (training 4).now) ∧
    (let s := put (training 6) Reg.LINK_CFG_LASER_MIN [] 7
     69 < 10 * s.fget Reg.LINK_CFG_LASER_MIN [] ∧ 10 * s.fget Reg.LINK_CFG_LASER_MIN [] ≤ 70) ∧
    (∀ st ∈ [1, 2, 3, 4, 5, 6], let s := training st
     s.livePort 4 = true ∧ s.portState 4 = st ∧ s.link.failed.contains 4 = false ∧
       (∀ g ∈ s.fibresOf 4, s.link.dim.contains g = false)) ∧
    2 ≤ popCount 3 ∧
    ((training 0).modLink (fun l => { l with failed := [4] })).link.failed.contains 4 = true ∧
    (let s := (training 5).modLink (fun l => { l with partner := [(4, 2, 0xFFFF)] })
     kvGet? s.link.partner 4 = some (2, 0xFFFF)) ∧
    trainedWidth 2 2 0xFFFF 0xFFFF true ≠ none ∧ trainedWidth 2 2 0 0 false = none := by decide +kernel

theorem witness_LinkKeysLossAndPresence :
    ((training 6).anchors = [] ∧ ({ training 6 with anchors := [1] } : State).anchors.contains 2 = false) ∧
    (∃ n, ({ put (training 6) Reg.LINK_PORT_CFG_ROLE [4] 2 with anchors := [1] } : State).ideRequester n = true) ∧
    ((put (training 6) Reg.LINK_IDE_STAT_STATE [4] 1).active 4 = true ∧
      (put (training 6) Reg.LINK_IDE_STAT_STATE [4] 1).fget Reg.LINK_IDE_STAT_STATE [4] = 1) ∧
    (put dev Reg.LINK_PILOT_STAT_CXL_UP [] 1).fget Reg.LINK_PILOT_STAT_CXL_UP [] = 1 ∧
    (put dev Reg.LINK_PILOT_STAT_IDE_STATE [] 2).fget Reg.LINK_PILOT_STAT_IDE_STATE [] = 2 ∧
    ((training 6).active 4 = true ∧ (training 6).secure 4 = true) ∧
    (((training 3).modLink (fun l => { l with away := [4] })).link.away.contains 4 = true ∧ (training 3).portState 4 ≠ 6) ∧
    bitAt 0 ((training 6).fget Reg.GLB_UNIT_AVAIL_OE_IN_SERVICE []) = true ∧
    (∀ role ∈ [1, 2, 3], let s := put (training 6) Reg.LINK_PORT_CFG_ROLE [4] role
     s.livePort 4 = true ∧ s.role 4 = role ∧ (s.modLink (fun l => { l with anew := [4] })).link.anew.contains 4 = true ∧
       s.active 4 = true) ∧
    (let s := put (training 2) Reg.MGT_DISC_PRESENT [4] 1
     s.livePort 4 = true ∧ s.fget Reg.MGT_DISC_PRESENT [4] = 1 ∧ s.active 4 = false) ∧
    (dev.railsDown = false ∧ dev.pilot.ready = true ∧ ((1 : Nat) = 1 ∨ (1 : Nat) = 2) ∧ ((0 : Nat) ≠ 1 ∧ (0 : Nat) ≠ 2)) :=
  ⟨by decide +kernel, ⟨4, by decide +kernel⟩, by decide +kernel, by decide +kernel, by decide +kernel, by decide +kernel,
    by decide +kernel, by decide +kernel, by decide +kernel, by decide +kernel, by decide +kernel⟩

/-- The device of State.reset in a phase of the start-up, with rail group 5 next. -/
def powered (p : PwrPhase) : State := State.reset.modPwr (fun w => { w with phase := p, group := 5 })

theorem witness_PowerTemperatureAndClocks_phases :
    (∀ p ∈ [PwrPhase.off, .debounce, .bus, .aon, .rails], (powered p).pwr.phase = p) ∧
    ((railGroup 5).contains ((railGroup 5).headD 0) = true ∧ (powered .rails).railGood ((railGroup 5).headD 0) = false ∧
      (powered .rails).tap.acted = false) ∧
    (∃ q ∈ railGroup 5, ((powered .rails).raiseRail ((railGroup 5).headD 0) 0 0 0).railGood q = false) ∧
    (let s := (railGroup 5).tail.foldl (fun t q => put t Reg.MGT_RAIL_GOOD [q] 1) (powered .rails)
     s.railGood ((railGroup 5).headD 0) = false ∧
       ∀ q ∈ railGroup 5, (s.raiseRail ((railGroup 5).headD 0) 0 0 0).railGood q = true) := by decide +kernel

/-- The small device with a demand for clock stretch of a supply and source, and capping on or off at 1,000 W. -/
def capped (x c d runOver : Nat) (cap : Bool) : State :=
  (dev.setDemand x c d).modPwr (fun w => { w with capEn := cap, capLimit := 1000, overRun := runOver })

theorem witness_PowerTemperatureAndClocks :
    (dev.aonUp = true ∧ dev.pwr.phase ≠ .heldOff ∧ dev.pwr.phase ≠ .off ∧ dev.pwr.phase ≠ .debounce ∧
      dev.pwr.phase ≠ .earlyFault ∧ dev.railsDown = false) ∧
    (put dev Reg.MGT_PWR_STAT_ILIMIT [] 1).fget Reg.MGT_PWR_STAT_ILIMIT [] = 1 ∧
    (let s := put (put dev Reg.MGT_SAG_CTRL_L1 [] 30) Reg.MGT_SAG_CTRL_L2 [] 35
     let l1 := max 20 (s.fget Reg.MGT_SAG_CTRL_L1 [])
     let l2 := max (l1 + 10) (s.fget Reg.MGT_SAG_CTRL_L2 [])
     29 < l1 ∧ (l1 ≤ 30 ∧ 39 < l2) ∧ l2 ≤ 40) ∧
    (0 < (capped 4 0 2 0 true).demand 4 0 ∧ 0 < (capped 4 1 1 0 true).demand 4 1 ∧ (capped 4 1 1 0 true).temp 4 < 90) ∧
    (∀ d ∈ [0, 1, 2], (capped 0 2 d 8 true).demand 0 2 = d ∧ (capped 0 2 d 8 true).pwr.capLimit = 1000) ∧
    (∀ o ∈ [8, 9], (capped 0 2 2 o true).pwr.overRun = o ∧ (capped 0 2 2 o true).fget Reg.MGT_PWR_STAT_OVER [] = 0) ∧
    (capped 0 2 0 0 true).pwr.capEn = true ∧ (capped 0 2 0 0 false).pwr.capEn = false := by decide +kernel


/-! ### One state and operands for the hypotheses of each statement: keys, mirrors, shadows, services, resets, whole device -/

/-- The small device with key slot 2047 in a state. -/
def slotDev (st gen : Nat) : State := put (put dev Reg.SEC_KS_B_STATE [2047] st) Reg.SEC_KS_A_GEN [2047] gen

theorem witness_KeySlots :
    ({ dev with kdRec := some (natBytes 64 0) } : State).kdRec = some (natBytes 64 0) ∧ (slotDev 2 1).slotState 2047 = 2 ∧
      (∀ g ∈ [2 ^ 32 - 2, 2 ^ 32 - 1], (slotDev 3 g).slotState 2047 = 3 ∧ (slotDev 3 g).fget Reg.SEC_KS_A_GEN [2047] = g ∧
        (∀ c ∈ (slotDev 3 g).scrubs, c.slot = 2047 → c.todo = [])) ∧ dev.obj? (2 ^ 28 + 1) = some object := by
  exact ⟨rfl, by decide +kernel, by decide +kernel, rfl⟩

/-- The small device rebuilding pair 11, with a loss log of the object's own partition and one run of LOST granules. -/
def losing (marked : Bool) (written : Nat) : State :=
  put (put (put { dev with
    objs := [(2 ^ 28 + 1, { object with data := memWrite [] 8 (natBytes 8 written) }),
      (2 ^ 28 + 2, { object with lost := if marked then [64] else [] })]
    mir := { dev.mir with rebuild := [(11, 7, [])], runs := [(2 ^ 28 + 2, [1])] } } Reg.PLACE_PAIR_STAT_STATE [11] 3)
    Reg.PLACE_MIR_CTRL_REBUILD_RATE [] 1) Reg.PLACE_LOSS_LOG_LOG [1] ref1

theorem witness_MirrorsAndLossLog :
    (∀ b, let s := losing b 0
     kvGet? s.mir.rebuild 11 = some (7, []) ∧ s.pairState 11 = 3 ∧ s.fget Reg.PLACE_MIR_CTRL_REBUILD_RATE [] ≠ 0 ∧
       s.mir.runs.find? (fun q => decide (handlePart q.1 = 1)) = some (2 ^ 28 + 2, [1]) ∧
       (s.obj? (2 ^ 28 + 2)).map (fun o => [1].filter (fun g => (span (64 * g) (64 * g + 64)).any (fun l => o.lost.contains l))) =
         some (if b then [1] else [])) ∧
    (∀ n ∈ [65531, 65532], let s := losing true n
     s.fget Reg.PLACE_LOSS_LOG_LOG [1] = ref1 ∧ refHandle ref1 = 2 ^ 28 + 1 ∧
       (s.objOfRef ref1).map (fun o => (o.rd, o.wr, (o.size - 64) / 16)) = some (true, true, 65532) ∧ s.wordAt (2 ^ 28 + 1) 8 = n ∧
       (n < s.wordAt (2 ^ 28 + 1) 0 + 65532 ↔ n = 65531)) := by decide +kernel

/-- The shadowing of partition 1 in progress. -/
def shadowing (leader joined promoting : Bool) (lag : Nat) : State :=
  (put (partDev (fun p => { p with shadow := some { Shadow.start leader with
    joined := joined
    promoting := promoting
    received := [(lag, 0, true)] } })) Reg.GLB_SHD_CTRL_LAG_MAX [1] 4)

theorem witness_Shadowing :
    (∀ leader joined promoting, ((shadowing leader joined promoting 0).part 1).shadow.map (fun h =>
      (h.leader, h.joined, h.promoting)) = some (leader, joined, promoting)) ∧
    (∀ lag ∈ [3, 4], (((shadowing false true false lag).part 1).shadow.map (fun h =>
      decide ((({ h with received := kvSet h.received 0 (0, true) } : Shadow).lag ((shadowing false true false lag).part 1).orbit) ≤
        (shadowing false true false lag).fget Reg.GLB_SHD_CTRL_LAG_MAX [1]))) = some (decide (lag = 3))) ∧
    (((shadowing false true false 0).applyForward 1 (.descriptor 3 [])).isSome = true ∧
      ((shadowing false true false 0).applyForward 1 (.descriptor 4 [])).isNone = true) := by decide +kernel

/-- A service request of four header bytes, a tag and a payload. -/
def serviceReq (op : Nat) (pay : List Byte) : List Byte := natBytes 1 op ++ [0] ++ natBytes 2 pay.length ++ natBytes 4 77 ++ pay

/-- The small device with flash slot 0 open to a transport, slot 1 committed or empty. -/
def flashed (owner st1 : Nat) : State :=
  { dev with nv := { dev.nv with slots := [(0, ⟨1, owner, 0, 0, 0, []⟩), (1, ⟨st1, 0, 0, 0, 0, []⟩)] } }

theorem witness_ServicesAnswer :
    ((flashed 2 2).mctpUp = true ∧ (flashed 2 2).pwr.phase ≠ .halted) ∧
    (∀ e ∈ [(1, []), (2, []), (4, natBytes 4 3 ++ natBytes 4 4096), (5, [4]), (6, natBytes 8 0 ++ natBytes 2 1),
        (7, natBytes 2 0 ++ natBytes 2 256)], svcOk (serviceReq e.1 e.2) = true ∧ svcOp (serviceReq e.1 e.2) = e.1 ∧
          (serviceReq e.1 e.2).length ≤ 4096 ∧ svcPayload (serviceReq e.1 e.2) = e.2) ∧
    (let q := serviceReq 3 (natBytes 4 0 ++ natBytes 4 64 ++ natBytes 64 5)
     svcOk q = true ∧ svcOp q = 3 ∧ 64 + ((svcPayload q).drop 8).length ≤ flashRoom 0) ∧
    svcOk (serviceReq 8 []) = false ∧
    (((flashed 1 2).flash 0).foreign 2 = true ∧ ((flashed 2 2).flash 0).foreign 2 = false ∧ (flashed 2 0).flashGuard 0 = true ∧
      (flashed 2 2).flashGuard 0 = false ∧ ((flashed 2 2).flash 0).st = 1 ∧ ((flashed 2 2).flash 1).st = 2 ∧
      ((flashed 2 2).flash 3).st = 0) ∧
    (let s := put dev Reg.MGT_SVC_STAT_BUSY [] 1
     s.fget Reg.MGT_SVC_STAT_BUSY [] = 1) ∧ telemSize 12 ≥ 1 ∧
    (let s := (flashed 2 2).modPwr (fun w => { w with phase := .halted })
     s.mctpUp = true ∧ s.pwr.phase = .halted ∧ svcOk (serviceReq 5 [2]) = true ∧ svcOp (serviceReq 5 [2]) = 5 ∧
       2 ≤ field (svcPayload (serviceReq 5 [2])) 0 1) := by decide +kernel

theorem witness_ServicesAnswer_long : 4096 < (List.replicate 4097 (0 : Byte)).length := by
  rw [List.length_replicate]; decide

/-- A request in the service mailbox. -/
def mailed : State := poke (put dev Reg.MGT_SVC_STAT_BUSY [] 1) .MGT_SVC_BUF [0] 0x4D00000001

theorem witness_ServicesAnswer_mailbox : mailed.fget Reg.MGT_SVC_STAT_BUSY [] = 1 ∧ svcOp mailed.svcBuf = 1 := by decide +kernel

/-- The small device with a capture for view 15 of partition 1, or with its write in progress and its requests answered. -/
def viewed (ref : Nat) (writing : Bool) : State :=
  { dev.modView 1 15 (fun x => if writing then { x with writing := some (ref, List.replicate 64 0) }
      else { x with capture := some (ref, List.replicate 64 0) }) with reqs := [answered (.view 31) 0 true] }

theorem witness_ManagementPortsAndViews :
    (dev.aonUp = true ∧ dev.devResetDue = false ∧ dev.railsDown = false ∧ (powered .boot).railsDown = true) ∧
    (let s := put (powered .boot) Reg.MGT_RAIL_GOOD [0] 1
     put (put s Reg.MGT_RAIL_GOOD [48] 1) Reg.MGT_RAIL_GOOD [0] 1 |>.aonUp) = true ∧
    (∀ r ∈ [ref1, 7], ∀ w, ((viewed r w).view 1 15).capture = (if w then none else some (r, List.replicate 64 0)) ∧
      ((viewed r w).view 1 15).writing = (if w then some (r, List.replicate 64 0) else none)) ∧
    ((viewed 7 true).objOfRef 7 = none ∧ ((viewed ref1 true).objOfRef ref1).isSome = true ∧
      (viewed ref1 true).keyRetired object = false ∧ (viewed ref1 true).keyRetired { object with keyGen := 2 } = true ∧
      (viewed ref1 false).inSwap 1 = false) ∧
    ((viewed ref1 true).ready (.view 31) (2 ^ 28 + 1) (blocksOf 64 0 64) true = true ∧
      worst ((viewed ref1 true).reqFinals (.view 31) ++ (blocksOf 64 0 64).map (fun l =>
        (viewed ref1 true).writeStatus object (2 ^ 28 + 1) l true ((viewed ref1 true).sentLine (.view 31) (2 ^ 28 + 1) l))) = none) := by
  decide +kernel

theorem witness_StartUpAndResets :
    (∀ p ∈ [PwrPhase.boot, .train], (powered p).pwr.phase = p ∧ (powered p).tap.acted = false) ∧
    (powered .boot).nv.committed [0, 1] = [] ∧
    (let f : FlashSlot := ⟨2, 0, 4096, 1, 1, []⟩
     let nv : Nv := { State.reset.nv with slots := [(1, f)], fwFloor := 2 }
     nv.committed [0, 1] = [(1, f)] ∧ f.svn < nv.fwFloor) ∧
    (dev.aonUp = true ∧ dev.railsDown = false ∧ ({ dev with pwr := { dev.pwr with perst := true } } : State).pwr.perst = true) ∧
    (closedDev.devResetDue = true ∧ closedDev.pwr.phase = .ready) := by decide +kernel

theorem witness_StepTakesTheFront :
    ({ dev with pending := [.snap] } : State).pending = [.snap] ∧ dev.pending = [] := ⟨rfl, rfl⟩

theorem witness_RollbackMaximaNeverFall :
    State.reset.nv.notBelow State.reset.nv ∧ ∃ t, step { State.reset with pending := [.tapReset] } = .next t :=
  ⟨⟨Nat.le_refl _, Nat.le_refl _, id, id, fun _ => Nat.le_refl _⟩, _, rfl⟩

theorem witness_ExactSumsAreExact :
    XAcc.clear.bins.length = 10 ∧ [FVal.fin false 1 0, .fin true 1 0].Perm [.fin true 1 0, .fin false 1 0] ∧
      ((2 ^ 32 - 1 : Nat) < 2 ^ 32 ∧ (-160 : Int) ≤ -160 ∧ (104 : Int) ≤ 104) := by
  refine ⟨rfl, ?_, by decide⟩
  exact List.Perm.swap _ _ _

theorem witness_DisabledAndIllFormed :
    (∀ opc w, opc < 256 → Runs (holding dev 0 opc w) 0 0 strand opc w) ∧
      ({ MWord.gate false 0 with rsv := 1 } : MWord).rsv ≠ 0 ∧ strand.enabled (MWord.gate true 0) 0 = false ∧
      strand.epred (MWord.gate true 0) = 0 ∧
      (let x : Ctx := { strand with pc := 8 }
       (devOf x).issuer 0 = some (0, x) ∧ (devOf x).fetchOk x = false ∧ (devOf x).slotTaken 0 .memory = false) :=
  ⟨strand_runs, by decide, by decide, by decide, rfl, by decide, by decide⟩

theorem witness_StatusOrder : ∀ k, some k ∈ [none, some 0x0A, some 0x07] →
    k ∈ [0x07, 0x08, 0x06, 0x04, 0x05, 0x0C, 0x09, 0x0B, 0x03, 0x02, 0x01, 0x0A, 0x00] := by
  intro k h; simp at h; rcases h with h | h <;> subst h <;> decide

theorem witness_ExpTwo : (0x43000000 : Nat) < 2 ^ 32 ∧ (0xC3200000 : Nat) < 2 ^ 32 := by decide

theorem witness_ErrorQueues :
    dev.devq.used < 1024 ∧ 1024 ≤ ({ dev with devq := { dev.devq with tail := 1024 } } : State).devq.used ∧
      (dev.part 1).errq.used < 128 ∧
      128 ≤ ((partDev (fun p => { p with errq := { p.errq with tail := 128 } })).part 1).errq.used ∧
      (dev.devq.recs = [] ∧ 1024 ∈ [128, 1024] ∧ dev.devq.head < 2 ^ 32 ∧ dev.devq.tail < 2 ^ 32 ∧
        kvSorted dev.devq.recs = true) := by decide +kernel


/-! ### Well-formedness: one ill-formed term for each check, and terms at the end of the range -/

/-- A word of no instruction in particular. -/
def blank : MWord := MWord.gate false 0

theorem test_wellFormed_refuses_core :
    [Instr.nop 512 blank, .orbitBoundary 16, .errHead 17 0, .contextAbort 4096, .moonLeavesService 64, .pilotDoorbell 8192 0,
      .lossOfLight 256, .viralReceived 257, .crossbarGrant ⟨272, true⟩, .spillReturn 0 0 8, .getDcRegionExtentLists true 4096].all
        (fun i => !i.wellFormed) = true := by decide

theorem test_wellFormed_refuses_addresses :
    [Instr.memrd 0 0 0 0 (2 ^ 52) false, .memrd 0 0 0 (2 ^ 16) 0 false, .fabricIoTlp 0 (2 ^ 14) .other false,
      .moveCopyDone (2 ^ 32), .offerLapse (2 ^ 64), .jobTeardown 0 (2 ^ 32), .thermalReading 0 256,
      .bar0UnalignedAccess (2 ^ 26) ⟨true, 4⟩, .registerWrite 4 .read, .xaccNormalise 0 64, .memwrptl 0 0 0 0 0 (List.replicate 64 0) (2 ^ 64),
      .m2sOtherOpcode 0 0 3].all (fun i => !i.wellFormed) = true := by decide

theorem test_wellFormed_refuses_units :
    [Instr.trainingFrame 0 4 0 1 false, .trainingStateEnd 0 (2 ^ 16), .laserLow 64 0, .oeLeavesService 32 2, .oeLeavesService 0 1,
      .railFault 49, .sagRecover 5, .thermalReading 46 0, .drainBound 2048, .pair 24 0, .rebuildCopyDone 12, .shadowJoin 0 (2 ^ 40) 0,
      .shadowFail 0 0, .flashSlotTimeout 4, .i3cEntdaa 128, .viewWrite 0 16].all (fun i => !i.wellFormed) = true := by decide

theorem test_wellFormed_refuses_lists :
    [Instr.memwr 0 0 0 0 0 (List.replicate 63 0), .spdmMeasurements [], .dataFrame 0 [] (List.replicate 17 0) [], .dataFrame 0 [⟨0, []⟩] [] [],
      .hbmTrainingEnd ⟨[8], false⟩, .checkWindow [(24, 0, 0, List.replicate 64 0)], .checkWindow [(23, 0, 0, [])],
      .s2mDrs 0 0 ⟨some [], false⟩ false].all (fun i => !i.wellFormed) = true := by decide

theorem test_wellFormed_refuses_long :
    [Instr.deviceMessageRun 0 0 0 0 0 (List.replicate 64 0) (List.replicate 4097 0),
      .setEventInterruptPolicy true (List.replicate 4097 0)].all (fun i => !i.wellFormed) = true := by decide +kernel

theorem test_wellFormed_accepts :
    [Instr.nop 511 blank, .orbitBoundary 15, .errHead 16 0, .contextAbort 4095, .crossbarGrant ⟨271, true⟩, .viralReceived 256,
      .registerWrite (2 ^ 26 - 8) (.write 0), .shadowFail 0 7, .oeLeavesService 31 3, .flashSlotTimeout 3].all Instr.wellFormed = true := by
  decide


/-! ### Worked values of the spec -/

/-- The worked case of R78: exp2(−0.5) is 0x3F35_04F3. -/
theorem test_exp2_worked : exp2 0xBF000000 = 0x3F3504F3 := by decide +kernel

/-- R76: exp2 of 128 is +Inf, of a value below −160 is +0, of NaN the canonical NaN. -/
theorem test_exp2_special : [exp2 0x43000000, exp2 0xC3200001, exp2 0xFFC00001, exp2 0x80000000] =
    [0x7F800000, 0, 0x7FC00000, 0x3F800000] := by decide +kernel

/-- R80: the reciprocal of 3.0 is 0x3EAA_AAAB. -/
theorem test_rcp_three : rcp 0x40400000 = 0x3EAAAAAB := by decide +kernel

/-- R85: 1,536 tiles over 64 Moons are 24 each. -/
theorem test_deal_64 : ((dealOver [] (List.range 128) (List.range 64)).filter (fun e => e.2 = 5)).map (fun e => e.1) = [5, 69] := by
  decide +kernel

/-- The image of Darjeeling's first request: WIN_KIB 640, TUNITS 320, no walkers, is 761,856 bytes (chapter Bring-up). -/
theorem test_image_bytes : imageBytes (640 * 1024) 320 0 = 761856 := by decide

/-- OP200 after the loss of L405: bound x16, 15 lanes locked here and 16 there, with fallback, trains x8 (chapter Optical link). -/
theorem test_trained_width : trainedWidth 3 3 0xFFDF 0xFFFF true = some 2 ∧ trainedWidth 3 3 0xFFDF 0xFFFF false = none := by
  decide +kernel

/-- The first record of the faulty program version in HP3 (chapter Errors): its 32 bytes. -/
theorem test_record_bytes : Rec.bytes ⟨0x05, 1, 2, 0, 3, 1, 0, 0x3000A045 + 0x52 * 2 ^ 32, 0x230, 20000000000⟩ =
    [0x05, 0x01, 0x02, 0x00, 0x03, 0x01, 0x00, 0x00, 0x45, 0xA0, 0x00, 0x30, 0x52, 0x00, 0x00, 0x00,
     0x30, 0x02, 0x00, 0x00, 0x00, 0x00, 0x00, 0x00, 0x00, 0xC8, 0x17, 0xA8, 0x04, 0x00, 0x00, 0x00] := by decide +kernel

/-! ### Single steps -/

/-- The field of a context of slot 0 after it issues an instruction, its program holding that opcode and word. -/
def then0 {α : Type} (y : Ctx) (opc : Nat) (i : Nat → MWord → Instr) (w : MWord) (f : Ctx → α) : Option α :=
  ((after (i 0 w) (loaded y opc w)).ctx? 0).map f

/-- A word with register fields. -/
def regsWord (d a b : BitVec 5) : MWord := { blank with dst := d, sa := a, sb := b }

/-- s1 = 2^64 − 1 and s2 = 1. -/
def edge : Ctx := (strand.setS 1 (BitVec.allOnes 64)).setS 2 1

theorem test_sadd_wraps : then0 edge 0x01 .sadd (regsWord 3 1 2) (fun x => (x.getS 3, x.pc)) = some (0, 16) := by decide +kernel
theorem test_ssub_borrows : then0 edge 0x03 .ssub (regsWord 1 2 1) (fun x => x.getS 1) = some 2 := by decide +kernel
theorem test_smul_low : then0 edge 0x04 .smul (regsWord 3 1 1) (fun x => x.getS 3) = some 1 := by decide +kernel
theorem test_sshf_arithmetic :
    then0 edge 0x08 .sshf { blank with dst := 3, sa := 1, md := 10, imm := 63 } (fun x => x.getS 3) = some (BitVec.allOnes 64) := by
  decide +kernel
theorem test_scmp_signed : then0 edge 0x0A .scmp { regsWord 0 1 2 with md := 2, aux := 1 } (fun x => x.getP 1) =
    some (BitVec.allOnes 256) := by decide +kernel
theorem test_scmp_unsigned : then0 edge 0x0A .scmp { regsWord 0 1 2 with md := 10, aux := 1 } (fun x => x.getP 1) = some 0 := by
  decide +kernel
theorem test_br_back : then0 { strand with pc := 32 } 0x0B .br { blank with imm := 0xFFFFFFFF } (fun x => x.pc) = some 16 := by
  decide +kernel
theorem test_halt_ends : then0 strand 0x0C .halt blank (fun x => x.running) = some false := by decide +kernel

/-- R113: INT8 addition saturates at 127; R97: a reserved bit raises ILLEGAL, which marks the context for abort. -/
theorem test_vadd_saturates :
    then0 (strand.setV 1 0x7F) 0x10 .vadd { regsWord 2 1 1 with fmt := 5, md := 1 } (fun x => elemOf .int8 (x.getV 2) 0) = some 127 := by
  decide +kernel
theorem test_reserved_is_illegal : then0 strand 0x00 .nop { blank with rsv := 1 } (fun x => x.abortPending) = some true := by
  decide +kernel

/-- R90: an opcode that no chapter lists raises ILLEGAL. -/
theorem test_unlisted_opcode :
    ((after (.nop 0 blank) (loaded strand 0xFF blank)).ctx? 0).map (fun x => x.abortPending) = some true := by decide +kernel

/-- R94: a write to p0 is discarded. -/
theorem test_pset_p0 : then0 strand 0x24 .pset { blank with imm := 3 } (fun x => x.getP 0) = some (BitVec.allOnes 256) := by
  decide +kernel
theorem test_pcnt : then0 (strand.setP 1 0b1011) 0x22 .pcnt { blank with dst := 3, sa := 1 } (fun x => x.getS 3) = some 3 := by
  decide +kernel

/-- R70: 1.0 enters an exact accumulator as 2^160: bin 5. -/
theorem test_xadd_one : then0 (strand.setV 1 0x3F800000) 0x61 .xadd { blank with sa := 1 } (fun x => (binsValue (x.getX 0).bins, (x.getX 0).count)) =
    some (2 ^ 160, 64) := by decide +kernel

/-- R137: ACSET and ACRD; R141: ORBIT waits for the boundary. -/
theorem test_acset : then0 edge 0x91 .acset { blank with sa := 2, imm := 255 } (fun x => x.getAc 255) = some 1 := by decide +kernel
theorem test_orbit_waits : then0 strand 0x94 .orbit { blank with dst := 3 } (fun x => (x.atOrbit, x.wait)) = some (some 3, .orbit) := by
  decide +kernel

/-- R152: CQPOP of an empty queue answers all ones. -/
theorem test_cqpop_empty : then0 walking 0xA2 .cqpop { blank with dst := 3, aux := 1 } (fun x => (x.getS 3, x.getS 4)) =
    some (BitVec.allOnes 64, 0) := by decide +kernel

/-- R153: of two entries at one distance the lower ID comes first. -/
theorem test_push_orders : ((⟨2, 1, [], [], []⟩ : Walker).push ⟨5, 9⟩).1.push ⟨5, 4⟩ = (⟨2, 1, [⟨5, 4⟩, ⟨5, 9⟩], [], []⟩, 0) := by
  decide +kernel

/-- A store of 64 bytes waits, and its answer writes the object. -/
theorem test_store_waits : then0 streamer 0x81 .st { blank with aux := 1, imm := 64 } (fun x => x.outst.isSome) = some true := by decide +kernel
theorem test_answer_stores :
    ((after (.memoryAnswer 0 []) { devOf { strand with outst := some storeOp } with
      reqs := [answered (.instr 0 9) 0 true, answered (.instr 0 9) 1 true] }).obj? (2 ^ 28 + 1)).map (fun o => memRead o.data 59 4 ++ memRead o.data 100 1) = some [0, 1, 2, 0, 3] := by decide +kernel

/-- R352: a descriptor without its privilege ends with ACCESS; R368: a free reference is claimed at epoch 0. -/
theorem test_query_sizes : ((after (.query 3) (desk queryDesc)).qp 3).service.map (fun v => v.2) = some (.done 0 (2 ^ 20) (256 <<< 16)) := by
  decide +kernel
theorem test_claim : (after (.ownClaim 3) (desk (descriptor [(0, 1, 0x28), (16, 8, ref1)]))).own = [⟨ref1, 1, 0, none, false⟩] := by
  decide +kernel

/-- R5: a read of 4 bytes returns zero. R409: word 17 of a frame 16 lanes wide is word 1 of lane 1. -/
theorem test_short_read : (after (.bar0UnalignedAccess 8 ⟨false, 4⟩) sealedDev).out.head? = some (.bar0 8 0) := by decide +kernel
theorem test_stripe_word : ((laneOf 16 (List.replicate (8 * 17) 0 ++ [7]) 1).drop 8).head? = some 7 := by decide +kernel

/-- R5: an access of 4 bytes is dropped with a REFUSAL record of code 1; R46: bit 1 of GLB_ORB_RAISE raises the flag of partition 1. -/
theorem test_unaligned : (after (.bar0UnalignedAccess 8 ⟨true, 4⟩) sealedDev).devq.tail = 1 := by decide +kernel
theorem test_orb_raise : ((after (.orbRaise 2) sealedDev).part 1).hostFlag = true := by decide +kernel

/-- R502: a wrong key resets nothing. -/
theorem test_dev_reset_key : (after (.errDevReset 0x54535244) sealedDev).devResetDue = true := by decide +kernel
theorem test_dev_reset_wrong : (after (.errDevReset 0x54535245) sealedDev).devResetDue = false := by decide +kernel

/-- R449: a snapshot latches every domain that runs. R437: VIN at 45.0 V does not start the debounce, 45.01 V does. -/
theorem test_vin_rise : ((after (.vinRise 4500) State.reset).pwr.phase, (after (.vinRise 4501) State.reset).pwr.phase) =
    (.off, .debounce) := by decide +kernel
theorem test_rail_fault : (after (.railFault 6) dev).fget Reg.MGT_PWR_FAULT_CAUSE [] = 1 := by decide +kernel

/-- R543: the input 04 00 0B 00 assigns ID 11 to port 4. -/
theorem test_assign : (after (.skAssignPbr true [0x04, 0x00, 0x0B, 0x00]) { peered with pilot := sealedDev.pilot }).pbrOfPort 4 = some 11 := by
  decide +kernel

/-- R415: an accelerator port that leaves ACTIVE for loss of light retrains from LOCK; R426: viral is recorded. -/
theorem test_loss_of_light : (after (.lossOfLight 4) (training 6)).portState 4 = 2 := by decide +kernel
theorem test_viral : (after (.viralReceived 4) (training 6)).devq.tail = 1 := by decide +kernel

/-- R539: erasing an open slot of MCTP's empties it. R461: IDCODE shifts out 0x1480056F. -/
theorem test_erase : ((after (.flashErase (some (serviceReq 5 [0]))) (flashed 2 2)).flash 0).st = 0 := by decide +kernel
theorem test_idcode : (after .idcode dev).out = [.tdo [0x6F, 0x05, 0x80, 0x14]] := by decide +kernel

end Sys2Proof.Tests
end

section
/-!
PROOFS. The status reported of several (R10): what `worst` answers, by the rank of the statuses that apply, and that the
first of a list sorted by rank is the one of least rank.
-/
namespace Sys2Proof.Machine

/-! ### The first of two statuses, and the first of a list -/

theorem stFirst_eq_left_or_right (a b : Nat) : stFirst a b = a ∨ stFirst a b = b := by
  unfold stFirst
  split
  · exact .inl rfl
  · exact .inr rfl

theorem stRank_stFirst (a b : Nat) : stRank (stFirst a b) = min (stRank a) (stRank b) := by
  unfold stFirst
  split <;> omega

theorem worst_none_cons (l : List (Option Nat)) : worst (none :: l) = worst l := rfl

theorem worst_some_none_cons (x : Nat) (l : List (Option Nat)) : worst (some x :: none :: l) = worst (some x :: l) := rfl

/-- Two statuses that apply count as the first of the two. -/
theorem worst_some_some_cons (x y : Nat) (l : List (Option Nat)) :
    worst (some x :: some y :: l) = worst (some (stFirst x y) :: l) := rfl

/-- A status that applies, where none that applies has a smaller rank (R10). -/
def AppliesFirst (l : List (Option Nat)) (k : Nat) : Prop :=
  some k ∈ l ∧ ∀ j, some j ∈ l → stRank k ≤ stRank j

theorem some_mem_none_cons {l : List (Option Nat)} {j : Nat} : some j ∈ none :: l ↔ some j ∈ l := by
  simp only [List.mem_cons, reduceCtorEq, false_or]

theorem some_mem_some_none_cons {l : List (Option Nat)} {x j : Nat} :
    some j ∈ some x :: none :: l ↔ some j ∈ some x :: l := by
  rw [List.mem_cons, some_mem_none_cons, List.mem_cons]

/-- Only the statuses that apply decide which applies first. -/
theorem AppliesFirst.congr {l l' : List (Option Nat)} {k : Nat} (h : AppliesFirst l k)
    (same : ∀ {j}, some j ∈ l' ↔ some j ∈ l) : AppliesFirst l' k := by
  obtain ⟨hmem, hle⟩ := h
  exact ⟨same.mpr hmem, fun j hj => hle j (same.mp hj)⟩

/-- What applies first where a pair of statuses counts as the first of the two applies first of them both. -/
theorem AppliesFirst.of_stFirst_cons {x y k : Nat} {l : List (Option Nat)} (h : AppliesFirst (some (stFirst x y) :: l) k) :
    AppliesFirst (some x :: some y :: l) k := by
  obtain ⟨hmem, hle⟩ := h
  have hpair : stRank k ≤ min (stRank x) (stRank y) := stRank_stFirst x y ▸ hle _ List.mem_cons_self
  simp only [AppliesFirst, List.mem_cons, Option.some.injEq] at hmem hle ⊢
  constructor
  · rcases hmem with rfl | hl
    · rcases stFirst_eq_left_or_right x y with e | e
      · exact .inl e
      · exact .inr (.inl e)
    · exact .inr (.inr hl)
  · rintro j (rfl | rfl | hl)
    · omega
    · omega
    · exact hle j (.inr hl)

theorem worst_some_cons_appliesFirst (x : Nat) (l : List (Option Nat)) :
    ∃ k, worst (some x :: l) = some k ∧ AppliesFirst (some x :: l) k := by
  induction l generalizing x with
  | nil =>
    refine ⟨x, rfl, List.mem_cons_self, fun j hj => ?_⟩
    obtain rfl : j = x := Option.some.inj (List.mem_singleton.mp hj)
    exact Nat.le_refl _
  | cons o l ih =>
    cases o with
    | none =>
      obtain ⟨k, hk, hfirst⟩ := ih x
      exact ⟨k, (worst_some_none_cons x l).trans hk, hfirst.congr some_mem_some_none_cons⟩
    | some y =>
      obtain ⟨k, hk, hfirst⟩ := ih (stFirst x y)
      exact ⟨k, (worst_some_some_cons x y l).trans hk, hfirst.of_stFirst_cons⟩

/-- `worst` reports nothing where no status applies, and else the one that applies first. -/
theorem worst_cases (l : List (Option Nat)) :
    (worst l = none ∧ ∀ j, some j ∉ l) ∨ ∃ k, worst l = some k ∧ AppliesFirst l k := by
  induction l with
  | nil => exact .inl ⟨rfl, fun _ => List.not_mem_nil⟩
  | cons o l ih =>
    cases o with
    | none =>
      rw [worst_none_cons]
      rcases ih with ⟨hnone, habsent⟩ | ⟨k, hk, hfirst⟩
      · exact .inl ⟨hnone, fun j hj => habsent j (some_mem_none_cons.mp hj)⟩
      · exact .inr ⟨k, hk, hfirst.congr some_mem_none_cons⟩
    | some x => exact .inr (worst_some_cons_appliesFirst x l)

/-! ### The order of R10 -/

/-- In a list sorted by rank, the first element that meets a test is the one of least rank that meets it. -/
theorem find?_eq_some_of_stRank_least {order : List Nat} (sorted : order.Pairwise (stRank · < stRank ·)) {p : Nat → Bool}
    {k : Nat} (hk : k ∈ order) (hp : p k = true) (least : ∀ j, p j = true → stRank k ≤ stRank j) :
    order.find? p = some k := by
  obtain ⟨before, after, rfl⟩ := List.append_of_mem hk
  refine List.find?_eq_some_iff_append.mpr ⟨hp, before, after, rfl, fun j hj => ?_⟩
  obtain ⟨-, -, rises⟩ := List.pairwise_append.mp sorted
  have earlier : stRank j < stRank k := rises j hj k List.mem_cons_self
  have fails : p j = false := Bool.eq_false_iff.mpr fun hpj => Nat.not_le_of_lt earlier (least j hpj)
  rw [fails, Bool.not_false]

/-- `worst` finds the first status that applies in any list that is sorted by rank and holds all that apply. -/
theorem worst_eq_find? {order : List Nat} (sorted : order.Pairwise (stRank · < stRank ·)) {l : List (Option Nat)}
    (all : ∀ k, some k ∈ l → k ∈ order) : worst l = order.find? (fun k => l.contains (some k)) := by
  rcases worst_cases l with ⟨hnone, habsent⟩ | ⟨k, hk, hmem, least⟩
  · rw [hnone]
    exact (List.find?_eq_none.mpr fun k _ hc => habsent k (List.contains_iff_mem.mp hc)).symm
  · rw [hk]
    exact (find?_eq_some_of_stRank_least sorted (p := fun j => l.contains (some j)) (all k hmem)
      (List.contains_iff_mem.mpr hmem) (fun j hj => least j (List.contains_iff_mem.mp hj))).symm

/-- Settles O58: the ranks of the model rise along the order of R10. -/
theorem statusOrder : Obligations.StatusOrder :=
  fun _ all => worst_eq_find? (by decide) all

end Sys2Proof.Machine
end

section
/-!
PROOFS. The partial-sum stack of R67 and the tree of R66. Closing a stack asks only for the values of its nodes, not their sizes, so
that a merge changes no result; and the stack of a list is that of the next level of its tree with all sizes doubled. Hence closing
the stack of a list and closing that of any of its levels give the same value.
-/
namespace Sys2Proof.Machine

section TreeLevels
variable {α : Type} (add : α → α → α) (d : α)

/-! ### Closing a stack -/

theorem stackClose_cons_cons (n m : Nat) (x y : α) (st : List (Nat × α)) :
    stackClose add d ((n, x) :: (m, y) :: st) = stackClose add d ((n + m, add y x) :: st) := rfl

theorem stackMerge_of_eq (k n : Nat) (x y : α) (st : List (Nat × α)) :
    stackMerge add (k + 1) ((n, x) :: (n, y) :: st) = stackMerge add k ((n + n, add y x) :: st) := if_pos rfl

theorem stackMerge_of_ne (k : Nat) {n m : Nat} (h : n ≠ m) (x y : α) (st : List (Nat × α)) :
    stackMerge add (k + 1) ((n, x) :: (m, y) :: st) = (n, x) :: (m, y) :: st := if_neg h

/-- A merge sums what closing would sum next. -/
theorem stackClose_stackMerge (k : Nat) (st : List (Nat × α)) :
    stackClose add d (stackMerge add k st) = stackClose add d st := by
  fun_induction stackMerge add k st with
  | case1 k x m y r ih => rw [ih, stackClose_cons_cons]
  | case2 => rfl
  | case3 => rfl

theorem stackClose_stackPush (st : List (Nat × α)) (x : α) :
    stackClose add d (stackPush add st x) = stackClose add d ((1, x) :: st) :=
  stackClose_stackMerge add d _ _

/-! ### Stacks with doubled sizes -/

/-- The stack with the size of every node doubled: each value stands for a pair of the level below. -/
def doubleSizes (st : List (Nat × α)) : List (Nat × α) := st.map fun p => (2 * p.1, p.2)

@[simp] theorem doubleSizes_nil : doubleSizes ([] : List (Nat × α)) = [] := rfl

@[simp] theorem doubleSizes_cons (n : Nat) (x : α) (st : List (Nat × α)) :
    doubleSizes ((n, x) :: st) = (2 * n, x) :: doubleSizes st := rfl

@[simp] theorem length_doubleSizes (st : List (Nat × α)) : (doubleSizes st).length = st.length := List.length_map _

/-- Closing asks for the values alone. -/
theorem stackClose_cons_doubleSizes (n m : Nat) (x : α) (st : List (Nat × α)) :
    stackClose add d ((n, x) :: doubleSizes st) = stackClose add d ((m, x) :: st) := List.foldl_map

theorem stackClose_doubleSizes (st : List (Nat × α)) : stackClose add d (doubleSizes st) = stackClose add d st := by
  cases st with
  | nil => rfl
  | cons p r => exact stackClose_cons_doubleSizes add d _ _ p.2 r

/-- A value pushed where all sizes are even meets no node of its size. -/
theorem stackPush_doubleSizes (st : List (Nat × α)) (x : α) :
    stackPush add (doubleSizes st) x = (1, x) :: doubleSizes st := by
  cases st with
  | nil => rfl
  | cons p r =>
    have odd : 1 ≠ 2 * p.1 := by omega
    exact stackMerge_of_ne add _ odd x p.2 (doubleSizes r)

/-- Two nodes are of equal size exactly where their doubled sizes are equal. -/
theorem stackMerge_doubleSizes (k : Nat) (st : List (Nat × α)) :
    stackMerge add k (doubleSizes st) = doubleSizes (stackMerge add k st) := by
  induction k generalizing st with
  | zero => simp only [stackMerge]
  | succ k ih =>
    rcases st with - | ⟨⟨n, x⟩, - | ⟨⟨m, y⟩, r⟩⟩
    · rfl
    · rfl
    · by_cases same : n = m
      · subst same
        have double : 2 * n + 2 * n = 2 * (n + n) := by omega
        rw [doubleSizes_cons, doubleSizes_cons, stackMerge_of_eq, stackMerge_of_eq, double, ← doubleSizes_cons, ih]
      · have differ : 2 * n ≠ 2 * m := by omega
        rw [doubleSizes_cons, doubleSizes_cons, stackMerge_of_ne add k differ, stackMerge_of_ne add k same, doubleSizes_cons,
          doubleSizes_cons]

/-- A pair of values, pushed where all sizes are even, does what its sum does one level up. -/
theorem stackPush_stackPush_doubleSizes (st : List (Nat × α)) (x y : α) :
    stackPush add (stackPush add (doubleSizes st) x) y = doubleSizes (stackPush add st (add x y)) := by
  rw [stackPush_doubleSizes]
  calc stackPush add ((1, x) :: doubleSizes st) y
      = stackMerge add (st.length + 1) (doubleSizes ((1, add x y) :: st)) := by
        rw [stackPush, stackMerge_of_eq, List.length_cons, length_doubleSizes, doubleSizes_cons]
    _ = doubleSizes (stackPush add st (add x y)) := stackMerge_doubleSizes add _ _

/-! ### A level of the tree -/

/-- Pushing values where all sizes are even closes to what pushing their next level does (R66, R67). -/
theorem stackClose_foldl_doubleSizes (l : List α) (st : List (Nat × α)) :
    stackClose add d (l.foldl (stackPush add) (doubleSizes st)) =
      stackClose add d ((treeLevel add l).foldl (stackPush add) st) := by
  fun_induction treeLevel add l generalizing st with
  | case1 x y r ih => rw [List.foldl_cons, List.foldl_cons, stackPush_stackPush_doubleSizes, ih, List.foldl_cons]
  | case2 l short =>
    rcases l with - | ⟨x, - | ⟨y, r⟩⟩
    · exact stackClose_doubleSizes add d st
    · simp only [List.foldl_cons, List.foldl_nil, stackClose_stackPush]
      exact stackClose_cons_doubleSizes add d 1 1 x st
    · exact absurd rfl (short x y r)

theorem stackClose_foldl_treeLevel (l : List α) :
    stackClose add d ((treeLevel add l).foldl (stackPush add) []) = stackClose add d (l.foldl (stackPush add) []) :=
  (stackClose_foldl_doubleSizes add d l []).symm

theorem stackClose_foldl_treeFold (k : Nat) (l : List α) :
    stackClose add d ((treeFold add k l).foldl (stackPush add) []) = stackClose add d (l.foldl (stackPush add) []) := by
  induction k generalizing l with
  | zero => rfl
  | succ k ih => exact (ih _).trans (stackClose_foldl_treeLevel add d l)

/-! ### The last level -/

theorem length_treeLevel (l : List α) : (treeLevel add l).length = (l.length + 1) / 2 := by
  fun_induction treeLevel add l with
  | case1 x y r ih => simp only [List.length_cons, ih]; omega
  | case2 l short =>
    rcases l with - | ⟨x, - | ⟨y, r⟩⟩
    · exact (Nat.div_eq_of_lt Nat.one_lt_two).symm
    · exact (Nat.div_self Nat.two_pos).symm
    · exact absurd rfl (short x y r)

/-- As many levels as there are values leave one node at most. -/
theorem length_treeFold_le_one (k : Nat) (l : List α) (enough : l.length ≤ k + 1) : (treeFold add k l).length ≤ 1 := by
  induction k generalizing l with
  | zero => exact enough
  | succ k ih =>
    refine ih _ ?_
    rw [length_treeLevel]
    omega

theorem stackClose_foldl_of_length_le_one (l : List α) (single : l.length ≤ 1) :
    stackClose add d (l.foldl (stackPush add) []) = l.headD d := by
  rcases l with - | ⟨x, - | ⟨y, r⟩⟩
  · rfl
  · rfl
  · exact absurd single (Nat.not_le_of_lt (Nat.succ_lt_succ (Nat.succ_pos _)))

theorem stackClose_foldl_stackPush (l : List α) : stackClose add d (l.foldl (stackPush add) []) = fixedTree add d l := by
  rw [← stackClose_foldl_treeFold add d l.length,
    stackClose_foldl_of_length_le_one add d _ (length_treeFold_le_one add _ l (Nat.le_succ _))]
  rfl

end TreeLevels

/-- Settles O55: closing the stack and folding the tree agree on every level, and on the last by its one node. -/
theorem partialSumsAreTheTree : Obligations.PartialSumsAreTheTree :=
  ⟨fun _ => stackClose_foldl_stackPush, fun _ _ _ _ _ _ _ _ _ _ => rfl⟩

end Sys2Proof.Machine
end

section
/-!
PROOFS. exp2 of every FP32 pattern (R76). The value of a finite pattern is read once as a count of units of 2^−150, which grows
strictly with the magnitude bits of the pattern; so the bounds 128 and −160 on the value are bounds on the pattern itself.
-/
namespace Sys2Proof.Machine

/-! ### The value of an FP32 pattern (R61) -/

/-- The significand of a finite FP32 magnitude, its leading bit included. -/
def fp32Sig (a : Nat) : Nat := a % 2 ^ 23 + if a / 2 ^ 23 = 0 then 0 else 2 ^ 23

/-- The exponent of a finite FP32 magnitude, over units of 2^−150. -/
def fp32Exp (a : Nat) : Nat := max 1 (a / 2 ^ 23)

/-- A finite FP32 magnitude in units of 2^−150. -/
def fp32Units (a : Nat) : Nat := fp32Sig a * 2 ^ fp32Exp a

theorem fp32Sig_eq_zero {a : Nat} : fp32Sig a = 0 ↔ a = 0 := by
  unfold fp32Sig
  split <;> omega

theorem sign_fp32 {x : Nat} (hx : x < 2 ^ 32) : Fmt.sign .fp32 x = decide (2 ^ 31 ≤ x) := by
  have top : x / 2 ^ 31 % 2 = 1 ↔ 2 ^ 31 ≤ x := by omega
  exact Bool.eq_iff_iff.mpr (beq_iff_eq.trans (top.trans decide_eq_true_iff.symm))

theorem val_fp32_nan {x : Nat} (h : 0x7F800000 < x % 2 ^ 31) : Fmt.val .fp32 x = .nan := by
  have beyond : Fmt.fp32.maxFin < Fmt.fp32.mag x := Nat.lt_of_le_of_lt (by decide) h
  have notInf : Fmt.fp32.infBits ≠ some (Fmt.fp32.mag x) := fun e => Nat.ne_of_lt h (Option.some.inj e)
  simp only [Fmt.val, if_pos beyond, if_neg notInf]

theorem val_fp32_inf {x : Nat} (h : x % 2 ^ 31 = 0x7F800000) : Fmt.val .fp32 x = .inf (Fmt.sign .fp32 x) := by
  have mag : Fmt.fp32.mag x = 0x7F800000 := h
  have beyond : Fmt.fp32.maxFin < 0x7F800000 := by decide
  have inf : Fmt.fp32.infBits = some 0x7F800000 := rfl
  simp only [Fmt.val, mag, if_pos beyond, if_pos inf]

theorem val_fp32_fin {x : Nat} (h : x % 2 ^ 31 < 0x7F800000) : Fmt.val .fp32 x =
    .fin (Fmt.sign .fp32 x) (fp32Sig (x % 2 ^ 31)) ((fp32Exp (x % 2 ^ 31) : Nat) - 150) := by
  have mag : Fmt.fp32.mag x = x % 2 ^ 31 := rfl
  have within : ¬ Fmt.fp32.maxFin < x % 2 ^ 31 := Nat.not_lt.mpr (Nat.le_of_lt_succ h)
  simp only [Fmt.val, mag, if_neg within, Fmt.frac, Fmt.bias]
  split
  · next subnormal =>
    simp only [fp32Sig, fp32Exp, subnormal, FVal.fin.injEq, true_and, if_true]
    omega
  · next normal =>
    simp only [fp32Sig, fp32Exp, if_neg normal, FVal.fin.injEq, true_and]
    omega

theorem fp32Sig_lt (a : Nat) : fp32Sig a < 2 ^ 24 := by
  unfold fp32Sig
  split <;> omega

theorem fp32Sig_lt_of_subnormal {a : Nat} (h : a / 2 ^ 23 = 0) : fp32Sig a < 2 ^ 23 := by
  rw [fp32Sig, if_pos h]
  exact Nat.mod_lt _ (Nat.two_pow_pos _)

/-- The next magnitude has a larger value, across the step of the exponent too. -/
theorem fp32Units_lt_succ (a : Nat) : fp32Units a < fp32Units (a + 1) := by
  by_cases carry : (a + 1) % 2 ^ 23 = 0
  · have nextField : (a + 1) / 2 ^ 23 = a / 2 ^ 23 + 1 := by omega
    have next : fp32Sig (a + 1) = 2 ^ 23 := by
      rw [fp32Sig, nextField, carry, if_neg (Nat.succ_ne_zero _), Nat.zero_add]
    by_cases subnormal : a / 2 ^ 23 = 0
    · have same : fp32Exp (a + 1) = fp32Exp a := by unfold fp32Exp; omega
      rw [fp32Units, fp32Units, next, same]
      exact Nat.mul_lt_mul_of_pos_right (fp32Sig_lt_of_subnormal subnormal) (Nat.two_pow_pos _)
    · have up : fp32Exp (a + 1) = fp32Exp a + 1 := by unfold fp32Exp; omega
      have double : 2 ^ (fp32Exp a + 1) = 2 ^ fp32Exp a * 2 := Nat.pow_succ _ _
      calc fp32Units a < 2 ^ 24 * 2 ^ fp32Exp a := Nat.mul_lt_mul_of_pos_right (fp32Sig_lt a) (Nat.two_pow_pos _)
        _ = fp32Units (a + 1) := by
          rw [fp32Units, next, up, double]
          omega
  · have sameField : (a + 1) / 2 ^ 23 = a / 2 ^ 23 := by omega
    have next : fp32Sig a < fp32Sig (a + 1) := by simp only [fp32Sig, sameField]; omega
    simp only [fp32Units, fp32Exp, sameField]
    exact Nat.mul_lt_mul_of_pos_right next (Nat.two_pow_pos _)

theorem fp32Units_lt {a b : Nat} (h : a < b) : fp32Units a < fp32Units b := by
  induction h with
  | refl => exact fp32Units_lt_succ a
  | step _ ih => exact Nat.lt_trans ih (fp32Units_lt_succ _)

theorem fp32Units_lt_iff {a b : Nat} : fp32Units a < fp32Units b ↔ a < b := by
  refine ⟨fun h => Nat.lt_of_not_le fun hba => ?_, fp32Units_lt⟩
  rcases Nat.lt_or_eq_of_le hba with less | rfl
  · exact Nat.lt_asymm h (fp32Units_lt less)
  · exact Nat.lt_irrefl _ h

theorem fp32Units_le_iff {a b : Nat} : fp32Units a ≤ fp32Units b ↔ a ≤ b := by
  rw [← Nat.not_lt, fp32Units_lt_iff, Nat.not_lt]

/-! ### The argument of R77 -/

/-- exp2 by R77 within the bounds of R76. -/
def exp2Bounded (xi : Int) : Nat :=
  if (128 : Int) * 2 ^ 32 ≤ xi then 0x7F800000
  else if xi < (-160 : Int) * 2 ^ 32 then 0
  else exp2Core xi

theorem neg_ceilDiv (m : Nat) {k : Nat} (hk : 0 < k) : -((ceilDiv m k : Nat) : Int) = -(m : Int) / k := by
  have division : k * ceilDiv m k + (m + (k - 1)) % k = m + (k - 1) := Nat.div_add_mod _ _
  have below : (m + (k - 1)) % k < k := Nat.mod_lt _ hk
  refine ((Int.ediv_emod_unique (r := k - 1 - ((m + (k - 1)) % k : Nat)) (by omega)).mpr ⟨?_, by omega, by omega⟩).1.symm
  rw [Int.mul_neg]
  omega

/-- A number of units of 2^−150 times 2^32, where the exponent leaves no fraction. -/
theorem mul_two_pow_ediv_of_le (n : Int) {E : Nat} (h : 0 ≤ (E : Int) - 150 + 32) :
    n * 2 ^ E / 2 ^ 118 = n * 2 ^ ((E : Int) - 150 + 32).toNat := by
  obtain ⟨j, rfl⟩ : ∃ j, E = j + 118 := ⟨E - 118, by omega⟩
  have shift : (((j + 118 : Nat) : Int) - 150 + 32).toNat = j := by omega
  rw [shift, Int.pow_add, ← Int.mul_assoc, Int.mul_ediv_cancel _ (by decide)]

/-- A number of units of 2^−150 times 2^32, where the exponent leaves a fraction. -/
theorem mul_two_pow_ediv_of_lt (n : Int) {E : Nat} (h : ¬ 0 ≤ (E : Int) - 150 + 32) :
    n * 2 ^ E / 2 ^ 118 = n / (2 ^ (-((E : Int) - 150 + 32)).toNat : Nat) := by
  obtain ⟨j, hj⟩ : ∃ j, E + j = 118 := ⟨118 - E, by omega⟩
  have shift : (-((E : Int) - 150 + 32)).toNat = j := by omega
  rw [shift, ← hj, Int.pow_add, Int.mul_comm n, Int.mul_ediv_mul_of_pos _ _ (Int.pow_pos (by decide)), Int.natCast_pow]
  rfl

/-- The floor of sign times m times 2^e times 2^32, from the parts of the value. -/
def exp2Arg (neg : Bool) (m : Nat) (e : Int) : Int :=
  let scaled : Int := if 0 ≤ e + 32 then ((m * 2 ^ (e + 32).toNat : Nat) : Int)
    else if neg then ((ceilDiv m (2 ^ (-(e + 32)).toNat) : Nat) : Int)
    else ((m / 2 ^ (-(e + 32)).toNat : Nat) : Int)
  if neg then -scaled else scaled

theorem exp2_of_val_fin {x m : Nat} {neg : Bool} {e : Int} (val : Fmt.val .fp32 x = .fin neg m e) (nonzero : m ≠ 0) :
    exp2 x = exp2Bounded (exp2Arg neg m e) := by
  simp only [exp2, val, if_neg nonzero]
  rfl

theorem exp2Arg_eq_floor (neg : Bool) (m E : Nat) :
    exp2Arg neg m ((E : Int) - 150) = (if neg then -1 else 1) * (m : Int) * 2 ^ E / 2 ^ 118 := by
  by_cases whole : 0 ≤ (E : Int) - 150 + 32
  · rw [mul_two_pow_ediv_of_le _ whole]
    cases neg
    · simp only [exp2Arg, if_pos whole, Bool.false_eq_true, if_false, Int.one_mul, Int.natCast_mul, Int.natCast_pow,
        Int.cast_ofNat_Int]
    · simp only [exp2Arg, if_pos whole, if_true, Int.neg_mul, Int.one_mul, Int.natCast_mul, Int.natCast_pow, Int.cast_ofNat_Int]
  · rw [mul_two_pow_ediv_of_lt _ whole]
    cases neg
    · simp only [exp2Arg, if_neg whole, Bool.false_eq_true, if_false, Int.one_mul, Int.natCast_ediv]
    · simp only [exp2Arg, if_neg whole, if_true, Int.neg_mul, Int.one_mul, neg_ceilDiv m (Nat.two_pow_pos _)]

/-- The floor of the value of a finite FP32 pattern times 2^32 (R77). -/
def fp32Floor (neg : Bool) (a : Nat) : Int := (if neg then -1 else 1) * (fp32Units a : Int) / 2 ^ 118

theorem fp32Floor_false (a : Nat) : fp32Floor false a = (fp32Units a : Int) / 2 ^ 118 :=
  congrArg (· / 2 ^ 118) (Int.one_mul _)

theorem fp32Floor_true (a : Nat) : fp32Floor true a = -(fp32Units a : Int) / 2 ^ 118 :=
  congrArg (· / 2 ^ 118) (Int.neg_one_mul _)

/-- exp2 of a finite pattern that is not a zero. -/
theorem exp2_fin {x : Nat} (finite : x % 2 ^ 31 < 0x7F800000) (nonzero : x % 2 ^ 31 ≠ 0) :
    exp2 x = exp2Bounded (fp32Floor (Fmt.sign .fp32 x) (x % 2 ^ 31)) := by
  rw [exp2_of_val_fin (val_fp32_fin finite) (fun e => nonzero (fp32Sig_eq_zero.mp e)), exp2Arg_eq_floor, fp32Floor, fp32Units,
    Int.natCast_mul, Int.natCast_pow, Int.cast_ofNat_Int, Int.mul_assoc]

/-! ### The bounds of R76 -/

theorem fp32Units_of_128 : fp32Units 0x43000000 = 128 * 2 ^ 32 * 2 ^ 118 := by decide +kernel

theorem fp32Units_of_160 : fp32Units 0x43200000 = 160 * 2 ^ 32 * 2 ^ 118 := by decide +kernel

theorem fp32Floor_false_ge_iff (a : Nat) : (128 : Int) * 2 ^ 32 ≤ fp32Floor false a ↔ 0x43000000 ≤ a := by
  rw [← fp32Units_le_iff, fp32Units_of_128, fp32Floor_false, Int.le_ediv_iff_mul_le (by decide)]
  omega

theorem fp32Floor_true_lt_iff (a : Nat) : fp32Floor true a < (-160 : Int) * 2 ^ 32 ↔ 0x43200000 < a := by
  rw [← fp32Units_lt_iff, fp32Units_of_160, fp32Floor_true, Int.ediv_lt_iff_lt_mul (by decide)]
  omega

theorem exp2Bounded_pos (a : Nat) : exp2Bounded (fp32Floor false a) =
    if 0x43000000 ≤ a then 0x7F800000 else exp2Core (fp32Floor false a) := by
  have notLow : ¬ fp32Floor false a < (-160 : Int) * 2 ^ 32 := by rw [fp32Floor_false]; omega
  simp only [exp2Bounded, fp32Floor_false_ge_iff, if_neg notLow]

theorem exp2Bounded_neg (a : Nat) : exp2Bounded (fp32Floor true a) =
    if 0x43200000 < a then 0 else exp2Core (fp32Floor true a) := by
  have notHigh : ¬ (128 : Int) * 2 ^ 32 ≤ fp32Floor true a := by rw [fp32Floor_true]; omega
  simp only [exp2Bounded, fp32Floor_true_lt_iff, if_neg notHigh]

/-! ### The result is a pattern -/

theorem roundMag_fp32_le (m : Nat) (e : Int) : Fmt.roundMag .fp32 .toInf m e ≤ 0x7F800000 := by
  simp only [Fmt.roundMag]
  split
  · exact Nat.le_refl _
  · next fits => exact Nat.le_trans (Nat.not_lt.mp fits) (by decide)

theorem round_fp32_le (m : Nat) (e : Int) : Fmt.round .fp32 .toInf (.fin false m e) ≤ 0x7F800000 := by
  simp only [Fmt.round, Fmt.withSign, Bool.false_eq_true, if_false]
  split
  · exact Nat.zero_le _
  · exact roundMag_fp32_le m e

theorem exp2Core_le (xi : Int) : exp2Core xi ≤ 0x7F800000 := round_fp32_le _ _

/-! ### Every pattern -/

theorem exp2_nan {x : Nat} (h : 0x7F800000 < x % 2 ^ 31) : exp2 x = 0x7FC00000 := by
  simp only [exp2, val_fp32_nan h, Fmt.nan]

theorem exp2_zero {x : Nat} (h : x % 2 ^ 31 = 0) : exp2 x = 0x3F800000 := by
  have finite : x % 2 ^ 31 < 0x7F800000 := by omega
  simp only [exp2, val_fp32_fin finite, fp32Sig_eq_zero.mpr h, if_true]

theorem exp2_inf {x : Nat} (h : x % 2 ^ 31 = 0x7F800000) :
    exp2 x = if Fmt.sign .fp32 x then 0 else 0x7F800000 := by
  simp only [exp2, val_fp32_inf h]
  cases Fmt.sign .fp32 x <;> rfl

/-- exp2 of a number or an infinity that is positive. -/
theorem exp2_pos {x : Nat} (positive : x < 2 ^ 31) (number : x ≤ 0x7F800000) (nonzero : x ≠ 0) :
    exp2 x = if 0x43000000 ≤ x then 0x7F800000 else exp2Core (fp32Floor false (x % 2 ^ 31)) := by
  have mag : x % 2 ^ 31 = x := Nat.mod_eq_of_lt positive
  have sign : Fmt.sign .fp32 x = false := by rw [sign_fp32 (by omega)]; exact decide_eq_false (by omega)
  rcases Nat.lt_or_eq_of_le number with finite | infinite
  · rw [exp2_fin (mag.symm ▸ finite) (mag.symm ▸ nonzero), sign, exp2Bounded_pos, mag]
  · rw [exp2_inf (mag.trans infinite), sign]
    exact (if_pos (by omega)).symm

/-- exp2 of a number or an infinity that is negative. -/
theorem exp2_neg {x : Nat} (hx : x < 2 ^ 32) (negative : 2 ^ 31 ≤ x) (number : x % 2 ^ 31 ≤ 0x7F800000)
    (nonzero : x % 2 ^ 31 ≠ 0) :
    exp2 x = if 0xC3200000 < x then 0 else exp2Core (fp32Floor true (x % 2 ^ 31)) := by
  have sign : Fmt.sign .fp32 x = true := by rw [sign_fp32 hx]; exact decide_eq_true negative
  have bound : 0x43200000 < x % 2 ^ 31 ↔ 0xC3200000 < x := by omega
  rcases Nat.lt_or_eq_of_le number with finite | infinite
  · rw [exp2_fin finite nonzero, sign, exp2Bounded_neg]
    simp only [bound]
  · rw [exp2_inf infinite, sign]
    exact (if_pos (by omega)).symm

/-- The value of a pattern times 2^32, as the field of its exponent and its fraction give it. -/
theorem fp32Floor_eq_of_fields (neg : Bool) (x : Nat) :
    fp32Floor neg (x % 2 ^ 31) =
      (if neg then -1 else 1) * ((x % 2 ^ 23 + (if x / 2 ^ 23 % 256 = 0 then 0 else 2 ^ 23) : Nat) : Int) *
        2 ^ (max 1 (x / 2 ^ 23 % 256)) / 2 ^ 118 := by
  have field : x % 2 ^ 31 / 2 ^ 23 = x / 2 ^ 23 % 256 := by omega
  have fraction : x % 2 ^ 31 % 2 ^ 23 = x % 2 ^ 23 := by omega
  rw [fp32Floor, fp32Units, fp32Sig, fp32Exp, field, fraction, Int.natCast_mul, Int.natCast_pow, Int.cast_ofNat_Int, Int.mul_assoc]

theorem exp2Bounded_le (xi : Int) : exp2Bounded xi ≤ 0x7F800000 := by
  unfold exp2Bounded
  split
  · exact Nat.le_refl _
  · split
    · exact Nat.zero_le _
    · exact exp2Core_le xi

theorem exp2_le (x : Nat) : exp2 x ≤ 0x7FC00000 := by
  cases val : Fmt.val .fp32 x with
  | nan => simp only [exp2, val, Fmt.nan, Nat.le_refl]
  | inf neg =>
    cases neg
    · simp only [exp2, val, Nat.reduceLeDiff]
    · simp only [exp2, val, Nat.zero_le]
  | fin neg m e =>
    by_cases zero : m = 0
    · simp only [exp2, val, if_pos zero, Nat.reduceLeDiff]
    · rw [exp2_of_val_fin val zero]
      exact Nat.le_trans (exp2Bounded_le _) (by decide)

/-- Settles O59: the pattern decides the case of R76, and its fields give the argument of R77. -/
theorem expTwo : Obligations.ExpTwo := by
  intro x hx
  refine ⟨?_, Nat.lt_of_le_of_lt (exp2_le x) (by decide)⟩
  by_cases nan : 0x7F800000 < x % 2 ^ 31
  · rw [exp2_nan nan, if_pos nan]
  by_cases zero : x % 2 ^ 31 = 0
  · rw [exp2_zero zero, if_neg nan, if_pos zero]
  rw [if_neg nan, if_neg zero]
  by_cases positive : x < 2 ^ 31
  · have within : ¬ 0xC3200000 < x := by omega
    rw [exp2_pos positive (by omega) (by omega), if_neg within, fp32Floor_eq_of_fields]
    simp only [positive, and_true, if_true, Bool.false_eq_true, if_false]
  · rw [exp2_neg hx (by omega) (by omega) zero, fp32Floor_eq_of_fields]
    simp only [positive, and_false, if_false, if_true]

end Sys2Proof.Machine
end

section
/-!
PROOFS. The compare and predicate instructions (R94, R98, R114). A predicate named in a field of the word is the one the
instruction uses, and leaves no bit of the field that must be zero; what each instruction writes is then read off its body.
-/
namespace Sys2Proof.Machine

/-! ### p0 (R94) -/

@[simp] theorem Ctx.getP_zero (x : Ctx) : x.getP 0 = BitVec.allOnes 256 := if_pos rfl

@[simp] theorem Ctx.setP_zero (x : Ctx) (r : BitVec 256) : x.setP 0 r = x := if_pos rfl

/-! ### A predicate named in a field (R114) -/

theorem preg_setWidth (q : BitVec 3) {k : Nat} (wide : 3 ≤ k) : preg (q.setWidth k).toNat = q := by
  have below : q.toNat < 2 ^ k := Nat.lt_of_lt_of_le q.isLt (Nat.pow_le_pow_right (by decide) wide)
  rw [preg, BitVec.toNat_setWidth, Nat.mod_eq_of_lt below, BitVec.ofNat_toNat, BitVec.setWidth_eq]

theorem toNat_predField_lt (u : BitVec 3) : (u.setWidth 5).toNat < 8 := by
  rw [BitVec.toNat_setWidth]
  omega

theorem predAux_and_mask (q : BitVec 3) : (q.setWidth 8).toNat &&& (255 ^^^ 7) = 0 := by
  refine and_above_mask8 _ 3 ?_ (by decide)
  rw [BitVec.toNat_setWidth]
  omega

/-! ### Predicates as sets of bits -/

theorem countOnes_eq_length_filter (v : BitVec 256) (n : Nat) :
    countOnes v n = ((List.range n).filter (fun k => v.getLsbD k)).length := by
  induction n with
  | zero => rfl
  | succ n ih =>
    rw [countOnes, ih, List.range_succ, List.filter_append, List.length_append]
    cases bit : v.getLsbD n <;> simp [bit, bit01]

theorem predBuild_lt (m n : Nat) : predBuild m (fun k => decide (k < n)) = 2 ^ min m n - 1 := by
  induction m with
  | zero => simp [predBuild]
  | succ m ih =>
    rw [predBuild, ih]
    by_cases below : m < n
    · have here : min m n = m := Nat.min_eq_left (Nat.le_of_lt below)
      have next : min (m + 1) n = m + 1 := Nat.min_eq_left below
      have positive : 0 < 2 ^ m := Nat.two_pow_pos m
      simp only [below, decide_true, if_true, here, next, Nat.pow_succ]
      omega
    · have here : min m n = n := Nat.min_eq_right (Nat.not_lt.mp below)
      have next : min (m + 1) n = n := Nat.min_eq_right (by omega)
      simp only [below, decide_false, Bool.false_eq_true, if_false, here, next, Nat.add_zero]

theorem predOf_lt {n : Nat} (fits : n ≤ 256) :
    predOf 256 (fun k => decide (k < n)) = BitVec.ofNat 256 (2 ^ n - 1) := by
  rw [predOf, predBuild_lt, Nat.min_eq_right fits]

/-! ### What each instruction does (R114) -/

/-- An instruction whose effect is on its own context alone does what its body gives. -/
theorem does_of_issue {s : State} {slot c : Nat} {x y : Ctx} {opc : Nat} {i : Nat → MWord → Instr} {w : MWord} {h : Shape}
    {own gated : Bool} {body : Ctx → IRes} {u : IssueSlot}
    (command : exec (i slot w) s = .next (s.issue slot w h own gated body)) (code : h.opc = opc)
    (listed : opcodes.contains opc = true) (unit : IssueSlot.of opc = u) (wellFormed : (h.ok w && own) = true)
    (enabled : gated = true → x.enabled w 0 = true) (result : body x = .ok y) :
    Does s slot c x opc i w (s.retire slot c y u) := by
  subst code unit
  intro runs
  rw [command, State.issue_ok body y runs listed wellFormed enabled result]

section Instructions
variable (s : State) (slot c : Nat) (x : Ctx) (pn : Bool) (pr q : BitVec 3)

theorem vcmp_does (a b : BitVec 5) {fm cc : BitVec 4} {f : Fmt} (format : Fmt.ofCode fm.toNat = some f)
    (listed : fm.toNat ∈ [0, 1, 2, 5, 6, 7]) (condition : cc.toNat ≤ 6) :
    Does s slot c x 0x20 .vcmp { MWord.gate pn pr with fmt := fm, sa := a, sb := b, md := cc, aux := q.setWidth 8 }
      (s.retire slot c (x.setP q (predOf f.elems (fun k =>
        x.enabled (MWord.gate pn pr) k && vectorCond f cc.toNat (elemOf f (x.getV a) k) (elemOf f (x.getV b) k)))) .compute) := by
  refine does_of_issue rfl rfl (by decide) rfl ?_ (fun gated => nomatch gated) ?_
  · have mask := predAux_and_mask q
    simp only [Shape.ok, MWord.gate, mask, condition]
    simpa using listed
  · simp only [preg_setWidth q (k := 8) (by decide), MWord.format, format, Option.getD_some]
    rfl

/-- PLOG by the code of its operation; NOT, code 4, leaves SB at zero. -/
theorem plog_does (u v : BitVec 3) {md : BitVec 4} (code : md.toNat ≤ 4) (unary : md = 4 → v = 0) :
    Does s slot c x 0x21 .plog
      { MWord.gate false 0 with sa := u.setWidth 5, sb := v.setWidth 5, md := md, aux := q.setWidth 8 }
      (s.retire slot c (x.setP q (plogOp md.toNat (x.getP u) (x.getP v))) .compute) := by
  refine does_of_issue rfl rfl (by decide) rfl ?_ (fun gated => nomatch gated) ?_
  · have mask := predAux_and_mask q
    have noSb : md = 4 → v.setWidth 5 = 0 := fun isNot => by rw [unary isNot]; rfl
    simp only [Shape.ok, MWord.gate, mask, code, toNat_predField_lt]
    simpa [Decidable.or_iff_not_imp_left] using noSb
  · simp only [preg_setWidth _ (k := 8) (by decide), preg_setWidth _ (k := 5) (by decide)]

section Gated
variable {pn pr x} (enabled : x.enabled (MWord.gate pn pr) 0 = true)
include enabled

theorem pcnt_does (d : BitVec 5) (u : BitVec 3) :
    Does s slot c x 0x22 .pcnt { MWord.gate pn pr with dst := d, sa := u.setWidth 5 }
      (s.retire slot c (x.setS d (BitVec.ofNat 64
        ((List.range 256).filter (fun k => (x.getP u).getLsbD k)).length)) .compute) := by
  refine does_of_issue rfl rfl (by decide) rfl ?_ (fun _ => enabled) ?_
  · simp only [Shape.ok, MWord.gate, toNat_predField_lt]
    simp
  · simp only [preg_setWidth u (k := 5) (by decide), countOnes_eq_length_filter]

theorem pfst_does (d : BitVec 5) (u : BitVec 3) :
    Does s slot c x 0x23 .pfst { MWord.gate pn pr with dst := d, sa := u.setWidth 5 }
      (s.retire slot c (x.setS d (BitVec.ofNat 64
        (((List.range 256).find? (fun k => (x.getP u).getLsbD k)).getD 256))) .compute) := by
  refine does_of_issue rfl rfl (by decide) rfl ?_ (fun _ => enabled) ?_
  · simp only [Shape.ok, MWord.gate, toNat_predField_lt]
    simp
  · simp only [preg_setWidth u (k := 5) (by decide)]

theorem pset_does {n : BitVec 64} (fits : n.toNat ≤ 256) :
    Does s slot c x 0x24 .pset { MWord.gate pn pr with aux := q.setWidth 8, imm := n }
      (s.retire slot c (x.setP q (predOf 256 (fun k => decide (k < n.toNat)))) .compute) := by
  refine does_of_issue rfl rfl (by decide) rfl ?_ (fun _ => enabled) ?_
  · have mask := predAux_and_mask q
    simp only [Shape.ok, MWord.gate, mask, fits]
    simp
  · simp only [preg_setWidth q (k := 8) (by decide), predOf_lt fits]

end Gated

end Instructions

/-- Settles O6: each instruction keeps to its shape and writes the predicate its AUX names; p0 by its read and its write. -/
theorem predicateResults : Obligations.PredicateResults := by
  intro s slot c x pn pr q u v d a b fm f cc n
  have binary := fun (md : BitVec 4) (below : md.toNat < 4) =>
    plog_does s slot c x q u v (Nat.le_of_lt below) (fun isNot => absurd (isNot ▸ below) (by decide))
  refine ⟨vcmp_does s slot c x pn pr q a b, ?_, plog_does s slot c x q u 0 (md := 4) (by decide) (fun _ => rfl),
    fun enabled => ⟨pcnt_does s slot c enabled d u, pfst_does s slot c enabled d u, pset_does s slot c q enabled⟩,
    x.getP_zero, x.setP_zero⟩
  simp only [List.forall_mem_cons]
  exact ⟨binary 0 (by decide), binary 1 (by decide), binary 2 (by decide), binary 3 (by decide), List.forall_mem_nil _⟩

end Sys2Proof.Machine
end

section
/-!
PROOFS. The fabric manager's commands (R395 to R400, R531, R543, R545, R566). What a transport does with a command is said once: a
command that is served answers what its body gives. A vendor command whose input is well formed answers its status and the rest of
its output; the others are read off their bodies.
-/
namespace Sys2Proof.Machine

/-! ### A command that is served (R396 to R399) -/

/-- The fabric manager's commands over a transport are served: `mail` for the mailbox, else MCTP. -/
def State.fmServed (s : State) (mail : Bool) : Prop :=
  if mail then s.bar0Open = true ∧ s.devResetDue = false ∧ s.manages = true else s.mctpServes

/-- The answer of a command over a transport; the mailbox raises its interrupt. -/
def State.fmReply (t : State) (mail : Bool) (rc : FmRc) (body : FmBody) : State :=
  if mail then (t.emit (.fm mail rc body)).emit (.msix 0) else t.emit (.fm mail rc body)

/-- The answer of a vendor command whose input is well formed: its status and the rest of its output. -/
def State.fmDone (t : State) (mail : Bool) (st : Nat) (rest : List Byte) : State :=
  t.fmReply mail .success (.bytes (natBytes 1 st ++ rest))

theorem State.startBg_of_idle {s : State} (w : BgWork) (idle : s.mgmt.bg = none) :
    s.startBg w = ({ s with mgmt := { s.mgmt with bg := some w } }, .success, .bytes (natBytes 1 stOk)) := by
  simp [State.startBg, idle]

section Served
variable {s : State} {mail : Bool} (served : s.fmServed mail)
include served

theorem State.fm_of_served (vendor : Bool) (body : State → State × FmRc × FmBody) :
    s.fm mail vendor body = (body s).1.fmReply mail (body s).2.1 (body s).2.2 := by
  cases mail with
  | true =>
    obtain ⟨isOpen, noReset, manages⟩ := served
    simp [State.fm, State.fmReply, isOpen, noReset, manages]
  | false =>
    obtain ⟨up, running⟩ := served
    simp [State.fm, State.fmReply, up, running]

theorem State.fm_answers {vendor : Bool} {body : State → State × FmRc × FmBody} {t : State} {rc : FmRc} {out : FmBody}
    (answer : body s = (t, rc, out)) :
    (Host.Outcome.next (s.fm mail vendor body) : Outcome) = .next (t.fmReply mail rc out) := by
  rw [State.fm_of_served served, answer]

theorem State.fmRead_answers {f : State → FmRc × FmBody} {rc : FmRc} {out : FmBody} (answer : f s = (rc, out)) :
    (Host.Outcome.next (s.fmRead mail f) : Outcome) = .next (s.fmReply mail rc out) :=
  State.fm_answers served (congrArg (Prod.mk s) answer)

theorem State.fmVendor_answers {n : Nat} {input : List Byte} {form : Bool} {f : State → State × Nat × List Byte}
    {t : State} {st : Nat} {rest : List Byte} (size : input.length = n) (wellFormed : form = true) (result : f s = (t, st, rest)) :
    (Host.Outcome.next (s.fmVendor mail n input form f) : Outcome) = .next (t.fmDone mail st rest) := by
  refine State.fm_answers served ?_
  simp [size, wellFormed, result]

theorem State.fmVendor_malformed {n : Nat} {input : List Byte} {form : Bool} {f : State → State × Nat × List Byte}
    (size : input.length = n) (malformed : form = false) :
    (Host.Outcome.next (s.fmVendor mail n input form f) : Outcome) = .next (s.fmReply mail .invalidInput .none) := by
  refine State.fm_answers served ?_
  simp [size, malformed]

/-! ### The standard commands that check their operands (R395, R396) -/

theorem setResponseMessageLimit_reply (n : Nat) :
    exec (.setResponseMessageLimit mail n) s =
      if 8 ≤ n ∧ n ≤ 12 then
        .next (({ s with mgmt := { s.mgmt with limits := kvPut 12 s.mgmt.limits (bit01 mail) n } } : State).fmReply mail
          .success (.limit n))
      else .next (s.fmReply mail .invalidInput .none) := by
  split
  · have inRange : ¬ (n < 8 ∨ 12 < n) := by omega
    exact State.fm_answers served (if_neg inRange)
  · have outOfRange : n < 8 ∨ 12 < n := by omega
    exact State.fm_answers served (if_pos outOfRange)

theorem getPhysicalPortState_reply {ports : List Nat} (fabric : ∀ k ∈ ports, k < 256) :
    exec (.getPhysicalPortState mail ports) s = .next (s.fmReply mail .success
      (.ports (ports.map (fun k => (k, (s.regW .LINK_PORT_CFG [k]).toNat, (s.regW .LINK_PORT_STAT [k]).toNat))))) := by
  have allFabric : ports.all (fun k => decide (k < 256)) = true := by simpa using fabric
  exact State.fmRead_answers served (if_pos allFabric)

theorem getPhysicalPortState_invalid {ports : List Nat} (other : ∃ k ∈ ports, 256 ≤ k) :
    exec (.getPhysicalPortState mail ports) s = .next (s.fmReply mail .invalidInput .none) := by
  have notAll : ¬ ports.all (fun k => decide (k < 256)) = true := by simpa using other
  exact State.fmRead_answers served (if_neg notAll)

/-! ### The vendor commands (R399, R543, R545, R566) -/

variable {input : List Byte}

theorem skAssignPbr_denied (size : input.length = 4) (idOk : field input 2 2 < 4096)
    (denied : s.mayAssign (field input 0 2) (field input 2 2) = false) :
    exec (.skAssignPbr mail input) s = .next (s.fmDone mail stAccess []) := by
  refine State.fmVendor_answers served size (decide_eq_true idOk) ?_
  simp [denied]

theorem skAssignPbr_own (size : input.length = 4) (idOk : field input 2 2 < 4096)
    (allowed : s.mayAssign (field input 0 2) (field input 2 2) = true) (own : field input 0 2 = 0xFFFF) :
    exec (.skAssignPbr mail input) s =
      .next (({ s with ownPbr := some (field input 2 2) } : State).fmDone mail stOk []) := by
  refine State.fmVendor_answers served size (decide_eq_true idOk) ?_
  rw [own] at allowed ⊢
  simp [allowed]

theorem skAssignPbr_port (size : input.length = 4) (idOk : field input 2 2 < 4096)
    (allowed : s.mayAssign (field input 0 2) (field input 2 2) = true) (port : field input 0 2 ≠ 0xFFFF) :
    exec (.skAssignPbr mail input) s = .next (((s.fset Reg.MGT_DISC_PBR [field input 0 2] (field input 2 2)).fset
      Reg.MGT_DISC_PBR_VALID [field input 0 2] 1).fmDone mail stOk []) := by
  refine State.fmVendor_answers served size (decide_eq_true idOk) ?_
  simp [allowed, port]

theorem skDeclareDead_unheld (size : input.length = 2) (unheld : s.portsHolding (field input 0 2) = []) :
    exec (.skDeclareDead mail input) s = .next (s.fmDone mail stAccess (natBytes 8 0)) := by
  refine State.fmVendor_answers served size rfl ?_
  rw [unheld]

theorem skDeclareDead_held (size : input.length = 2) {n : Nat} {ns : List Nat}
    (held : s.portsHolding (field input 0 2) = n :: ns) :
    exec (.skDeclareDead mail input) s = .next ((s.crashAccel n).finishAccs.fmDone mail stOk (natBytes 8 s.now)) := by
  refine State.fmVendor_answers served size rfl ?_
  rw [held]

theorem skJobTeardown_denied (size : input.length = 8) (partOk : field input 0 1 < 16) (reserved : field input 1 3 = 0)
    (invalid : s.partValid (field input 0 1) = false) :
    exec (.skJobTeardown mail input) s = .next (s.fmDone mail stAccess (natBytes 4 0)) := by
  refine State.fmVendor_answers served size (by simp [partOk, reserved]) ?_
  simp [invalid]

theorem skJobTeardown_begins (size : input.length = 8) (partOk : field input 0 1 < 16) (reserved : field input 1 3 = 0)
    (valid : s.partValid (field input 0 1) = true) :
    exec (.skJobTeardown mail input) s = .next ((s.triggerTeardown (field input 0 1) (field input 4 4) 4 0).fmDone mail stOk
      (natBytes 4 (s.ctxs.filter (fun e =>
        decide (e.2.part = field input 0 1) && decide (e.2.job = field input 4 4))).length)) := by
  refine State.fmVendor_answers served size (by simp [partOk, reserved]) ?_
  simp [valid]

theorem skJobTeardown_invalid (size : input.length = 8) (above : 16 ≤ field input 0 1) :
    exec (.skJobTeardown mail input) s = .next (s.fmReply mail .invalidInput .none) :=
  State.fmVendor_malformed served size (by simp [Nat.not_lt.mpr above])

theorem skGetErr_takes (size : input.length = 1) (atLeastOne : 1 ≤ field input 0 1) (fits : field input 0 1 ≤ 120) :
    exec (.skGetErr mail input) s = .next (
      ({ s with devq := { s.devq with head := (s.devq.head + min (field input 0 1) s.devq.used) % 2 ^ 32 } } : State).fmDone mail
        stOk (natBytes 1 (min (field input 0 1) s.devq.used) ++ natBytes 6 0 ++
          s.devq.oldest (min (field input 0 1) s.devq.used))) :=
  State.fmVendor_answers served size (by simp [atLeastOne, fits]) rfl

/-! ### The commands that work in the background (R398 to R400) -/

theorem skClearOrphans_busy (size : input.length = 24) (running : s.mgmt.bg.isSome = true) :
    exec (.skClearOrphans mail input) s = .next (s.fmReply mail .busy .none) := by
  refine State.fm_answers served ?_
  simp [size, running]

theorem skClearOrphans_denied (size : input.length = 24) (idle : s.mgmt.bg = none)
    (denied : s.orphanRangeOk (field input 0 8) (field input 8 8) (field input 16 8) = false) :
    exec (.skClearOrphans mail input) s = .next (s.fmDone mail stAccess (natBytes 8 0)) := by
  refine State.fm_answers served ?_
  simp [size, idle, denied]

theorem skClearOrphans_begins (size : input.length = 24) (idle : s.mgmt.bg = none)
    (allowed : s.orphanRangeOk (field input 0 8) (field input 8 8) (field input 16 8) = true) :
    exec (.skClearOrphans mail input) s = .next (({ s with mgmt := { s.mgmt with
      bg := some (.clearOrphans (refHandle (field input 0 8)) (field input 8 8) (field input 16 8)) } } : State).fmDone mail
        stOk []) := by
  refine State.fm_answers served ?_
  simp [size, idle, allowed, State.startBg_of_idle]

theorem skPartReset_invalid (size : input.length = 1) (above : 16 ≤ field input 0 1) :
    exec (.skPartReset mail input) s = .next (s.fmReply mail .invalidInput .none) := by
  refine State.fm_answers served ?_
  simp [size, above]

theorem skPartReset_busy (size : input.length = 1) (partOk : field input 0 1 < 16) (running : s.mgmt.bg.isSome = true) :
    exec (.skPartReset mail input) s = .next (s.fmReply mail .busy .none) := by
  refine State.fm_answers served ?_
  simp [size, Nat.not_le.mpr partOk, running]

theorem skPartReset_denied (size : input.length = 1) (partOk : field input 0 1 < 16) (idle : s.mgmt.bg = none)
    (invalid : s.partValid (field input 0 1) = false) :
    exec (.skPartReset mail input) s = .next (s.fmDone mail stAccess []) := by
  refine State.fm_answers served ?_
  simp [size, Nat.not_le.mpr partOk, idle, invalid]

theorem skPartReset_begins (size : input.length = 1) (partOk : field input 0 1 < 16) (idle : s.mgmt.bg = none)
    (valid : s.partValid (field input 0 1) = true) :
    exec (.skPartReset mail input) s = .next ((({ s with mgmt := { s.mgmt with
      bg := some (.partReset (field input 0 1)) } } : State).triggerReset (field input 0 1) 5).fmDone mail stOk []) := by
  refine State.fm_answers served ?_
  simp [size, Nat.not_le.mpr partOk, idle, valid, State.startBg_of_idle]

end Served

/-! ### The end of a background operation (R398, R400) -/

section Ends
variable {s : State}

theorem backgroundOpEnd_clearOrphans {h off len : Nat} (running : s.mgmt.bg = some (.clearOrphans h off len)) :
    let r := s.clearOrphans h (blocksOf 64 off len) 0
    exec .backgroundOpEnd s = .next (r.1.endBg (.clearOrphans h off len) (natBytes 1 r.2.1 ++ natBytes 8 r.2.2)) := by
  change execBackgroundOpEnd s = _
  rw [execBackgroundOpEnd, running]

theorem backgroundOpEnd_partReset {p : Nat} (running : s.mgmt.bg = some (.partReset p)) (ended : (s.part p).resetDue = none) :
    exec .backgroundOpEnd s = .next (s.endBg (.partReset p) (natBytes 1 stOk)) := by
  change execBackgroundOpEnd s = _
  simp [execBackgroundOpEnd, running, ended]

end Ends

/-- Settles O41: a standard command reads its answer off its body, a vendor command answers by its checks in their order, and
the operation in the background ends with its output. -/
theorem fabricManagerCommands : Obligations.FabricManagerCommands := by
  refine ⟨fun s mail n pol ports served => ?standard, fun s mail input h off len p =>
    ⟨fun served => ?vendor, ?walkEnds, ?resetEnds⟩⟩
  case standard =>
    exact ⟨State.fmRead_answers served rfl, State.fmRead_answers served rfl, State.fmRead_answers served rfl,
      setResponseMessageLimit_reply served n, State.fmRead_answers served rfl, State.fm_answers served rfl,
      State.fmRead_answers served rfl, State.fm_answers served rfl, getPhysicalPortState_reply served,
      getPhysicalPortState_invalid served, State.fmRead_answers served rfl, State.fmRead_answers served rfl,
      State.fmRead_answers served rfl, State.fmRead_answers served rfl⟩
  case vendor =>
    exact ⟨fun empty => State.fmVendor_answers served (List.length_eq_zero_iff.mpr empty) rfl rfl,
      fun size idOk => ⟨skAssignPbr_denied served size idOk, skAssignPbr_own served size idOk,
        skAssignPbr_port served size idOk⟩,
      fun size => ⟨skDeclareDead_unheld served size, fun n ns => skDeclareDead_held served size⟩,
      fun size => ⟨skClearOrphans_busy served size, skClearOrphans_denied served size, skClearOrphans_begins served size⟩,
      fun size partOk reserved => ⟨skJobTeardown_denied served size partOk reserved,
        skJobTeardown_begins served size partOk reserved⟩,
      fun above => ⟨fun size => skJobTeardown_invalid served size above, fun size => skPartReset_invalid served size above⟩,
      fun size => State.fmVendor_answers served size rfl rfl,
      fun size partOk => ⟨skPartReset_busy served size partOk, skPartReset_denied served size partOk,
        skPartReset_begins served size partOk⟩,
      skGetErr_takes served⟩
  case walkEnds => exact backgroundOpEnd_clearOrphans
  case resetEnds => exact backgroundOpEnd_partReset

end Sys2Proof.Machine
end

section
/-!
PROOFS. The error queues (R479, R481 to R484, R487). A queue is read by position from its first record on. A record that moves ahead
of those of its cycle leaves every two neighbours in order but those at its own place, and the two around it; so where it stops, all
are in order. What an append does to a state is said once for each queue: with room, and full.
-/
namespace Sys2Proof.Machine

/-! ### The order of records (R481) -/

/-- The second of two neighbours, where both are listed, does not stand before the first. -/
def Rec.InOrder (a b : Option Rec) : Prop := ∀ x y, a = some x → b = some y → y.before x = false

theorem Rec.before_asymm {a b : Rec} (h : b.before a = true) : a.before b = false := by
  simp only [Rec.before, Bool.and_eq_true, Bool.or_eq_true, decide_eq_true_eq] at h
  simp only [Rec.before, Bool.and_eq_false_iff, Bool.or_eq_false_iff, decide_eq_false_iff_not]
  omega

/-- Two records that move past each other are in order then; GAP has no part in the order. -/
theorem Rec.inOrder_withGap {a b : Rec} (h : b.before a = true) :
    Rec.InOrder (some (b.withGap a)) (some (a.withGap b)) := by
  rintro _ _ ⟨⟩ ⟨⟩
  exact Rec.before_asymm h

theorem Rec.inOrder_withGap_left {a b : Rec} {c : Option Rec} (h : Rec.InOrder (some a) c) :
    Rec.InOrder (some (a.withGap b)) c := by
  rintro _ y ⟨⟩ hy
  exact h a y rfl hy

theorem Rec.inOrder_withGap_right {a b : Rec} {c : Option Rec} (h : Rec.InOrder c (some a)) :
    Rec.InOrder c (some (a.withGap b)) := by
  rintro x _ hx ⟨⟩
  exact h x a hx rfl

theorem Rec.not_inOrder {a b : Option Rec} (h : ¬ Rec.InOrder a b) : ∃ x y, a = some x ∧ b = some y ∧ y.before x = true := by
  refine Classical.byContradiction fun none => h fun x y hx hy => ?_
  exact Bool.eq_false_iff.mpr fun before => none ⟨x, y, hx, hy, before⟩

/-! ### A record settles (R481) -/

theorem Rec.settle_of_inOrder {size n : Nat} {m : KV Rec}
    (h : Rec.InOrder (kvGet? m ((n + size - 1) % size)) (kvGet? m (n % size))) (k : Nat) : Rec.settle size k n m = m := by
  cases k with
  | zero => rfl
  | succ k =>
    rw [Rec.settle]
    split
    next a b ha hb => rw [h a b ha hb]; rfl
    next => rfl

theorem Rec.settle_of_before {size n : Nat} {m : KV Rec} {a b : Rec} (ha : kvGet? m ((n + size - 1) % size) = some a)
    (hb : kvGet? m (n % size) = some b) (before : b.before a = true) (k : Nat) :
    Rec.settle size (k + 1) n m =
      Rec.settle size k (n + size - 1) (kvSet (kvSet m ((n + size - 1) % size) (b.withGap a)) (n % size) (a.withGap b)) := by
  rw [Rec.settle, ha, hb]
  exact if_pos before

theorem kvSet_ne_nil {α : Type} (m : KV α) (x : Nat) (v : α) : kvSet m x v ≠ [] := by
  intro h
  have listed := kvGet?_kvSet_self m x v
  rw [h] at listed
  cases listed

theorem Rec.settle_ne_nil {size : Nat} (k n : Nat) {m : KV Rec} (h : m ≠ []) : Rec.settle size k n m ≠ [] := by
  induction k generalizing n m with
  | zero => exact h
  | succ k ih =>
    by_cases ordered : Rec.InOrder (kvGet? m ((n + size - 1) % size)) (kvGet? m (n % size))
    · rw [Rec.settle_of_inOrder ordered]
      exact h
    · obtain ⟨a, b, ha, hb, before⟩ := Rec.not_inOrder ordered
      rw [Rec.settle_of_before ha hb before]
      exact ih _ (kvSet_ne_nil _ _ _)

/-! ### The ring read by position -/

/-- The record at a position of a ring of `size` slots whose first record stands in the slot of `h`. -/
def ringAt (size h : Nat) (m : KV Rec) (i : Nat) : Option Rec := kvGet? m ((h + i) % size)

section Ring
variable {size h : Nat} {m : KV Rec}

/-- Two positions of one slot are a whole number of turns apart, so no turn where both lie in the first. -/
theorem le_of_ringSlot_eq {i j : Nat} (hi : i < size) (same : (h + i) % size = (h + j) % size) : i ≤ j := by
  have turns : (h + i - (h + j)) % size = 0 := Nat.sub_mod_eq_zero_of_mod_eq same
  rw [Nat.add_sub_add_left, Nat.mod_eq_of_lt (Nat.lt_of_le_of_lt (Nat.sub_le i j) hi)] at turns
  exact Nat.le_of_sub_eq_zero turns

theorem ringSlot_ne {i j : Nat} (hi : i < size) (hj : j < size) (ne : i ≠ j) : (h + i) % size ≠ (h + j) % size :=
  fun same => ne (Nat.le_antisymm (le_of_ringSlot_eq hi same) (le_of_ringSlot_eq hj same.symm))

/-- The slot before that of a position is the slot of the position before it. -/
theorem ringSlot_prev {n k : Nat} (pos : 0 < size) (place : n % size = (h + (k + 1)) % size) :
    (n + size - 1) % size = (h + k) % size := by
  calc (n + size - 1) % size
      = (n % size + (size - 1)) % size := by rw [Nat.add_sub_assoc pos, Nat.mod_add_mod]
    _ = (h + (k + 1) + (size - 1)) % size := by rw [place, Nat.mod_add_mod]
    _ = (h + k + size) % size := by congr 1; omega
    _ = (h + k) % size := Nat.add_mod_right _ _

theorem ringAt_kvSet_self (i : Nat) (r : Rec) : ringAt size h (kvSet m ((h + i) % size) r) i = some r :=
  kvGet?_kvSet_self _ _ _

theorem ringAt_kvSet_other {i j : Nat} (hi : i < size) (hj : j < size) (ne : j ≠ i) (r : Rec) :
    ringAt size h (kvSet m ((h + i) % size) r) j = ringAt size h m j :=
  kvGet?_kvSet_other _ _ _ _ (ringSlot_ne hj hi ne)

/-- The ring with the records at a position and the next exchanged, each flag GAP where it was (R484). -/
def ringSwap (size h k : Nat) (m : KV Rec) (a b : Rec) : KV Rec :=
  kvSet (kvSet m ((h + k) % size) (b.withGap a)) ((h + (k + 1)) % size) (a.withGap b)

variable {k : Nat} {a b : Rec}

theorem ringAt_ringSwap_left (fits : k + 1 < size) : ringAt size h (ringSwap size h k m a b) k = some (b.withGap a) := by
  rw [ringSwap, ringAt_kvSet_other fits (by omega) (by omega), ringAt_kvSet_self]

theorem ringAt_ringSwap_right : ringAt size h (ringSwap size h k m a b) (k + 1) = some (a.withGap b) :=
  ringAt_kvSet_self _ _

theorem ringAt_ringSwap_other (fits : k + 1 < size) {j : Nat} (hj : j < size) (left : j ≠ k) (right : j ≠ k + 1) :
    ringAt size h (ringSwap size h k m a b) j = ringAt size h m j := by
  rw [ringSwap, ringAt_kvSet_other fits hj right, ringAt_kvSet_other (by omega) hj left]

/-! ### What holds while a record settles (R481) -/

/-- A record on its way stands at `k` of the positions up to `last`: all neighbours are in order but those that end at `k`, and
so are the two around it. -/
structure Settling (size h last k : Nat) (m : KV Rec) : Prop where
  pairs : ∀ i < last, i + 1 ≠ k → Rec.InOrder (ringAt size h m i) (ringAt size h m (i + 1))
  around : ∀ i, i + 1 = k → k < last → Rec.InOrder (ringAt size h m i) (ringAt size h m (k + 1))

theorem Settling.swap {last : Nat} (st : Settling size h last (k + 1) m) (fits : last < size) (le : k + 1 ≤ last)
    (ha : ringAt size h m k = some a) (hb : ringAt size h m (k + 1) = some b) (before : b.before a = true) :
    Settling size h last k (ringSwap size h k m a b) := by
  have inside : k + 1 < size := by omega
  constructor
  case pairs =>
    intro i hi ne
    obtain rfl | left := Decidable.em (i = k)
    · rw [ringAt_ringSwap_left inside, ringAt_ringSwap_right]
      exact Rec.inOrder_withGap before
    obtain rfl | right := Decidable.em (i = k + 1)
    · rw [ringAt_ringSwap_right, ringAt_ringSwap_other inside (by omega) (by omega) (by omega)]
      exact Rec.inOrder_withGap_left (ha ▸ st.around k rfl hi)
    · rw [ringAt_ringSwap_other inside (by omega) left right, ringAt_ringSwap_other inside (by omega) ne (by omega)]
      exact st.pairs i hi (by omega)
  case around =>
    rintro i rfl hk
    rw [ringAt_ringSwap_right, ringAt_ringSwap_other inside (by omega) (by omega) (by omega)]
    exact Rec.inOrder_withGap_right (ha ▸ st.pairs i (by omega) (by omega))

theorem Settling.settle_inOrder {last n : Nat} (st : Settling size h last k m) (fits : last < size) (le : k ≤ last)
    (place : n % size = (h + k) % size) :
    ∀ i < last, Rec.InOrder (ringAt size h (Rec.settle size k n m) i) (ringAt size h (Rec.settle size k n m) (i + 1)) := by
  induction k generalizing n m with
  | zero => exact fun i hi => st.pairs i hi (Nat.succ_ne_zero i)
  | succ k ih =>
    have prev : (n + size - 1) % size = (h + k) % size := ringSlot_prev (by omega) place
    by_cases ordered : Rec.InOrder (ringAt size h m k) (ringAt size h m (k + 1))
    · rw [Rec.settle_of_inOrder (by rw [place, prev]; exact ordered)]
      intro i hi
      obtain rfl | ne := Decidable.em (i = k)
      · exact ordered
      · exact st.pairs i hi (by omega)
    · obtain ⟨a, b, ha, hb, before⟩ := Rec.not_inOrder ordered
      rw [Rec.settle_of_before (prev ▸ ha) (place ▸ hb) before, place, prev]
      exact ih (st.swap fits le ha hb before) (by omega) prev

end Ring

/-! ### A record pushed on a queue (R482, R484) -/

section Push
variable {size : Nat} {q : ErrQ} {r : Rec}

theorem ErrQ.push_of_full (full : size ≤ q.used) :
    q.push size r = { q with dropped := min 0xFFFF (q.dropped + 1), gap := true } := if_pos full

/-- What stands in the slots when a record has entered the slot of TAIL, before it settles. -/
def ErrQ.entered (size : Nat) (q : ErrQ) (r : Rec) : KV Rec :=
  kvSet q.recs (q.tail % size) { r with flags := r.flags + (if q.gap then 8 else 0) }

theorem ErrQ.push_of_room (room : q.used < size) :
    q.push size r = { q with recs := Rec.settle size q.used (q.tail % size) (q.entered size r),
                             tail := (q.tail + 1) % 2 ^ 32, gap := false } := if_neg (Nat.not_le_of_lt room)

theorem ErrQ.push_tail_of_room (room : q.used < size) : (q.push size r).tail = (q.tail + 1) % 2 ^ 32 := by
  rw [ErrQ.push_of_room room]

theorem ErrQ.push_head : (q.push size r).head = q.head := by
  unfold ErrQ.push; split <;> rfl

theorem ErrQ.push_dropped_of_room (room : q.used < size) : (q.push size r).dropped = q.dropped := by
  rw [ErrQ.push_of_room room]

theorem ErrQ.push_gap_of_room (room : q.used < size) : (q.push size r).gap = false := by
  rw [ErrQ.push_of_room room]

theorem ErrQ.push_tail_ne_of_room (room : q.used < size) : (q.push size r).tail ≠ q.tail := by
  rw [ErrQ.push_tail_of_room room]
  omega

theorem ErrQ.push_tail_of_full (full : size ≤ q.used) : (q.push size r).tail = q.tail := by
  rw [ErrQ.push_of_full full]

/-- A push leaves a mark: a record in a slot, or the gap. -/
theorem ErrQ.push_ne_init : q.push size r ≠ ErrQ.init := by
  intro h
  by_cases room : q.used < size
  · rw [ErrQ.push_of_room room] at h
    exact Rec.settle_ne_nil _ _ (kvSet_ne_nil _ _ _) (congrArg ErrQ.recs h)
  · rw [ErrQ.push_of_full (Nat.le_of_not_lt room)] at h
    exact Bool.noConfusion (congrArg ErrQ.gap h)

/-- A record that stands before none of its cycle stays in the slot of TAIL. -/
theorem ErrQ.push_slot (two : 1 < size) (room : q.used < size)
    (last : ∀ p, kvGet? q.recs ((q.tail + (size - 1)) % size) = some p → r.before p = false) :
    kvGet? (q.push size r).recs (q.tail % size) = some { r with flags := r.flags + (if q.gap then 8 else 0) } := by
  have prev : (q.tail % size + size - 1) % size = (q.tail + (size - 1)) % size := by
    rw [Nat.add_sub_assoc (Nat.le_of_lt two), Nat.mod_add_mod]
  have apart : (q.tail + (size - 1)) % size ≠ q.tail % size :=
    ringSlot_ne (h := q.tail) (j := 0) (by omega) (by omega) (by omega)
  have stays : Rec.settle size q.used (q.tail % size) (q.entered size r) = q.entered size r := by
    refine Rec.settle_of_inOrder ?_ _
    rw [prev, Nat.mod_mod, ErrQ.entered, kvGet?_kvSet_other _ _ _ _ apart, kvGet?_kvSet_self]
    rintro p _ hp ⟨⟩
    exact last p hp
  rw [ErrQ.push_of_room room, stays]
  exact kvGet?_kvSet_self _ _ _

/-! ### A queue in order stays so (R481) -/

/-- The records of a queue that are not yet consumed stand in the order of R481. -/
def ErrQ.InOrder (size : Nat) (q : ErrQ) : Prop :=
  ∀ i, i + 1 < q.used → Rec.InOrder (ringAt size q.head q.recs i) (ringAt size q.head q.recs (i + 1))

theorem ErrQ.head_add_used (head : q.head < 2 ^ 32) : (q.head + q.used) % 2 ^ 32 = q.tail % 2 ^ 32 := by
  unfold ErrQ.used
  omega

theorem ErrQ.used_push_of_room (small : size < 2 ^ 32) (head : q.head < 2 ^ 32) (room : q.used < size) :
    (q.push size r).used = q.used + 1 := by
  rw [ErrQ.used, ErrQ.push_tail_of_room room, ErrQ.push_head]
  unfold ErrQ.used at room ⊢
  omega

theorem ErrQ.InOrder.push (ordered : q.InOrder size) (small : size < 2 ^ 32) (divides : size ∣ 2 ^ 32) (head : q.head < 2 ^ 32)
    (room : q.used < size) : (q.push size r).InOrder size := by
  have slot : q.tail % size = (q.head + q.used) % size := by
    rw [← Nat.mod_mod_of_dvd q.tail divides, ← q.head_add_used head, Nat.mod_mod_of_dvd _ divides]
  have others : ∀ i < q.used, ringAt size q.head (q.entered size r) i = ringAt size q.head q.recs i := fun i hi => by
    rw [ErrQ.entered, slot, ringAt_kvSet_other room (by omega) (by omega)]
  have start : Settling size q.head q.used q.used (q.entered size r) :=
    { pairs := fun i hi ne => by
        rw [others i hi, others (i + 1) (by omega)]
        exact ordered i (by omega)
      around := fun _ _ past => absurd past (Nat.lt_irrefl _) }
  intro i hi
  rw [ErrQ.used_push_of_room small head room] at hi
  rw [ErrQ.push_of_room room]
  exact start.settle_inOrder room (Nat.le_refl _) ((Nat.mod_mod _ _).trans slot) i (by omega)

end Push

/-! ### An append to the device queue (R483, R484) -/

section Device
variable {s : State} {r : Rec}

theorem State.pushDev_devq (s : State) (r : Rec) : (s.pushDev r).devq = s.devq.push 1024 r :=
  (apply_ite State.devq _ _ _).trans (ite_self _)

theorem State.pushDev_parts (s : State) (r : Rec) : (s.pushDev r).parts = s.parts :=
  (apply_ite State.parts _ _ _).trans (ite_self _)

theorem State.pushDev_part (s : State) (r : Rec) (p : Nat) : (s.pushDev r).part p = s.part p := by
  rw [State.part, State.pushDev_parts, State.part]

theorem State.pushDev_of_full (full : 1024 ≤ s.devq.used) :
    s.pushDev r = { s with devq := { s.devq with dropped := min 0xFFFF (s.devq.dropped + 1), gap := true } } := by
  rw [State.pushDev, if_neg (fun signals => signals.1 (ErrQ.push_tail_of_full full)), ErrQ.push_of_full full]

theorem State.pushDev_out_of_room (room : s.devq.used < 1024) :
    (s.pushDev r).out = if s.devq.used = 0 ∨ 3 ≤ r.scope then .msix 1 :: s.out else s.out := by
  simp only [State.pushDev, ne_eq, ErrQ.push_tail_ne_of_room room, not_false_eq_true, true_and]
  split <;> rfl

end Device

/-! ### An append to the queue of a partition (R484, R488) -/

section Partition
variable {s : State} {r : Rec}

theorem kvGet_kvPut_of_ne {α : Type} [DecidableEq α] {d v : α} (ne : v ≠ d) (m : KV α) (x : Nat) :
    kvGet d (kvPut d m x v) x = v := by
  rw [kvPut, if_neg ne, kvGet, kvGet?_kvSet_self, Option.getD_some]

/-- A partition changed reads as what it was changed to, where that is not what an unlisted one reads as. -/
theorem State.modPart_part_self {p : Nat} {f : Part → Part} (ne : f (s.part p) ≠ Part.init) :
    (s.modPart p f).part p = f (s.part p) := kvGet_kvPut_of_ne ne _ _

theorem State.pushPart_part (s : State) (r : Rec) :
    ((s.pushPart r).part r.part).errq = (s.part r.part).errq.push 128 r ∧
      ((s.pushPart r).part r.part).fenced = ((s.part r.part).fenced || decide (128 ≤ (s.part r.part).errq.used)) := by
  rw [State.pushPart, State.modPart_part_self (fun h => ErrQ.push_ne_init (congrArg Part.errq h))]
  exact ⟨rfl, rfl⟩

theorem State.triggerReset_part (s : State) (p code : Nat) :
    ((s.triggerReset p code).part p).errq = (s.part p).errq ∧ ((s.triggerReset p code).part p).fenced = (s.part p).fenced := by
  unfold State.triggerReset
  split
  · rw [State.modPart_part_self (fun h => Option.some_ne_none _ (congrArg Part.resetDue h))]
    exact ⟨rfl, rfl⟩
  · exact ⟨rfl, rfl⟩

theorem State.triggerReset_devq_out (s : State) (p code : Nat) :
    (s.triggerReset p code).devq = s.devq ∧ (s.triggerReset p code).out = s.out := by
  unfold State.triggerReset
  split <;> exact ⟨rfl, rfl⟩

/-- An escalation leaves the queue and the fence of its partition. -/
theorem State.escalation_part (s t : State) (r : Rec) :
    ((s.escalation t r).part r.part).errq = (t.part r.part).errq ∧
      ((s.escalation t r).part r.part).fenced = (t.part r.part).fenced := by
  unfold State.escalation
  split
  · exact t.triggerReset_part r.part 3
  · exact ⟨rfl, rfl⟩

/-- An escalation leaves the device queue and signals nothing. -/
theorem State.escalation_devq_out (s t : State) (r : Rec) :
    (s.escalation t r).devq = t.devq ∧ (s.escalation t r).out = t.out := by
  unfold State.escalation
  split
  · exact t.triggerReset_devq_out r.part 3
  · exact ⟨rfl, rfl⟩

theorem State.appendPart_part (s : State) (r : Rec) :
    ((s.appendPart r).part r.part).errq = (s.part r.part).errq.push 128 (s.flagged r) ∧
      ((s.appendPart r).part r.part).fenced = ((s.part r.part).fenced || decide (128 ≤ (s.part r.part).errq.used)) := by
  obtain ⟨errq, fenced⟩ := s.escalation_part (s.pushPart (s.flagged r)) r
  obtain ⟨errqPushed, fencedPushed⟩ := s.pushPart_part (s.flagged r)
  exact ⟨errq.trans errqPushed, fenced.trans fencedPushed⟩

theorem State.appendPart_devq (s : State) (r : Rec) : (s.appendPart r).devq = s.devq :=
  (s.escalation_devq_out _ r).1

/-- A record and its copy: the queue of the partition is as without the copy. -/
theorem State.appendBoth_part (s : State) (r : Rec) :
    ((s.appendBoth r).part r.part).errq = ((s.appendPart r).part r.part).errq ∧
      ((s.appendBoth r).part r.part).fenced = ((s.appendPart r).part r.part).fenced := by
  simp only [State.appendBoth, State.appendPart, State.escalation_part, State.pushDev_part, and_self]

/-- The record that a partition's record copies to the device queue (R480). -/
def State.copyOf (s : State) (r : Rec) : Rec := { s.flagged r with flags := (s.flagged r).flags + 4 }

theorem State.appendBoth_devq_out (s : State) (r : Rec) :
    (s.appendBoth r).devq = s.devq.push 1024 (s.copyOf r) ∧
      (s.appendBoth r).out = ((s.pushPart (s.flagged r)).pushDev (s.copyOf r)).out := by
  obtain ⟨devq, out⟩ := s.escalation_devq_out ((s.pushPart (s.flagged r)).pushDev (s.copyOf r)) r
  exact ⟨devq.trans (State.pushDev_devq _ _), out⟩

end Partition

/-! ### The statement -/

/-- Settles O60: the order by what holds while a record settles; the appends by what a push does with room and when full. -/
theorem errorQueues : Obligations.ErrorQueues := by
  refine ⟨fun size q r sizes head _ room _ inOrder => ?order, fun s r =>
    ⟨fun room => ?device, fun full => State.pushDev_of_full full, fun room => ?partition, fun full => ?fence,
      s.appendPart_devq r, (s.appendBoth_part r).1, (s.appendBoth_part r).2, fun full => ?copyDropped,
      fun room => ?copyAppended⟩⟩
  case order =>
    have kept : (q.push size r).InOrder size := by
      have ⟨small, divides⟩ : size < 2 ^ 32 ∧ size ∣ 2 ^ 32 := by
        obtain rfl | rfl : size = 128 ∨ size = 1024 := by simpa only [List.mem_cons, List.not_mem_nil, or_false] using sizes
        · decide
        · decide
      exact ErrQ.InOrder.push (fun i hi a b => inOrder i a b hi) small divides head room
    exact fun i a b hi => kept i hi a b
  case device =>
    rw [State.appendDev, State.pushDev_devq]
    exact ⟨ErrQ.push_tail_of_room room, ErrQ.push_head, ErrQ.push_dropped_of_room room, ErrQ.push_gap_of_room room,
      ErrQ.push_slot (size := 1024) (r := { r with flags := r.flags + s.nested r }) (by decide) room,
      State.pushDev_out_of_room room⟩
  case partition =>
    obtain ⟨errq, fenced⟩ := s.appendPart_part r
    rw [errq, fenced, decide_eq_false (Nat.not_le_of_lt room), Bool.or_false]
    refine ⟨ErrQ.push_tail_of_room room, ErrQ.push_head, ErrQ.push_dropped_of_room room, ErrQ.push_gap_of_room room,
      fun last => ?_, rfl⟩
    rw [ErrQ.push_slot (r := s.flagged r) (by decide) room last]
    rfl
  case fence =>
    obtain ⟨errq, fenced⟩ := s.appendPart_part r
    rw [errq, fenced, ErrQ.push_of_full full, decide_eq_true full, Bool.or_true]
    exact ⟨rfl, rfl⟩
  case copyDropped =>
    obtain ⟨devq, out⟩ := s.appendBoth_devq_out r
    rw [devq, out, ErrQ.push_of_full full, State.pushDev_of_full (s := s.pushPart (s.flagged r)) full]
    exact ⟨rfl, rfl⟩
  case copyAppended =>
    obtain ⟨devq, out⟩ := s.appendBoth_devq_out r
    rw [devq, out]
    exact ⟨ErrQ.push_tail_of_room room, ErrQ.push_gap_of_room room,
      State.pushDev_out_of_room (s := s.pushPart (s.flagged r)) room⟩

end Sys2Proof.Machine
end

section
/-!
PROOFS. What every command answers: a next state with the commands that wait, and a replay-protected region that stands no
lower (R459, R460, R464). A command changes that region only where boot code seals and commits, where the management core
writes the flash, and where a key delivery or a scrub ends.
-/
namespace Sys2Proof.Machine

/-! ### The replay-protected region -/

theorem Nv.notBelow_refl (m : Nv) : m.notBelow m :=
  ⟨Nat.le_refl _, Nat.le_refl _, id, id, fun _ => Nat.le_refl _⟩

theorem Nv.notBelow.trans {m n k : Nv} (first : m.notBelow n) (second : n.notBelow k) : m.notBelow k := by
  obtain ⟨fw, man, tofu, owner, gens⟩ := first
  obtain ⟨fw', man', tofu', owner', gens'⟩ := second
  exact ⟨Nat.le_trans fw fw', Nat.le_trans man man', tofu' ∘ tofu, owner' ∘ owner, fun k => Nat.le_trans (gens k) (gens' k)⟩

/-- A state has the commands that wait of another, and its replay-protected region stands no lower. -/
def Advances (t s : State) : Prop := t.pending = s.pending ∧ s.nv.notBelow t.nv

theorem Advances.of_kept {t s : State} (kept : t.pending = s.pending ∧ t.nv = s.nv) : Advances t s :=
  ⟨kept.1, by rw [kept.2]; exact Nv.notBelow_refl _⟩

theorem Advances.trans {u t s : State} (second : Advances u t) (first : Advances t s) : Advances u s :=
  ⟨second.1.trans first.1, first.2.trans second.2⟩

/-- What keeps the queue and the region after a change of the region. -/
theorem Advances.kept {u t s : State} (first : Advances t s) (kept : u.pending = t.pending ∧ u.nv = t.nv) : Advances u s :=
  (Advances.of_kept kept).trans first

/-! ### The flash and its services (R536 to R541) -/

theorem State.setFlash_advances (s : State) (k : Nat) (f : FlashSlot) : Advances (s.setFlash k f) s :=
  ⟨rfl, Nv.notBelow_refl s.nv⟩

theorem State.flashWrite_advances (s : State) (tr k off : Nat) (bs : List Byte) : Advances (s.flashWrite tr k off bs).1 s := by
  unfold State.flashWrite
  split
  · exact .of_kept ⟨rfl, rfl⟩
  · split
    · exact .of_kept ⟨rfl, rfl⟩
    · exact s.setFlash_advances _ _

theorem State.flashCommit_advances (s : State) (tr k len : Nat) : Advances (s.flashCommit tr k len).1 s := by
  unfold State.flashCommit
  dsimp only
  split
  · exact .of_kept ⟨rfl, rfl⟩
  · split
    · exact .of_kept ⟨rfl, rfl⟩
    · exact ⟨rfl, Nv.notBelow_refl s.nv⟩

theorem State.flashErase_advances (s : State) (tr k : Nat) : Advances (s.flashErase tr k).1 s := by
  unfold State.flashErase
  split
  · exact .of_kept ⟨rfl, rfl⟩
  · split
    · exact .of_kept ⟨rfl, rfl⟩
    · exact s.setFlash_advances _ _

theorem State.serveMgmt_advances (s : State) (tr op : Nat) (p : List Byte) : Advances (s.serveMgmt tr op p).1 s := by
  unfold State.serveMgmt
  dsimp only
  split
  · exact .of_kept ⟨rfl, rfl⟩
  · split
    · exact .of_kept ⟨rfl, rfl⟩
    · exact .of_kept ⟨rfl, rfl⟩
    · exact s.flashWrite_advances ..
    · exact s.flashCommit_advances ..
    · exact s.flashErase_advances ..
    · split <;> exact .of_kept ⟨rfl, rfl⟩
    · split <;> exact .of_kept ⟨rfl, rfl⟩
    · exact .of_kept ⟨rfl, rfl⟩

theorem State.answerSvc_advances (s : State) (tr : Nat) (q : List Byte) : Advances (s.answerSvc tr q).1 s := by
  unfold State.answerSvc
  split
  · exact s.serveMgmt_advances ..
  · exact .of_kept ⟨rfl, rfl⟩

theorem State.service_advances (s : State) (op : Nat) (req : Option (List Byte)) : Advances (s.service op req) s := by
  unfold State.service
  split
  · split
    · exact (s.answerSvc_advances 1 s.svcBuf).kept (by simp [State.finishSvc])
    · exact .of_kept ⟨rfl, rfl⟩
  · split
    · exact .of_kept ⟨rfl, rfl⟩
    · exact (s.answerSvc_advances 2 _).kept (State.emit_kept ..)

/-! ### Boot code (R458 to R460) -/

theorem fwFloor_le_of_firmwareCause {nv : Nv} {f : FlashSlot} (passes : firmwareCause nv f = none) : nv.fwFloor ≤ f.svn := by
  unfold firmwareCause at passes
  split at passes
  · cases passes
  · split at passes
    · cases passes
    · omega

theorem manFloor_le_of_manifestCause {nv : Nv} {m : Memory} (passes : manifestCause nv m = none) : nv.manFloor ≤ manSvn m := by
  unfold manifestCause at passes
  split at passes
  · cases passes
  · split at passes
    · cases passes
    · split at passes
      · cases passes
      · omega

theorem State.adoptOwner_advances (s : State) (m : Memory) : Advances (s.adoptOwner m) s := by
  unfold State.adoptOwner
  split
  · exact .of_kept ⟨rfl, rfl⟩
  · exact ⟨rfl, Nat.le_refl _, Nat.le_refl _, fun _ => rfl, fun _ => rfl, fun _ => Nat.le_refl _⟩

theorem State.adoptOwner_floors (s : State) (m : Memory) :
    (s.adoptOwner m).nv.fwFloor = s.nv.fwFloor ∧ (s.adoptOwner m).nv.manFloor = s.nv.manFloor := by
  unfold State.adoptOwner
  split <;> exact ⟨rfl, rfl⟩

/-- A commit raises both floors: it never lowers one, where what runs and the manifest have passed their checks. -/
theorem State.commitStep_advances (s : State) {svn : Nat} {m : Memory} (firmware : s.nv.fwFloor ≤ svn)
    (manifest : s.nv.manFloor ≤ manSvn m) : Advances (s.commitStep svn m) s := by
  unfold State.commitStep
  split
  · refine ⟨rfl, firmware, manifest, id, fun owned => ?_, fun _ => Nat.le_refl _⟩
    dsimp only
    split
    · exact owned
    · rfl
  · exact .of_kept ⟨rfl, rfl⟩

/-- Sealing keeps both floors, and the manifest it seals from, where there is one, is not below its floor. -/
theorem State.sealStep_advances (s : State) :
    Advances s.sealStep.1 s ∧ s.sealStep.1.nv.fwFloor = s.nv.fwFloor ∧
      ∀ m, s.sealStep.2 = some m → s.sealStep.1.nv.manFloor ≤ manSvn m := by
  unfold State.sealStep
  dsimp only
  split
  next c found =>
    obtain ⟨_, sealed⟩ := s.sealFrom_kept c.2.data
    obtain ⟨fw, man⟩ := (s.sealFrom c.2.data).adoptOwner_floors c.2.data
    refine ⟨((s.sealFrom c.2.data).adoptOwner_advances _).trans (.of_kept (s.sealFrom_kept _)), fw.trans (by rw [sealed]), ?_⟩
    rintro m ⟨⟩
    rw [man, sealed]
    exact manFloor_le_of_manifestCause (by simpa using List.find?_some found)
  next =>
    split
    · obtain ⟨_, sealed⟩ := s.sealRecovery_kept ((manifestCause s.nv (by assumption : Nat × FlashSlot).2.data).getD 7)
      exact ⟨.of_kept (s.sealRecovery_kept _), by simp, fun m absent => nomatch absent⟩
    · exact ⟨.of_kept (s.sealRecovery_kept _), by simp, fun m absent => nomatch absent⟩

theorem State.bootCode_advances (s : State) (puf rpr write : Bool) : Advances (s.bootCode puf rpr write).1 s := by
  unfold State.bootCode
  dsimp only
  split
  · exact .of_kept (s.bootHalt_kept ..)
  split
  · exact .of_kept (s.bootHalt_kept ..)
  split
  · exact .of_kept (s.bootHalt_kept ..)
  next f found =>
    have firmware : s.nv.fwFloor ≤ f.2.svn := fwFloor_le_of_firmwareCause (by simpa using List.find?_some found)
    generalize started : State.fset _ _ _ _ = u
    have ⟨queue, region⟩ : u.pending = s.pending ∧ u.nv = s.nv := by rw [← started]; simp
    obtain ⟨sealed, fw, man⟩ := u.sealStep_advances
    generalize u.sealStep = v at sealed fw man
    obtain ⟨v, mani⟩ := v
    have through : Advances v s := sealed.trans (.of_kept ⟨queue, region⟩)
    have shows : ∀ t : State, Advances t s → Advances ((t.nv.exhausted.foldl (fun (t : State) k =>
        t.fset Reg.SEC_KS_B_STATE [k] 4) t).showRpr.fset Reg.SEC_BOOT_STAT_STAGE [] 7) s :=
      fun t committed => committed.kept (by simp)
    cases mani with
    | none => exact shows v through
    | some m =>
      dsimp only
      split
      · exact .of_kept (s.bootHalt_kept ..)
      · exact shows _ ((v.commitStep_advances (by rwa [fw, region]) (man m rfl)).trans through)

/-! ### Commands whose effect needs its own cases -/

@[simp] theorem State.scalar2_kept (s : State) (slot : Nat) (w : MWord) (opc : Nat) (f : Word → Word → Word) :
    (s.scalar2 slot w opc f).pending = s.pending ∧ (s.scalar2 slot w opc f).nv = s.nv := by simp [State.scalar2]

@[simp] theorem State.bitwise_kept (s : State) (slot : Nat) (w : MWord) (opc : Nat) (f : Nat → Nat → Nat) :
    (s.bitwise slot w opc f).pending = s.pending ∧ (s.bitwise slot w opc f).nv = s.nv := by simp [State.bitwise]

@[simp] theorem State.vector_kept (s : State) (slot : Nat) (w : MWord) (opc : Nat) (o : VOp) (sb sc sat : Bool) :
    (s.vector slot w opc o sb sc sat).pending = s.pending ∧ (s.vector slot w opc o sb sc sat).nv = s.nv := by
  simp [State.vector]

/-- A command answers a next state that advances a state. -/
def Answers (o : Outcome) (s : State) : Prop := ∃ t, o = .next t ∧ Advances t s

theorem Answers.next {t s : State} (advances : Advances t s) : Answers (.next t) s := ⟨t, rfl, advances⟩

theorem Answers.kept {t s : State} (kept : t.pending = s.pending ∧ t.nv = s.nv) : Answers (.next t) s := .next (.of_kept kept)

theorem execCometArrival_answers (c id : Nat) (bad : List Nat) (gone : Bool) (s : State) :
    Answers (execCometArrival c id bad gone s) s := by
  unfold execCometArrival
  refine .kept ?_
  split
  · exact ⟨rfl, rfl⟩
  split
  · exact ⟨rfl, rfl⟩
  next q _ =>
    have delivered := fun ref m => s.deliver_kept none ref m
    dsimp only
    split
    · split
      · exact ⟨rfl, rfl⟩
      split
      · split
        all_goals
          next t delivery =>
            obtain ⟨queue, region⟩ := delivered _ _
            rw [delivery] at queue region
            dsimp only at queue region
            (repeat' split) <;> simp [queue, region]
      · (repeat' split) <;> simp
    · (repeat' split) <;> simp

theorem execFillRoomRetry_answers (p : Nat) (s : State) : Answers (execFillRoomRetry p s) s := by
  have fills := foldl_kept (fun (t : State) f => t.retryFill f) (fun t f => t.retryFill_kept f) (s.waitingFills p) s
  exact .kept (foldl_kept_of _ (fun t e => by split <;> simp) _ fills)

theorem execImbalWindowEnd_answers (s : State) : Answers (execImbalWindowEnd s) s := by
  unfold execImbalWindowEnd
  have chans := s.imbalEnd_kept 512 true s.chanLoad s.imbC Reg.PLACE_CHAN_LOAD_HOT_RUN Reg.PLACE_CHAN_LOAD_REQUESTS
  generalize s.imbalEnd 512 true s.chanLoad s.imbC Reg.PLACE_CHAN_LOAD_HOT_RUN Reg.PLACE_CHAN_LOAD_REQUESTS = a at chans
  obtain ⟨u, _⟩ := a
  dsimp only at chans ⊢
  have trays := u.imbalEnd_kept 24 false s.trayLoad s.imbT Reg.PLACE_TRAY_LOAD_HOT_RUN Reg.PLACE_TRAY_LOAD_REQUESTS
  generalize State.imbalEnd u 24 false s.trayLoad s.imbT Reg.PLACE_TRAY_LOAD_HOT_RUN Reg.PLACE_TRAY_LOAD_REQUESTS = b at trays
  obtain ⟨v, _⟩ := b
  refine .kept ?_
  dsimp only at trays ⊢
  split
  · exact ⟨rfl, rfl⟩
  · simp [chans, trays]

theorem execRun_answers (q : Nat) (s : State) : Answers (execRun q s) s := by
  refine .kept ?_
  split
  · rw [(State.beginRun_kept _ _).1, (State.beginRun_kept _ _).2]
    exact State.serve_kept _ _ _ _ _ _ (fun d s => by dsimp only; (repeat' split) <;> simp)
  · exact State.serve_kept _ _ _ _ _ _ (fun d s => by dsimp only; (repeat' split) <;> simp)

theorem execContextAbort_answers (c : Nat) (s : State) : Answers (execContextAbort c s) s := by
  refine .kept ?_
  split
  · exact ⟨rfl, rfl⟩
  split
  · exact ⟨rfl, rfl⟩
  · exact foldl_kept_of _ (fun u q => by (repeat' split) <;> simp) _ (s.abortCtx_kept c)

theorem State.endClearOrphans_kept (s : State) (h : Nat) (ls : List Nat) (w : BgWork) (bs : List Byte) :
    ((s.clearOrphans h ls 0).1.endBg w bs).pending = s.pending ∧ ((s.clearOrphans h ls 0).1.endBg w bs).nv = s.nv := by
  rw [(State.endBg_kept _ _ _).1, (State.endBg_kept _ _ _).2]
  exact s.clearOrphans_kept h ls 0

theorem execBackgroundOpEnd_answers (s : State) : Answers (execBackgroundOpEnd s) s := by
  unfold execBackgroundOpEnd
  refine .kept ?_
  split
  · exact ⟨rfl, rfl⟩
  · dsimp only
    exact s.endClearOrphans_kept ..
  · split
    · exact ⟨rfl, rfl⟩
    · exact s.endBg_kept ..

theorem execShadowForward_answers (p : Nat) (i : ShadowInput) (s : State) : Answers (execShadowForward p i s) s := by
  refine .kept ?_
  split
  · exact ⟨rfl, rfl⟩
  split
  · exact ⟨rfl, rfl⟩
  split
  · exact State.applyForward_kept _ _ _ _ ‹_›
  · simp

theorem execPresenceChange_answers (n : Nat) (arrive : Bool) (cap : Nat) (fit : Bool) (s : State) :
    Answers (execPresenceChange n arrive cap fit s) s := by
  unfold execPresenceChange
  refine .kept ?_
  dsimp only
  generalize shown : State.modLink _ _ = t
  have kept : t.pending = s.pending ∧ t.nv = s.nv := by rw [← shown]; simp
  (repeat' split) <;> simp [kept]

theorem execBoot_answers (puf rpr write : Bool) (s : State) : Answers (execBoot puf rpr write s) s := by
  refine .next ?_
  split
  · exact .of_kept ⟨rfl, rfl⟩
  · have code := s.bootCode_advances puf rpr write
    dsimp only
    split
    · exact code.kept (by simp)
    · exact code

theorem execDeviceReset_answers (puf rpr write : Bool) (s : State) : Answers (execDeviceReset puf rpr write s) s := by
  refine .next ?_
  split
  · exact .of_kept ⟨rfl, rfl⟩
  · exact (State.bootCode_advances _ _ _ _).trans (.of_kept (by simp))

/-- A delivery reserves the next generation of its slot, and leaves those of the others (R464). -/
theorem execKeyDeliveryDone_answers (s : State) : Answers (execKeyDeliveryDone s) s := by
  refine .next ?_
  split
  · exact .of_kept ⟨rfl, rfl⟩
  next d _ =>
    dsimp only
    split
    · exact .of_kept (by simp)
    split
    · exact .of_kept (by simp)
    · refine Advances.kept (t := { s with nv := { s.nv with gens := kvSet s.nv.gens (kdSlot d) (kvGet 0 s.nv.gens (kdSlot d) + 1) } })
        ⟨rfl, Nat.le_refl _, Nat.le_refl _, id, id, fun k => ?_⟩ (by simp)
      by_cases same : k = kdSlot d
      · rw [same]
        dsimp only
        unfold kvGet
        rw [kvGet?_kvSet_self]
        exact Nat.le_succ _
      · unfold kvGet
        exact Nat.le_of_eq (congrArg (Option.getD · 0) (kvGet?_kvSet_other _ _ _ _ same).symm)

theorem execScrubComplete_answers (k : Nat) (s : State) : Answers (execScrubComplete k s) s := by
  refine .next ?_
  split
  · exact .of_kept ⟨rfl, rfl⟩
  · refine ⟨by simp, ?_⟩
    simp only [State.fset_kept]
    exact ⟨Nat.le_refl _, Nat.le_refl _, id, id, fun _ => Nat.le_refl _⟩

theorem execFlashSlotTimeout_answers (k : Nat) (s : State) : Answers (execFlashSlotTimeout k s) s := by
  refine .next ?_
  split
  · exact s.setFlash_advances _ _
  · exact .of_kept ⟨rfl, rfl⟩

/-! ### Every command -/

theorem execOverdue_answers (p : Nat) (s : State) : Answers (execOverdue p s) s := by
  refine .kept ?_
  dsimp only
  (repeat' split) <;> simp

theorem execContextParkCopyDone_answers (c : Nat) (fails : Bool) (s : State) : Answers (execContextParkCopyDone c fails s) s := by
  refine .kept ?_
  dsimp only
  (repeat' split) <;> simp

theorem execMemoryAnswer_answers (slot : Nat) (bad : List Nat) (s : State) : Answers (execMemoryAnswer slot bad s) s := by
  refine .kept ?_
  dsimp only
  (repeat' split) <;> simp

theorem execRequestLate_answers (id : Nat) (s : State) : Answers (execRequestLate id s) s := by
  refine .kept ?_
  dsimp only
  (repeat' split) <;> simp

theorem execRequestFailTimeout_answers (id : Nat) (s : State) : Answers (execRequestFailTimeout id s) s := by
  refine .kept ?_
  dsimp only
  (repeat' split) <;> simp

theorem execGranuleFillDone_answers (h g : Nat) (s : State) : Answers (execGranuleFillDone h g s) s := by
  refine .kept ?_
  dsimp only
  (repeat' split) <;> simp

theorem execScrubPatrol_answers (corrected : Nat) (found : ScrubFinds) (s : State) : Answers (execScrubPatrol corrected found s) s := by
  refine .kept ?_
  dsimp only
  (repeat' split) <;> simp

theorem execNmeOperationEnd_answers (id : Nat) (fail : Option (Nat × Nat)) (s : State) : Answers (execNmeOperationEnd id fail s) s := by
  refine .kept ?_
  dsimp only
  (repeat' split) <;> simp

theorem execCompletionWrite_answers (q hostCount : Nat) (s : State) : Answers (execCompletionWrite q hostCount s) s := by
  refine .kept ?_
  dsimp only
  (repeat' split) <;> simp

theorem execSpillReturn_answers (n out cls : Nat) (s : State) : Answers (execSpillReturn n out cls s) s := by
  refine .kept ?_
  dsimp only
  (repeat' split) <;> simp

theorem execIdeKeyManagement_answers (n : Nat) (root : BitVec 512) (s : State) : Answers (execIdeKeyManagement n root s) s := by
  refine .kept ?_
  dsimp only
  (repeat' split) <;> simp

theorem execIdeIntegrityFailure_answers (n : Nat) (s : State) : Answers (execIdeIntegrityFailure n s) s := by
  refine .kept ?_
  dsimp only
  (repeat' split) <;> simp

theorem execTrainingStateEnd_answers (n lock : Nat) (s : State) : Answers (execTrainingStateEnd n lock s) s := by
  refine .kept ?_
  dsimp only
  (repeat' split) <;> simp

theorem execRailGood_answers (r mv cur pw : Nat) (s : State) : Answers (execRailGood r mv cur pw s) s := by
  refine .kept ?_
  dsimp only
  (repeat' split) <;> simp

theorem execPowerCapWindow_answers (avg vin iin pin : Nat) (s : State) : Answers (execPowerCapWindow avg vin iin pin s) s := by
  refine .kept ?_
  dsimp only
  (repeat' split) <;> simp

theorem execHbmTrainingEnd_answers (found : Training) (s : State) : Answers (execHbmTrainingEnd found s) s := by
  refine .kept ?_
  dsimp only
  (repeat' split) <;> simp

theorem execRebuildCopyDone_answers (k : Nat) (s : State) : Answers (execRebuildCopyDone k s) s := by
  refine .kept ?_
  dsimp only
  (repeat' split) <;> simp

theorem execLossLogWrite_answers (p : Nat) (s : State) : Answers (execLossLogWrite p s) s := by
  refine .kept ?_
  dsimp only
  (repeat' split) <;> simp

theorem execShadowDigest_answers (p n : Nat) (d : BitVec 256) (v : Bool) (s : State) : Answers (execShadowDigest p n d v s) s := by
  refine .kept ?_
  dsimp only
  (repeat' split) <;> simp

theorem commands_without_operand_answer (s : State) :
    ∀ c ∈ [Instr.pilotFlr, .debounceEnd, .earlySupplyFault, .ilimit, .ilimitTimeout, .sysRstN, .getEndpointId,
      .getMctpVersionSupport, .getMessageTypeSupport, .getVendorDefinedMessageSupport, .tapReset, .pilotFunctionReady,
      .ilimitRelease], Answers (exec c s) s := by
  simp only [List.forall_mem_cons, List.not_mem_nil, false_implies, implies_true, and_true]
  and_intros <;> (refine .kept ?_; (repeat' split) <;> simp)

theorem commands_of_one_number_answer (n : Nat) (s : State) :
    ∀ c ∈ [Instr.orbitBoundary n, .moonLeavesService n, .moveCopyDone n, .oldLayoutFree n, .offerLapse n, .acceleratorCrash n,
      .tagAdmit n, .ideKeyRefresh n, .viralReceived n, .trainingTimeout n, .trainingRestart n, .lossOfLight n, .darkReceived n,
      .p1Entry n, .p1Exit n, .portLost n, .vinRise n, .railFault n, .vinOutOfRange n, .sagRecover n, .thermRecover n,
      .drainBound n, .fenced n, .partitionReset n, .i3cEntdaa n, .derated n, .tenantPowerWindow n], Answers (exec c s) s := by
  simp only [List.forall_mem_cons, List.not_mem_nil, false_implies, implies_true, and_true]
  and_intros <;> (refine .kept ?_; (repeat' split) <;> simp)

theorem commands_of_two_numbers_answer (m n : Nat) (s : State) :
    ∀ c ∈ [Instr.xaccNormalise m n, .jobTeardown m n, .combinerLineEnter m n, .combinerApply m n, .combinerLineLeave m n,
      .laserLow m n, .laserRestored m n, .oeLeavesService m n, .sagDetect m n, .thermalReading m n, .shadowPromote m n,
      .shadowFail m n, .viewWrite m n], Answers (exec c s) s := by
  simp only [List.forall_mem_cons, List.not_mem_nil, false_implies, implies_true, and_true]
  and_intros <;> (refine .kept ?_; (repeat' split) <;> simp)

theorem exec_answers (c : Instr) (s : State) : Answers (exec c s) s := by
  cases c
  case overdue => exact execOverdue_answers ..
  case contextParkCopyDone => exact execContextParkCopyDone_answers ..
  case memoryAnswer => exact execMemoryAnswer_answers ..
  case requestLate => exact execRequestLate_answers ..
  case requestFailTimeout => exact execRequestFailTimeout_answers ..
  case granuleFillDone => exact execGranuleFillDone_answers ..
  case scrubPatrol => exact execScrubPatrol_answers ..
  case nmeOperationEnd => exact execNmeOperationEnd_answers ..
  case completionWrite => exact execCompletionWrite_answers ..
  case spillReturn => exact execSpillReturn_answers ..
  case ideKeyManagement => exact execIdeKeyManagement_answers ..
  case ideIntegrityFailure => exact execIdeIntegrityFailure_answers ..
  case trainingStateEnd => exact execTrainingStateEnd_answers ..
  case railGood => exact execRailGood_answers ..
  case powerCapWindow => exact execPowerCapWindow_answers ..
  case hbmTrainingEnd => exact execHbmTrainingEnd_answers ..
  case rebuildCopyDone => exact execRebuildCopyDone_answers ..
  case lossLogWrite => exact execLossLogWrite_answers ..
  case shadowDigest => exact execShadowDigest_answers ..
  case cometArrival => exact execCometArrival_answers ..
  case fillRoomRetry => exact execFillRoomRetry_answers ..
  case imbalWindowEnd => exact execImbalWindowEnd_answers ..
  case run => exact execRun_answers ..
  case contextAbort => exact execContextAbort_answers ..
  case backgroundOpEnd => exact execBackgroundOpEnd_answers ..
  case shadowForward => exact execShadowForward_answers ..
  case presenceChange => exact execPresenceChange_answers ..
  case boot => exact execBoot_answers ..
  case deviceReset => exact execDeviceReset_answers ..
  case keyDeliveryDone => exact execKeyDeliveryDone_answers ..
  case scrubComplete => exact execScrubComplete_answers ..
  case flashSlotTimeout => exact execFlashSlotTimeout_answers ..
  case status | flashInfo | flashWrite | flashCommit | flashErase | telemRead | discRead => exact .next (s.service_advances ..)
  case ctxOpen | validate | release | reclass | steep | fill | copy | compare | reduce | publish | mapStage =>
    exact .kept (State.serve_kept _ _ _ _ _ _ (fun d t => by dsimp only; (repeat' split) <;> simp))
  case ctxClose | register | query =>
    exact .kept (State.serve_kept _ _ _ _ _ _ (fun d t => by (repeat' split) <;> simp))
  case ownClaim | ownOffer | ownDrop =>
    exact .kept (State.serve_kept _ _ _ _ _ _ (fun d t => State.owning_kept _ _ _ _ (fun a b => by (repeat' split) <;> simp)))
  case ownAccept =>
    exact .kept (State.serve_kept _ _ _ _ _ _ (fun d t => State.owning_kept _ _ _ _ (fun a b => by
      dsimp only; (repeat' split) <;> simp)))
  case halt | mma | xaddl | xdot | orbit | msgs | tbegin | tclm | tcmt =>
    exact .kept (State.issueWith_kept _ _ _ _ _ _ _ (fun c x => by dsimp only; (repeat' split) <;> simp))
  case memspecrd | m2sOtherOpcode | trayOriginatedRequest | s2mDrs | s2mNdr | trayIoRequest | trayBisnp =>
    exact .kept (State.flit_kept _ _ _ (by (repeat' split) <;> simp))
  case deviceMessageRun =>
    exact .kept (State.flit_kept _ _ _ (by dsimp only; (repeat' split) <;> simp))
  case setResponseMessageLimit | clearEventRecords | setEventInterruptPolicy | skGetId | skAssignPbr | skDeclareDead |
      skJobTeardown | skSetWallclock | skPartReset | skGetErr =>
    exact .kept (State.fm_kept _ _ _ _ (by dsimp only; (repeat' split) <;> simp))
  case skClearOrphans =>
    exact .kept (State.fm_kept _ _ _ _ (by (repeat' split) <;> simp))
  case pilotFlr | debounceEnd | earlySupplyFault | ilimit | ilimitTimeout | sysRstN | getEndpointId | getMctpVersionSupport |
      getMessageTypeSupport | getVendorDefinedMessageSupport | tapReset | pilotFunctionReady | ilimitRelease =>
    exact commands_without_operand_answer _ _ (by simp)
  case orbitBoundary n | moonLeavesService n | moveCopyDone n | oldLayoutFree n | offerLapse n | acceleratorCrash n |
      tagAdmit n | ideKeyRefresh n | viralReceived n | trainingTimeout n | trainingRestart n | lossOfLight n | darkReceived n |
      p1Entry n | p1Exit n | portLost n | vinRise n | railFault n | vinOutOfRange n | sagRecover n | thermRecover n |
      drainBound n | fenced n | partitionReset n | i3cEntdaa n | derated n | tenantPowerWindow n =>
    exact commands_of_one_number_answer n _ _ (by simp)
  case xaccNormalise m n | jobTeardown m n | combinerLineEnter m n | combinerApply m n | combinerLineLeave m n | laserLow m n |
      laserRestored m n | oeLeavesService m n | sagDetect m n | thermalReading m n | shadowPromote m n | shadowFail m n |
      viewWrite m n =>
    exact commands_of_two_numbers_answer m n _ _ (by simp)
  case bar0UnalignedAccess | registerWrite | contextResumeCopyDone | pilotDoorbell | xbarTagBudget | biTimeout | fabricIoTlp |
      crossbarGrant | spdmMeasurements | pilotLinkTraining | pilotD3hot | dataFrame | trainingFrame | uncorrLimit | retrain |
      pstateReq | errHead | pair | expel | shadowJoin | setEndpointId | spillReturnFilled =>
    refine .kept ?_
    (repeat' split) <;> simp
  all_goals exact .kept (by simp)

/-- Settles O52: what `exec_answers` says of the queue. -/
theorem commandsKeepTheQueue : Obligations.CommandsKeepTheQueue := by
  intro c s
  obtain ⟨t, answers, queue, _⟩ := exec_answers c s
  exact ⟨t, answers, queue⟩

theorem step_advances {s t : State} (h : step s = .next t) : s.nv.notBelow t.nv := by
  unfold step at h
  split at h
  · cases h
    rw [(s.tick_kept).2]
    exact Nv.notBelow_refl _
  next c r _ =>
    obtain ⟨u, answers, _, region⟩ := exec_answers c { s with pending := r }
    cases answers.symm.trans h
    exact region

/-- Settles O53: a step advances the region, and standing no lower is transitive. -/
theorem rollbackMaximaNeverFall : Obligations.RollbackMaximaNeverFall :=
  fun _ _ _ before stepped => before.trans (step_advances stepped)

end Sys2Proof.Machine
end

section
/-!
PROOFS. The register map (R563). Reading indices off an offset undoes the offset of indices where each stride is wider than what
the strides after it reach; two registers share no offset where their ranges lie apart, or where both repeat at one stride
and lie apart within it.
-/
namespace Sys2Proof.Machine

/-! ### Indices and offsets -/

/-- The largest offset that indices within some dimensions reach. -/
def dimsTop : List (Nat × Nat) → Nat
  | [] => 0
  | (st, cnt) :: r => st * (cnt - 1) + dimsTop r

/-- Each stride is wider than what the strides after it reach. -/
def nested : List (Nat × Nat) → Bool
  | [] => true
  | (st, _) :: r => decide (dimsTop r < st) && nested r

theorem addrOfDims_le_dimsTop {dims : List (Nat × Nat)} {ix : List Nat} (within : indexOk dims ix = true) :
    addrOfDims dims ix ≤ dimsTop dims := by
  induction dims generalizing ix with
  | nil => exact Nat.le_of_eq (by rfl)
  | cons e r ih =>
    obtain ⟨st, cnt⟩ := e
    cases ix with
    | nil => cases within
    | cons i q =>
      simp only [indexOk, Bool.and_eq_true, decide_eq_true_eq] at within
      exact Nat.add_le_add (Nat.mul_le_mul_left st (by omega)) (ih within.2)

/-- The indices read off the offset of some indices are those indices. -/
theorem matchDims_addrOfDims {dims : List (Nat × Nat)} {ix : List Nat} (wide : nested dims = true)
    (within : indexOk dims ix = true) : matchDims dims (addrOfDims dims ix) = some ix := by
  induction dims generalizing ix with
  | nil =>
    cases ix with
    | nil => rfl
    | cons i q => cases within
  | cons e r ih =>
    obtain ⟨st, cnt⟩ := e
    cases ix with
    | nil => cases within
    | cons i q =>
      simp only [nested, indexOk, Bool.and_eq_true, decide_eq_true_eq] at wide within
      have low : addrOfDims r q < st := Nat.lt_of_le_of_lt (addrOfDims_le_dimsTop within.2) wide.1
      have index : (st * i + addrOfDims r q) / st = i := by
        rw [Nat.mul_add_div (by omega), Nat.div_eq_of_lt low, Nat.add_zero]
      have rest : (st * i + addrOfDims r q) % st = addrOfDims r q := by
        rw [Nat.mul_add_mod, Nat.mod_eq_of_lt low]
      simp only [matchDims, addrOfDims, index, rest, within.1, if_true, ih wide.2 within.2, Option.map_some]

theorem matchDims_sound {dims : List (Nat × Nat)} {n : Nat} {ix : List Nat} (found : matchDims dims n = some ix) :
    n = addrOfDims dims ix ∧ indexOk dims ix = true := by
  induction dims generalizing n ix with
  | nil =>
    simp only [matchDims] at found
    split at found
    · cases found
      exact ⟨‹_›, rfl⟩
    · cases found
  | cons e r ih =>
    obtain ⟨st, cnt⟩ := e
    simp only [matchDims] at found
    split at found
    · obtain ⟨q, rest, rfl⟩ := Option.map_eq_some_iff.mp found
      obtain ⟨offset, within⟩ := ih rest
      refine ⟨?_, ?_⟩
      · rw [addrOfDims, ← offset, Nat.div_add_mod]
      · rw [indexOk, within, Bool.and_true]
        exact decide_eq_true ‹_›
    · cases found

/-! ### Registers that share no offset -/

/-- Two registers lie apart: one after the other, or, repeated at one stride, one after the other within it. -/
def RegDesc.apart (a b : RegDesc) : Bool :=
  decide (a.base + dimsTop a.dims < b.base) ||
  match a.dims, b.dims with
  | (st, _) :: r, (st', _) :: r' =>
    decide (st = st' ∧ a.base + dimsTop r < b.base ∧ b.base + dimsTop r' < a.base + st)
  | _, _ => false

theorem RegDesc.addr_ne_of_apart {a b : RegDesc} (apart : a.apart b = true) {ix jx : List Nat}
    (hix : indexOk a.dims ix = true) (hjx : indexOk b.dims jx = true) :
    a.base + addrOfDims a.dims ix ≠ b.base + addrOfDims b.dims jx := by
  have left := addrOfDims_le_dimsTop hix
  simp only [RegDesc.apart, Bool.or_eq_true, decide_eq_true_eq] at apart
  obtain before | within := apart
  · omega
  · split at within
    next st _ r st' _ r' ha hb =>
      rw [ha] at hix ⊢
      rw [hb] at hjx ⊢
      cases ix with
      | nil => cases hix
      | cons i q =>
        cases jx with
        | nil => cases hjx
        | cons j p =>
          simp only [indexOk, Bool.and_eq_true, decide_eq_true_eq] at hix hjx within
          obtain ⟨rfl, lower, upper⟩ := within
          have lowA := addrOfDims_le_dimsTop hix.2
          have lowB := addrOfDims_le_dimsTop hjx.2
          simp only [addrOfDims]
          intro same
          obtain less | equal | more := Nat.lt_trichotomy i j
          · have := Nat.mul_le_mul_left st (show i + 1 ≤ j from less)
            rw [Nat.mul_succ] at this
            omega
          · subst equal
            omega
          · have := Nat.mul_le_mul_left st (show j + 1 ≤ i from more)
            rw [Nat.mul_succ] at this
            omega
    next => cases within

/-- The summary lists every register. -/
theorem RegName.mem_all (r : RegName) : r ∈ RegName.all := by
  cases r <;> decide

/-- A fact about each register of the summary, by running through its rows. -/
theorem RegName.nested_dims : RegName.all.all (fun r => nested r.desc.dims && decide (r.desc.base % 8 = 0) &&
    r.desc.dims.all (fun d => decide (d.1 % 8 = 0))) = true := by
  decide

set_option maxRecDepth 20000 in
theorem RegName.all_apart : RegName.all.all (fun r => RegName.all.all (fun q =>
    decide (r = q) || r.desc.apart q.desc || q.desc.apart r.desc)) = true := by
  decide

theorem RegName.addr_injective {r q : RegName} {ix jx : List Nat} (hix : indexOk r.desc.dims ix = true)
    (hjx : indexOk q.desc.dims jx = true) (same : r.addr ix = q.addr jx) : r = q := by
  have pair := List.all_eq_true.mp (List.all_eq_true.mp RegName.all_apart r r.mem_all) q q.mem_all
  simp only [Bool.or_eq_true, decide_eq_true_eq] at pair
  obtain (equal | apart) | apart := pair
  · exact equal
  · exact absurd same (RegDesc.addr_ne_of_apart apart hix hjx)
  · exact absurd same.symm (RegDesc.addr_ne_of_apart apart hjx hix)

theorem addrOfDims_aligned {dims : List (Nat × Nat)} (strides : dims.all (fun d => decide (d.1 % 8 = 0)) = true)
    (ix : List Nat) : addrOfDims dims ix % 8 = 0 := by
  induction dims generalizing ix with
  | nil => cases ix <;> rfl
  | cons e r ih =>
    obtain ⟨st, cnt⟩ := e
    simp only [List.all_cons, Bool.and_eq_true, decide_eq_true_eq] at strides
    cases ix with
    | nil => rfl
    | cons i q => rw [addrOfDims, Nat.add_mod, Nat.mul_mod, strides.1, ih strides.2 q, Nat.zero_mul]

theorem RegName.addr_aligned (r : RegName) (ix : List Nat) : r.addr ix % 8 = 0 := by
  have row := List.all_eq_true.mp RegName.nested_dims r r.mem_all
  simp only [Bool.and_eq_true, decide_eq_true_eq] at row
  rw [RegName.addr, Nat.add_mod, row.1.2, addrOfDims_aligned row.2]

/-! ### Looking an offset up -/

theorem regAtIn_sound {rs : List RegName} {off : Nat} {r : RegName} {ix : List Nat} (found : regAtIn rs off = some (r, ix)) :
    off = r.addr ix ∧ indexOk r.desc.dims ix = true := by
  induction rs with
  | nil => cases found
  | cons q rs ih =>
    simp only [regAtIn] at found
    split at found
    · split at found
      next jx here =>
        cases found
        obtain ⟨offset, within⟩ := matchDims_sound here
        exact ⟨by rw [RegName.addr]; omega, within⟩
      next => exact ih found
    · exact ih found

theorem regAtIn_addr {rs : List RegName} {r : RegName} {ix : List Nat} (listed : r ∈ rs)
    (within : indexOk r.desc.dims ix = true) : regAtIn rs (r.addr ix) = some (r, ix) := by
  have wide : nested r.desc.dims = true := by
    have row := List.all_eq_true.mp RegName.nested_dims r r.mem_all
    simp only [Bool.and_eq_true] at row
    exact row.1.1
  have here : matchDims r.desc.dims (r.addr ix - r.desc.base) = some ix := by
    rw [RegName.addr, Nat.add_sub_cancel_left]
    exact matchDims_addrOfDims wide within
  induction rs with
  | nil => cases listed
  | cons q rs ih =>
    by_cases first : q = r
    · subst first
      have above : q.desc.base ≤ q.addr ix := Nat.le_add_right _ _
      simp only [regAtIn, above, if_true, here]
    · have later := ih ((List.mem_cons.mp listed).resolve_left (Ne.symm first))
      simp only [regAtIn]
      split
      next above =>
        split
        next jx other =>
          obtain ⟨offset, inside⟩ := matchDims_sound other
          exact absurd (RegName.addr_injective inside within (by rw [RegName.addr]; omega)) first
        next => exact later
      next => exact later

/-- Settles O28: a register is found at its own offset, and what is found at an offset has that offset. -/
theorem registerMapResolves : Obligations.RegisterMapResolves :=
  ⟨fun r _ within => regAtIn_addr r.mem_all within, fun _ r ix found =>
    have ⟨offset, within⟩ := regAtIn_sound found
    ⟨offset, offset ▸ r.addr_aligned ix, within⟩⟩

end Sys2Proof.Machine
end

section
/-!
PROOFS. One step, and the device when power is first applied (R8, R437, R561).
-/
namespace Sys2Proof.Machine

/-- Settles O51: by the front of the queue. -/
theorem stepTakesTheFront : Obligations.StepTakesTheFront := by
  intro s c r
  refine ⟨fun front => ?_, fun empty => ?_⟩
  · rw [step, front]
  · rw [step, empty]

/-- At reset every register, under any indices, reads as its reset value: nothing is written over it. -/
theorem State.reset_regW (r : RegName) (ix : List Nat) : State.reset.regW r ix = r.resetW := by
  have split : ∀ a b : Word, (a &&& ~~~ b) ||| (a &&& b) = a := by
    intro a b
    ext i
    simp only [BitVec.getElem_or, BitVec.getElem_and, BitVec.getElem_not]
    cases a[i] <;> cases b[i] <;> rfl
  exact split r.resetW (r.mask .sl)

set_option maxRecDepth 20000 in
/-- Settles O54: a register reads as its row's reset value, and every other field is written out in `State.reset`. -/
theorem resetState : Obligations.ResetState := by
  refine ⟨⟨fun e listed ix => ?_, fun n ix unlisted => ?_⟩, rfl, rfl, rfl, rfl, rfl, rfl, rfl, rfl, rfl, rfl, rfl, rfl, rfl, rfl,
    rfl, rfl, Nv.notBelow_refl _⟩
  · rw [State.reset_regW]
    revert e
    decide
  · rw [State.reset_regW]
    revert unlisted
    have listed := n.mem_all
    revert n
    decide

end Sys2Proof.Machine
end

section
/-!
PROOFS. The exact accumulators (R70 to R72, R75). An add puts a fixed amount into the bins whatever they hold, so adds commute,
and the bins' value is their sum. What normalisation leaves is a function of that value, up to a multiple of 2 to the 352: its
digits in base 2 to the 32, the last of 64 bits and signed.
-/
namespace Sys2Proof.Machine

/-! ### Bins -/

@[simp] theorem length_addBin (l : List Int) (j : Nat) (d : Int) : (addBin l j d).length = l.length := by
  induction l generalizing j with
  | nil => rfl
  | cons b r ih => cases j <;> simp [addBin, ih]

@[simp] theorem addBin_zero (l : List Int) (j : Nat) : addBin l j 0 = l := by
  induction l generalizing j with
  | nil => rfl
  | cons b r ih => cases j <;> simp [addBin, ih]

theorem addBin_comm (l : List Int) (j k : Nat) (d e : Int) : addBin (addBin l j d) k e = addBin (addBin l k e) j d := by
  induction l generalizing j k with
  | nil => rfl
  | cons b r ih => cases j <;> cases k <;> simp [addBin, ih, Int.add_right_comm]

theorem binsValue_addBin {l : List Int} {j : Nat} (d : Int) (inside : j < l.length) :
    binsValue (addBin l j d) = binsValue l + d * 2 ^ (32 * j) := by
  induction l generalizing j with
  | nil => cases inside
  | cons b r ih =>
    cases j with
    | zero => rw [addBin, binsValue, binsValue, Nat.mul_zero, Int.pow_zero, Int.mul_one, Int.add_right_comm]
    | succ j =>
      rw [addBin, binsValue, binsValue, ih (Nat.lt_of_succ_lt_succ inside), Nat.mul_succ, Int.pow_add]
      grind

theorem addBins_comm (l r : List Int) : addBins l r = addBins r l := by
  induction l generalizing r with
  | nil => cases r <;> rfl
  | cons x l ih => cases r <;> simp [addBins, ih, Int.add_comm]

@[simp] theorem length_addBins (l r : List Int) : (addBins l r).length = min l.length r.length := by
  induction l generalizing r with
  | nil => simp [addBins]
  | cons x l ih => cases r <;> simp [addBins, ih]

theorem binsValue_addBins {l r : List Int} (same : l.length = r.length) :
    binsValue (addBins l r) = binsValue l + binsValue r := by
  induction l generalizing r with
  | nil => cases r <;> simp_all [addBins, binsValue]
  | cons x l ih =>
    cases r with
    | nil => cases same
    | cons y r =>
      rw [addBins, binsValue, binsValue, binsValue, ih (Nat.succ.inj same)]
      omega

theorem addBins_addBin {l r : List Int} (j : Nat) (d : Int) (same : l.length = r.length) :
    addBins l (addBin r j d) = addBin (addBins l r) j d := by
  induction l generalizing r j with
  | nil => cases r <;> rfl
  | cons x l ih =>
    cases r with
    | nil => cases same
    | cons y r => cases j <;> simp [addBin, addBins, ih _ (Nat.succ.inj same), Int.add_assoc]

theorem addBins_zeros (l : List Int) : addBins l (List.replicate l.length 0) = l := by
  induction l with
  | nil => rfl
  | cons x l ih => simp [List.replicate_succ, addBins, ih]

/-! ### Adds -/

/-- What an add of a value puts into two bins: the first of them, and the amount for each (R71). -/
def FVal.shares : FVal → Nat × Int × Int
  | .fin s m e =>
    let p := m * 2 ^ ((e + 160).toNat % 32)
    ((e + 160).toNat / 32, (if s then -1 else 1) * ((p % 2 ^ 32 : Nat) : Int), (if s then -1 else 1) * ((p / 2 ^ 32 : Nat) : Int))
  | _ => (0, 0, 0)

/-- The bins after an add. -/
def FVal.into (v : FVal) (bins : List Int) : List Int :=
  addBin (addBin bins v.shares.1 v.shares.2.1) (v.shares.1 + 1) v.shares.2.2

/-- An add touches the bins by its shares, the flag of its kind, and the two counts. -/
theorem XAcc.add_eq (a : XAcc) (v : FVal) :
    a.add v = ⟨v.into a.bins, a.nan || decide (v = .nan), a.pinf || decide (v = .inf false), a.ninf || decide (v = .inf true),
      a.count + 1, a.sinceNorm + 1⟩ := by
  cases v with
  | nan => simp [XAcc.add, FVal.into, FVal.shares]
  | inf neg => cases neg <;> simp [XAcc.add, FVal.into, FVal.shares]
  | fin neg m e =>
    by_cases zero : m = 0
    · simp [XAcc.add, FVal.into, FVal.shares, zero]
    · cases neg <;> simp [XAcc.add, FVal.into, FVal.shares, zero, XAcc.addScaled]

@[simp] theorem FVal.length_into (v : FVal) (bins : List Int) : (v.into bins).length = bins.length := by
  simp [FVal.into]

theorem FVal.into_comm (v w : FVal) (bins : List Int) : v.into (w.into bins) = w.into (v.into bins) := by
  simp only [FVal.into]
  rw [addBin_comm (addBin bins _ _) _ v.shares.1, addBin_comm bins _ v.shares.1,
    addBin_comm (addBin (addBin _ _ _) _ _) _ (v.shares.1 + 1), addBin_comm (addBin _ _ _) _ (v.shares.1 + 1)]

theorem XAcc.add_right_comm (a : XAcc) (v w : FVal) : (a.add v).add w = (a.add w).add v := by
  simp only [XAcc.add_eq, FVal.into_comm w v, Bool.or_right_comm]

/-- The exact value of a number, times 2 to the 160; a NaN or an infinity is in a flag and adds nothing to the bins. -/
def FVal.scaled : FVal → Int
  | .fin n m e => (if n then -1 else 1) * ((m * 2 ^ (e + 160).toNat : Nat) : Int)
  | _ => 0

/-- A value lies within the bins (R70). -/
def FVal.fits : FVal → Prop
  | .fin _ m e => m < 2 ^ 32 ∧ -160 ≤ e ∧ e ≤ 104
  | _ => True

theorem FVal.binsValue_into {v : FVal} {bins : List Int} (ten : bins.length = 10) (fits : v.fits) :
    binsValue (v.into bins) = binsValue bins + v.scaled := by
  cases v with
  | nan => simp [FVal.into, FVal.shares, FVal.scaled]
  | inf neg => simp [FVal.into, FVal.shares, FVal.scaled]
  | fin neg m e =>
    obtain ⟨_, low, high⟩ := fits
    generalize ht : (e + 160).toNat = t
    have first : t / 32 < 10 := by omega
    have second : t / 32 + 1 < 10 := by omega
    have whole : t = 32 * (t / 32) + t % 32 := by omega
    have parts := Nat.mod_add_div (m * 2 ^ (t % 32)) (2 ^ 32)
    rw [FVal.into, binsValue_addBin _ (by simpa [ten, FVal.shares, ht] using second),
      binsValue_addBin _ (by simpa [ten, FVal.shares, ht] using first)]
    simp only [FVal.shares, FVal.scaled, ht]
    generalize m * 2 ^ (t % 32) % 2 ^ 32 = lo at parts
    generalize m * 2 ^ (t % 32) / 2 ^ 32 = hi at parts
    have amount : ((m * 2 ^ t : Nat) : Int) = (lo + 2 ^ 32 * hi) * 2 ^ (32 * (t / 32)) := by
      rw [whole, Nat.pow_add, Nat.mul_comm (2 ^ _), ← Nat.mul_assoc, ← whole, ← parts, Int.natCast_mul, Int.natCast_add,
        Int.natCast_mul, Int.natCast_pow, Int.natCast_pow]
      rfl
    rw [amount, Nat.mul_succ, Int.pow_add]
    grind

@[simp] theorem XAcc.length_add (a : XAcc) (v : FVal) : (a.add v).bins.length = a.bins.length := by
  simp [XAcc.add_eq]

@[simp] theorem XAcc.length_foldl_add (a : XAcc) (l : List FVal) : (l.foldl XAcc.add a).bins.length = a.bins.length := by
  induction l generalizing a with
  | nil => rfl
  | cons v l ih => rw [List.foldl_cons, ih, XAcc.length_add]

@[simp] theorem XAcc.count_add (a : XAcc) (v : FVal) : (a.add v).count = a.count + 1 := by
  rw [XAcc.add_eq]

@[simp] theorem XAcc.bins_add (a : XAcc) (v : FVal) : (a.add v).bins = v.into a.bins := by
  rw [XAcc.add_eq]

theorem XAcc.binsValue_foldl_add {a : XAcc} {l : List FVal} (ten : a.bins.length = 10) (fits : ∀ v ∈ l, v.fits) :
    binsValue (l.foldl XAcc.add a).bins = binsValue a.bins + (l.map FVal.scaled).sum ∧
      (l.foldl XAcc.add a).count = a.count + l.length := by
  induction l generalizing a with
  | nil => simp
  | cons v l ih =>
    obtain ⟨first, rest⟩ := List.forall_mem_cons.mp fits
    obtain ⟨value, count⟩ := ih ((a.length_add v).trans ten) rest
    rw [List.foldl_cons, value, count, List.map_cons, List.sum_cons, List.length_cons, XAcc.bins_add, XAcc.count_add,
      FVal.binsValue_into ten first]
    exact ⟨Int.add_assoc .., by omega⟩

/-! ### Normalisation (R72) -/

/-- The number that 64 bits hold of a number, signed. -/
def wrap64 (v : Int) : Int := toSigned 64 (ofSigned 64 v)

theorem wrap64_emod (v : Int) : wrap64 v % 2 ^ 64 = v % 2 ^ 64 := by
  rw [wrap64, toSigned, ofSigned]
  split <;> omega

theorem wrap64_congr {v w : Int} (same : v % 2 ^ 64 = w % 2 ^ 64) : wrap64 v = wrap64 w := by
  have same : v % ((2 ^ 64 : Nat) : Int) = w % ((2 ^ 64 : Nat) : Int) := same
  rw [wrap64, wrap64, ofSigned, ofSigned, same]

theorem wrap64_of_held {v : Int} (low : -(2 ^ 63) ≤ v) (high : v < 2 ^ 63) : wrap64 v = v := by
  rw [wrap64, toSigned, ofSigned]
  split <;> omega

/-- The digits of a number in base 2 to the 32, the last of them with what is left, in 64 signed bits. -/
def digitBins : Nat → Int → List Int
  | 0, _ => []
  | 1, v => [wrap64 v]
  | n + 2, v => v % 2 ^ 32 :: digitBins (n + 1) (v / 2 ^ 32)

/-- What the carries leave is decided by the value of the bins. -/
theorem normBins_eq_digitBins (c : Int) (l : List Int) : normBins c l = digitBins l.length (binsValue l + c) := by
  induction l generalizing c with
  | nil => rfl
  | cons b r ih =>
    cases r with
    | nil => simp [normBins, digitBins, binsValue, wrap64]
    | cons d r =>
      have digit : (binsValue (b :: d :: r) + c) % 2 ^ 32 = (b + c) % 2 ^ 32 := by
        rw [binsValue, Int.add_right_comm,
          Int.add_mul_emod_self_left]
      have carry : (binsValue (b :: d :: r) + c) / 2 ^ 32 = binsValue (d :: r) + (b + c) / 2 ^ 32 := by
        rw [binsValue, Int.add_right_comm,
          Int.add_mul_ediv_left _ _ (by decide), Int.add_comm]
      have step : digitBins (b :: d :: r).length (binsValue (b :: d :: r) + c) =
          (binsValue (b :: d :: r) + c) % 2 ^ 32 :: digitBins (d :: r).length ((binsValue (b :: d :: r) + c) / 2 ^ 32) := rfl
      rw [step, digit, carry, ← ih]
      rfl

theorem XAcc.normalise_bins (a : XAcc) : a.normalise.bins = digitBins a.bins.length (binsValue a.bins) := by
  rw [XAcc.normalise, normBins_eq_digitBins, Int.add_zero]

@[simp] theorem length_digitBins (n : Nat) (v : Int) : (digitBins n v).length = n := by
  induction n generalizing v with
  | zero => rfl
  | succ n ih =>
    cases n with
    | zero => rfl
    | succ n => rw [digitBins, List.length_cons, ih]

/-- A remainder by a product, digit by digit. -/
theorem emod_mul_eq (v : Int) {a b : Int} (ha : 0 < a) (hb : 0 < b) : v % (a * b) = v % a + a * (v / a % b) := by
  have low := Int.emod_nonneg v (Int.ne_of_gt ha)
  have lowBelow := Int.emod_lt_of_pos v ha
  have high := Int.emod_nonneg (v / a) (Int.ne_of_gt hb)
  have highBelow := Int.emod_lt_of_pos (v / a) hb
  have whole : v = (v % a + a * (v / a % b)) + a * b * (v / a / b) := by
    have outer := Int.emod_add_mul_ediv v a
    have inner := Int.emod_add_mul_ediv (v / a) b
    grind
  have below : v % a + a * (v / a % b) < a * b := by
    have next := Int.mul_le_mul_of_nonneg_left (show v / a % b + 1 ≤ b from highBelow) (Int.le_of_lt ha)
    rw [Int.mul_add, Int.mul_one] at next
    omega
  calc v % (a * b) = ((v % a + a * (v / a % b)) + a * b * (v / a / b)) % (a * b) := congrArg (· % (a * b)) whole
    _ = (v % a + a * (v / a % b)) % (a * b) := Int.add_mul_emod_self_left ..
    _ = _ := Int.emod_eq_of_lt (Int.add_nonneg low (Int.mul_nonneg (Int.le_of_lt ha) high)) below

/-- Ten bins hold a number up to a multiple of 2 to the 352; so do one fewer up to one 2 to the 32 smaller, down to the last. -/
theorem binsValue_digitBins_emod (n : Nat) (v : Int) :
    binsValue (digitBins (n + 1) v) % 2 ^ (32 * n + 64) = v % 2 ^ (32 * n + 64) := by
  induction n generalizing v with
  | zero => simpa [digitBins, binsValue] using wrap64_emod v
  | succ n ih =>
    have radix : (0 : Int) < 2 ^ 32 := by decide
    have low := Int.emod_nonneg v (Int.ne_of_gt radix)
    have below := Int.emod_lt_of_pos v radix
    rw [digitBins, binsValue, show 32 * (n + 1) + 64 = 32 + (32 * n + 64) by omega, Int.pow_add,
      emod_mul_eq _ radix (Int.pow_pos (by decide)), emod_mul_eq v radix (Int.pow_pos (by decide)), Int.add_mul_emod_self_left,
      Int.emod_eq_of_lt low below, Int.add_mul_ediv_left _ _ (Int.ne_of_gt radix), Int.ediv_eq_zero_of_lt low below, Int.zero_add, ih]

theorem digitBins_congr {n : Nat} {v w : Int} (same : v % 2 ^ (32 * n + 64) = w % 2 ^ (32 * n + 64)) :
    digitBins (n + 1) v = digitBins (n + 1) w := by
  induction n generalizing v w with
  | zero => rw [digitBins, digitBins, wrap64_congr same]
  | succ n ih =>
    rw [show 32 * (n + 1) + 64 = 32 + (32 * n + 64) by omega, Int.pow_add, emod_mul_eq _ (by decide) (Int.pow_pos (by decide)),
      emod_mul_eq w (by decide) (Int.pow_pos (by decide))] at same
    have digits := Int.emod_nonneg v (show (2 : Int) ^ 32 ≠ 0 by decide)
    have digits' := Int.emod_nonneg w (show (2 : Int) ^ 32 ≠ 0 by decide)
    have below := Int.emod_lt_of_pos v (show (0 : Int) < 2 ^ 32 by decide)
    have below' := Int.emod_lt_of_pos w (show (0 : Int) < 2 ^ 32 by decide)
    rw [digitBins, digitBins, ih (v := v / 2 ^ 32) (w := w / 2 ^ 32) (by omega),
      show v % 2 ^ 32 = w % 2 ^ 32 by omega]

theorem binsValue_digitBins_of_held (n : Nat) {v : Int} (low : -(2 ^ (32 * n + 63)) ≤ v) (high : v < 2 ^ (32 * n + 63)) :
    binsValue (digitBins (n + 1) v) = v := by
  induction n generalizing v with
  | zero => simpa [digitBins, binsValue] using wrap64_of_held (by simpa using low) (by simpa using high)
  | succ n ih =>
    rw [show 32 * (n + 1) + 63 = 32 + (32 * n + 63) by omega, Int.pow_add] at low high
    rw [digitBins, binsValue, ih (by omega) (by omega), Int.emod_add_mul_ediv]

theorem digitBins_take_range (n : Nat) (v : Int) : ∀ b ∈ (digitBins (n + 1) v).take n, 0 ≤ b ∧ b < 2 ^ 32 := by
  induction n generalizing v with
  | zero => simp
  | succ n ih =>
    rw [digitBins, List.take_succ_cons, List.forall_mem_cons]
    exact ⟨⟨Int.emod_nonneg _ (by decide), Int.emod_lt_of_pos _ (by decide)⟩, ih _⟩

/-! ### Merging (R75) -/

/-- Two accumulators added up, as one that has taken the adds of both. -/
def XAcc.sum (a b : XAcc) : XAcc :=
  ⟨addBins a.bins b.bins, a.nan || b.nan, a.pinf || b.pinf, a.ninf || b.ninf, a.count + b.count, a.sinceNorm + b.sinceNorm⟩

theorem XAcc.merge_eq (a b : XAcc) : a.merge b = (a.sum b).normalise := rfl

theorem XAcc.sum_add {a b : XAcc} (v : FVal) (same : a.bins.length = b.bins.length) : a.sum (b.add v) = (a.sum b).add v := by
  have bins : addBins a.bins (v.into b.bins) = v.into (addBins a.bins b.bins) := by
    rw [FVal.into, addBins_addBin _ _ (by simpa using same), addBins_addBin _ _ same, FVal.into]
  simp only [XAcc.add_eq, XAcc.sum, bins, Bool.or_assoc, Nat.add_assoc]

theorem XAcc.sum_foldl_add {a b : XAcc} (l : List FVal) (same : a.bins.length = b.bins.length) :
    a.sum (l.foldl XAcc.add b) = l.foldl XAcc.add (a.sum b) := by
  induction l generalizing b with
  | nil => rfl
  | cons v l ih => rw [List.foldl_cons, List.foldl_cons, ih (by simpa using same), XAcc.sum_add v same]

theorem XAcc.sum_clear {a : XAcc} (ten : a.bins.length = 10) : a.sum XAcc.clear = a := by
  have bins : addBins a.bins XAcc.clear.bins = a.bins := by
    have zeros := addBins_zeros a.bins
    rwa [ten] at zeros
  obtain ⟨_, _, _, _, _, _⟩ := a
  simp only [XAcc.sum, bins]
  simp [XAcc.clear]

theorem XAcc.merge_comm (a b : XAcc) : a.merge b = b.merge a := by
  rw [XAcc.merge, XAcc.merge, addBins_comm a.bins, Bool.or_comm a.nan, Bool.or_comm a.pinf, Bool.or_comm a.ninf,
    Nat.add_comm a.count]

theorem XAcc.merge_bins {a b : XAcc} (ten : a.bins.length = 10) (ten' : b.bins.length = 10) :
    (a.merge b).bins = digitBins 10 (binsValue a.bins + binsValue b.bins) := by
  rw [XAcc.merge_eq, XAcc.normalise_bins, XAcc.sum, length_addBins, binsValue_addBins (ten.trans ten'.symm), ten, ten']
  rfl

theorem XAcc.merge_assoc {a b c : XAcc} (ha : a.bins.length = 10) (hb : b.bins.length = 10) (hc : c.bins.length = 10) :
    (a.merge b).merge c = a.merge (b.merge c) := by
  have left := XAcc.merge_bins ha hb
  have right := XAcc.merge_bins hb hc
  have bins : ((a.merge b).merge c).bins = (a.merge (b.merge c)).bins := by
    have leftTen : (a.merge b).bins.length = 10 := by rw [left, length_digitBins]
    have rightTen : (b.merge c).bins.length = 10 := by rw [right, length_digitBins]
    rw [XAcc.merge_bins leftTen hc, XAcc.merge_bins ha rightTen, left, right]
    refine digitBins_congr (n := 9) ?_
    rw [Int.add_emod, binsValue_digitBins_emod, ← Int.add_emod, Int.add_emod (binsValue a.bins),
      binsValue_digitBins_emod, ← Int.add_emod, Int.add_assoc]
  show (⟨((a.merge b).merge c).bins, (a.nan || b.nan) || c.nan, (a.pinf || b.pinf) || c.pinf, (a.ninf || b.ninf) || c.ninf,
      a.count + b.count + c.count, 0⟩ : XAcc) = ⟨(a.merge (b.merge c)).bins, a.nan || (b.nan || c.nan),
      a.pinf || (b.pinf || c.pinf), a.ninf || (b.ninf || c.ninf), a.count + (b.count + c.count), 0⟩
  rw [bins, Bool.or_assoc, Bool.or_assoc, Bool.or_assoc, Nat.add_assoc]

/-- Settles O56: adds commute and add their shares; normalisation and merging are read off the digits of the bins' value. -/
theorem exactSumsAreExact : Obligations.ExactSumsAreExact := by
  refine ⟨fun a l r perm => ?order, fun a l ten fits => ?sums, fun a ten => ⟨fun held => ?keeps, ?ranges⟩,
    fun a b c ha hb hc => ⟨fun held => ?merged, a.merge_comm b, XAcc.merge_assoc ha hb hc⟩, fun l r => ?whole⟩
  case order =>
    exact perm.foldl_eq' (fun v _ w _ b => XAcc.add_right_comm b v w) a
  case sums =>
    rw [List.map_congr_left (g := FVal.scaled) fun v _ => by cases v <;> rfl]
    exact XAcc.binsValue_foldl_add ten fun v listed => by
      have within := fits v listed
      cases v <;> exact within
  case keeps =>
    rw [XAcc.normalise_bins, ten]
    exact binsValue_digitBins_of_held 9 held.1 held.2
  case ranges =>
    rw [XAcc.normalise_bins, ten]
    exact digitBins_take_range 9 _
  case merged =>
    rw [XAcc.merge_bins ha hb]
    exact binsValue_digitBins_of_held 9 held.1 held.2
  case whole =>
    have ten : ∀ k : List FVal, (k.foldl XAcc.add XAcc.clear).bins.length = 10 := fun k => by rw [XAcc.length_foldl_add]; rfl
    rw [XAcc.merge_eq, XAcc.sum_foldl_add r (ten l), XAcc.sum_clear (ten l), List.foldl_append]

end Sys2Proof.Machine
end

section
/-!
PROOFS. The scalar and control instructions (R94, R97, R103, R110, R111).
-/
namespace Sys2Proof.Machine

/-! ### What an instruction does, by what its body gives -/

section Does
variable {s : State} {slot c : Nat} {x : Ctx} {opc : Nat} {i : Nat → MWord → Instr} {w : MWord} {h : Shape} {own gated : Bool}
  {u : IssueSlot}

/-- An instruction with an effect beyond its own context does what its body says. -/
theorem does_of_issueWith {t : State} {body : Nat → Ctx → State}
    (command : exec (i slot w) s = .next (s.issueWith slot w h own gated body)) (code : h.opc = opc)
    (listed : opcodes.contains opc = true) (wellFormed : (h.ok w && own) = true)
    (enabled : gated = true → x.enabled w 0 = true) (result : body c x = t) : Does s slot c x opc i w t := by
  subst code
  intro runs
  rw [command, State.issueWith_runs body runs listed wellFormed enabled, result]

/-- An instruction whose body names the next PC goes there. -/
theorem does_of_issue_jump {y : Ctx} {body : Ctx → IRes}
    (command : exec (i slot w) s = .next (s.issue slot w h own gated body)) (code : h.opc = opc)
    (listed : opcodes.contains opc = true) (unit : IssueSlot.of opc = u) (wellFormed : (h.ok w && own) = true)
    (enabled : gated = true → x.enabled w 0 = true) (result : body x = .jump y) :
    Does s slot c x opc i w ((s.setCtx c { y with issued := true, wait := .none }).noteIssue slot u) := by
  subst code unit
  intro runs
  rw [command, State.issue_jump body y runs listed wellFormed enabled result]

/-- An instruction whose body raises an exception raises it. -/
theorem does_of_issue_exc {e : Exc} {body : Ctx → IRes}
    (command : exec (i slot w) s = .next (s.issue slot w h own gated body)) (code : h.opc = opc)
    (listed : opcodes.contains opc = true) (unit : IssueSlot.of opc = u) (wellFormed : (h.ok w && own) = true)
    (enabled : gated = true → x.enabled w 0 = true) (result : body x = .exc e) :
    Does s slot c x opc i w (s.except slot c x e u) := by
  subst code unit
  intro runs
  rw [command, State.issue_exc body e runs listed wellFormed enabled result]

/-- A word that breaks a rule of its instruction raises ILLEGAL, whatever the predicate (R90, R97). -/
theorem does_of_issue_illegal {body : Ctx → IRes}
    (command : exec (i slot w) s = .next (s.issue slot w h own gated body)) (code : h.opc = opc)
    (listed : opcodes.contains opc = true) (unit : IssueSlot.of opc = u) (illFormed : (h.ok w && own) = false) :
    Does s slot c x opc i w (s.except slot c x .illegal u) := by
  subst code unit
  intro runs
  rw [command, State.issue, State.issueWith_illegal _ runs listed illFormed]

end Does

/-! ### The scalar instructions (R110) -/

section Scalar
variable (s : State) (slot c : Nat) {x : Ctx} {pn : Bool} {pr : BitVec 3} (enabled : x.enabled (MWord.gate pn pr) 0 = true)
include enabled

theorem scalar2_does {opc : Nat} {i : Nat → MWord → Instr} (f : Word → Word → Word)
    (command : ∀ w, exec (i slot w) s = .next (s.scalar2 slot w opc f)) (listed : opcodes.contains opc = true)
    (unit : IssueSlot.of opc = .memory) (d a b : BitVec 5) :
    Does s slot c x opc i { MWord.gate pn pr with dst := d, sa := a, sb := b }
      (s.retire slot c (x.setS d (f (x.getS a) (x.getS b))) .memory) :=
  does_of_issue (command _) rfl listed unit (by simp [Shape.ok, MWord.gate]) (fun _ => enabled) rfl

/-- SSHF by a register: MOD[3] is 0, and IMM is not used. -/
theorem sshf_register_does {md : BitVec 4} (select : md ∈ [0, 1, 2]) (d a b : BitVec 5) :
    Does s slot c x 0x08 .sshf { MWord.gate pn pr with md := md, dst := d, sa := a, sb := b }
      (s.retire slot c (x.setS d (shiftBy (md.toNat % 4) (x.getS a) ((x.getS b).toNat % 64))) .memory) := by
  have register : ∀ m ∈ ([0, 1, 2] : List (BitVec 4)), bitAt 3 m.toNat = false ∧ m.toNat % 4 ≠ 3 ∧ m.toNat &&& 4 = 0 := by
    decide
  obtain ⟨bit, selects, mask⟩ := register md select
  refine does_of_issue rfl rfl (by decide) rfl ?_ (fun _ => enabled) ?_
  · simp [Shape.ok, MWord.gate, MWord.modBit, bit, selects, mask]
  · simp only [MWord.modBit, bit, Bool.false_eq_true, if_false]

/-- SSHF by IMM[5:0]: MOD[3] is 1, and SB is not used. -/
theorem sshf_immediate_does {md : BitVec 4} (select : md ∈ [8, 9, 10]) {k : BitVec 64} (small : k.toNat < 64) (d a : BitVec 5) :
    Does s slot c x 0x08 .sshf { MWord.gate pn pr with md := md, dst := d, sa := a, imm := k }
      (s.retire slot c (x.setS d (shiftBy (md.toNat % 4) (x.getS a) k.toNat)) .memory) := by
  have immediate : ∀ m ∈ ([8, 9, 10] : List (BitVec 4)), bitAt 3 m.toNat = true ∧ m.toNat % 4 ≠ 3 ∧ m.toNat &&& 4 = 0 := by
    decide
  obtain ⟨bit, selects, mask⟩ := immediate md select
  have above := and_above_mask k.toNat 6 small (by decide)
  refine does_of_issue rfl rfl (by decide) rfl ?_ (fun _ => enabled) ?_
  · simpa [Shape.ok, MWord.gate, MWord.modBit, bit, selects, mask] using above
  · simp only [MWord.modBit, bit, if_true, MWord.immBits, bitsOf, Nat.pow_zero, Nat.div_one,
      Nat.mod_eq_of_lt (show k.toNat < 2 ^ (5 + 1 - 0) from small)]

/-- SCMP by the condition its MOD selects. -/
theorem scmp_does {md : BitVec 4} {cond : Bool} (a b : BitVec 5) (q : BitVec 3)
    (listed : (scalarCond md.toNat 0 0).isSome = true) (holds : scalarCond md.toNat (x.getS a) (x.getS b) = some cond) :
    Does s slot c x 0x0A .scmp { MWord.gate pn pr with sa := a, sb := b, md := md, aux := q.setWidth 8 }
      (s.retire slot c (x.setP q (pAll cond)) .memory) := by
  refine does_of_issue rfl rfl (by decide) rfl ?_ (fun _ => enabled) ?_
  · have mask := predAux_and_mask q
    simp only [Shape.ok, MWord.gate, listed, mask]
    simp
  · simp only [preg_setWidth q (k := 8) (by decide), holds, Option.getD_some]

end Scalar

/-- Settles O1: two registers and an immediate by their bodies; a shift by its selector; a comparison by its code. -/
theorem scalarInstructions : Obligations.ScalarInstructions := by
  intro s slot c x pn pr q d a b imm k enabled
  refine ⟨⟨?_, ?_, ?_, ?_, ?_, ?_, ?_, ?_, ?_⟩, ⟨?_, ?_, ?_⟩, fun small => ⟨?_, ?_, ?_⟩, ?_, x.setP_zero _⟩
  · exact does_of_issue rfl rfl (by decide) rfl (by simp [Shape.ok, MWord.gate]) (fun _ => enabled) rfl
  · exact scalar2_does s slot c enabled (fun u v => u + v) (fun _ => rfl) (by decide) rfl d a b
  · exact does_of_issue rfl rfl (by decide) rfl (by simp [Shape.ok, MWord.gate]) (fun _ => enabled) rfl
  · exact scalar2_does s slot c enabled (fun u v => u - v) (fun _ => rfl) (by decide) rfl d a b
  · exact scalar2_does s slot c enabled (fun u v => u * v) (fun _ => rfl) (by decide) rfl d a b
  · exact scalar2_does s slot c enabled (fun u v => u &&& v) (fun _ => rfl) (by decide) rfl d a b
  · exact scalar2_does s slot c enabled (fun u v => u ||| v) (fun _ => rfl) (by decide) rfl d a b
  · exact scalar2_does s slot c enabled (fun u v => u ^^^ v) (fun _ => rfl) (by decide) rfl d a b
  · exact does_of_issue rfl rfl (by decide) rfl (by simp [Shape.ok, MWord.gate]) (fun _ => enabled) rfl
  · exact sshf_register_does s slot c enabled (by decide) d a b
  · exact sshf_register_does s slot c enabled (by decide) d a b
  · exact sshf_register_does s slot c enabled (by decide) d a b
  · exact sshf_immediate_does s slot c enabled (by decide) small d a
  · exact sshf_immediate_does s slot c enabled (by decide) small d a
  · exact sshf_immediate_does s slot c enabled (by decide) small d a
  · have compare := fun {md : BitVec 4} {cond : Bool} => scmp_does s slot c enabled (md := md) (cond := cond) a b q
    simp only [List.forall_mem_cons]
    refine ⟨compare rfl ?_, compare rfl ?_, compare rfl ?_, compare rfl ?_, compare rfl ?_, compare rfl ?_, compare rfl ?_,
      compare rfl ?_, compare rfl ?_, compare rfl ?_, List.forall_mem_nil _⟩
    all_goals rfl

/-! ### Branch and halt (R110, R111) -/

theorem toSigned_eq_toInt_setWidth (k : BitVec 64) : toSigned 32 (bitsOf 31 0 k.toNat) = (k.setWidth 32).toInt := by
  have low : (k.setWidth 32).toNat = k.toNat % 2 ^ 32 := BitVec.toNat_setWidth ..
  rw [toSigned, bitsOf, BitVec.toInt_eq_toNat_cond, low]
  simp only [Nat.pow_zero, Nat.div_one]
  split <;> split <;> omega

/-! ### Stream descriptors (R103) -/

/-- The descriptor named in AUX (R127). -/
@[simp] theorem MWord.desc_of_aux (i : BitVec 4) (fmt md : BitVec 4) (pn : Bool) (pr : BitVec 3) (d a b e : BitVec 5)
    (rsv : BitVec 16) (imm : Word) : MWord.desc ⟨fmt, md, pn, pr, d, a, b, e, i.setWidth 8, rsv, imm⟩ = i := by
  rw [MWord.desc, MWord.auxBits, bitsOf, BitVec.toNat_setWidth, Nat.pow_zero, Nat.div_one]
  have below := i.isLt
  apply BitVec.eq_of_toNat_eq
  rw [BitVec.toNat_ofNat]
  omega

theorem descAux_and_mask (i : BitVec 4) : (i.setWidth 8).toNat &&& (255 ^^^ 15) = 0 := by
  refine and_above_mask8 _ 4 ?_ (by decide)
  rw [BitVec.toNat_setWidth]
  omega

section Control
variable (s : State) (slot c : Nat) {x : Ctx} {pn : Bool} {pr : BitVec 3} (enabled : x.enabled (MWord.gate pn pr) 0 = true)
include enabled

theorem br_does {k : BitVec 64} (small : k.toNat < 2 ^ 32) :
    Does s slot c x 0x0B .br { MWord.gate pn pr with imm := k }
      ((s.setCtx c { x with
        pc := (((x.pc : Int) + 16 * (k.setWidth 32).toInt) % 2 ^ 64).toNat
        issued := true
        wait := .none }).noteIssue slot .memory) := by
  have above := and_above_mask k.toNat 32 small (by decide)
  let y : Ctx := { x with pc := (((x.pc : Int) + 16 * (k.setWidth 32).toInt) % 2 ^ 64).toNat }
  show Does s slot c x 0x0B .br _ ((s.setCtx c { y with issued := true, wait := .none }).noteIssue slot .memory)
  refine does_of_issue_jump rfl rfl (by decide) rfl ?_ (fun _ => enabled) ?_
  · simpa [Shape.ok, MWord.gate] using above
  · simp only [MWord.immBits, toSigned_eq_toInt_setWidth, y]

theorem halt_does (still : x.comets = []) :
    Does s slot c x 0x0C .halt (MWord.gate pn pr)
      ((((s.setCtx c { x with running := false, issued := true, wait := .none }).endRun c x.qp
        (some ((x.getSN 1).toNat, (x.getSN 2).toNat))).noteIssue slot .memory).finishCloses c) := by
  refine does_of_issueWith rfl rfl (by decide) (by simp [Shape.ok, MWord.gate]) (fun _ => enabled) ?_
  simp only [still, List.isEmpty_nil, Bool.not_true, Bool.false_eq_true, if_false]

theorem sdset_does (a b e : BitVec 5) (i : BitVec 4) (w3 : Word) (form : Desc.formOk ⟨x.getS a, x.getS b, x.getS e, w3⟩ = true) :
    Does s slot c x 0x0D .sdset { MWord.gate pn pr with sa := a, sb := b, sc := e, aux := i.setWidth 8, imm := w3 }
      (s.retire slot c (x.setD i ⟨x.getS a, x.getS b, x.getS e, w3⟩) .memory) := by
  have mask := descAux_and_mask i
  have form3 : w3FormOk w3 = true := by
    simp only [Desc.formOk, Bool.and_eq_true] at form
    exact form.2
  refine does_of_issue rfl rfl (by decide) rfl ?_ (fun _ => enabled) ?_
  · simp only [Shape.ok, MWord.gate, form3, mask]
    simp
  · simp only [MWord.desc_of_aux]
    rw [if_pos form]

/-- A descriptor of another form is refused: by the word alone where its W3 is at fault, else by the registers. -/
theorem sdset_illegal_does (a b e : BitVec 5) (i : BitVec 4) (w3 : Word)
    (form : Desc.formOk ⟨x.getS a, x.getS b, x.getS e, w3⟩ = false) :
    Does s slot c x 0x0D .sdset { MWord.gate pn pr with sa := a, sb := b, sc := e, aux := i.setWidth 8, imm := w3 }
      (s.except slot c x .illegal .memory) := by
  have mask := descAux_and_mask i
  by_cases form3 : w3FormOk w3 = true
  · refine does_of_issue_exc rfl rfl (by decide) rfl ?_ (fun _ => enabled) ?_
    · simp only [Shape.ok, MWord.gate, form3, mask]
      simp
    · exact if_neg (by rw [form]; decide)
  · refine does_of_issue_illegal rfl rfl (by decide) rfl ?_
    simp only [Bool.not_eq_true] at form3
    simp only [form3, Bool.and_false]

theorem sdget_does {word : BitVec 64} (names : word.toNat < 4) (d : BitVec 5) (i : BitVec 4) :
    Does s slot c x 0x0E .sdget { MWord.gate pn pr with dst := d, aux := i.setWidth 8, imm := word }
      (s.retire slot c (x.setS d (match word.toNat with
        | 0 => (x.getD i).w0 | 1 => (x.getD i).w1 | 2 => (x.getD i).w2 | _ => (x.getD i).w3)) .memory) := by
  have mask := descAux_and_mask i
  have above := and_above_mask word.toNat 2 names (by decide)
  refine does_of_issue rfl rfl (by decide) rfl ?_ (fun _ => enabled) ?_
  · simp only [Shape.ok, MWord.gate, mask]
    simpa using above
  · simp only [MWord.desc_of_aux, MWord.immBits, bitsOf, Nat.pow_zero, Nat.div_one,
      Nat.mod_eq_of_lt (show word.toNat < 2 ^ (1 + 1 - 0) from names)] <;> rfl

end Control

/-- Settles O2: a branch and a halt by their bodies, a descriptor by its form and by its words. -/
theorem controlAndStreamDescriptors : Obligations.ControlAndStreamDescriptors := by
  refine ⟨fun s slot c x pn pr k enabled => ⟨br_does s slot c enabled, halt_does s slot c enabled⟩,
    fun s slot c x pn pr d a b e i w3 enabled =>
      ⟨sdset_does s slot c enabled a b e i w3, sdset_illegal_does s slot c enabled a b e i w3, ?_⟩⟩
  have get := fun (word : BitVec 64) (names : word.toNat < 4) => sdget_does s slot c enabled names d i
  simp only [List.forall_mem_cons]
  exact ⟨get 0 (by decide), get 1 (by decide), get 2 (by decide), get 3 (by decide), List.forall_mem_nil _⟩

end Sys2Proof.Machine
end

section
/-!
PROOFS. The vector instructions (R92, R98, R112, R113, R115, R126).
-/
namespace Sys2Proof.Machine

/-! ### Elements of a register (R92) -/

theorem vecBuild_lt (f : Fmt) (n : Nat) (g : Nat → Nat) : vecBuild f n g < 2 ^ (f.width * n) := by
  induction n with
  | zero => simp [vecBuild]
  | succ n ih =>
    have digit := Nat.mod_lt (g n) (Nat.two_pow_pos f.width)
    rw [vecBuild, Nat.mul_succ, Nat.pow_add]
    calc vecBuild f n g + g n % 2 ^ f.width * 2 ^ (f.width * n)
        < (g n % 2 ^ f.width + 1) * 2 ^ (f.width * n) := by rw [Nat.succ_mul, Nat.add_comm]; exact Nat.add_lt_add_left ih _
      _ ≤ 2 ^ f.width * 2 ^ (f.width * n) := Nat.mul_le_mul_right _ digit
      _ = _ := Nat.mul_comm ..

theorem vecBuild_digit (f : Fmt) {n k : Nat} (g : Nat → Nat) (inside : k < n) :
    vecBuild f n g / 2 ^ (f.width * k) % 2 ^ f.width = g k % 2 ^ f.width := by
  induction n with
  | zero => cases inside
  | succ n ih =>
    rw [vecBuild]
    obtain less | rfl := Nat.lt_succ_iff_lt_or_eq.mp inside
    · have higher : g n % 2 ^ f.width * 2 ^ (f.width * n) =
          g n % 2 ^ f.width * 2 ^ (f.width * (n - k - 1)) * 2 ^ f.width * 2 ^ (f.width * k) := by
        rw [Nat.mul_assoc, Nat.mul_assoc, ← Nat.pow_add, ← Nat.pow_add]
        have place : f.width * n = f.width * (n - k - 1) + (f.width + f.width * k) :=
          calc f.width * n = f.width * (n - k - 1 + (1 + k)) := congrArg (f.width * ·) (by omega)
            _ = _ := by rw [Nat.mul_add, Nat.mul_add, Nat.mul_one]
        rw [place]
      rw [higher, Nat.add_mul_div_right _ _ (Nat.two_pow_pos _), Nat.add_mul_mod_self_right, ih less]
    · rw [Nat.add_mul_div_right _ _ (Nat.two_pow_pos _), Nat.div_eq_of_lt (vecBuild_lt f k g), Nat.zero_add, Nat.mod_mod]

theorem elemOf_vecOf {f : Fmt} (g : Nat → Nat) {k : Nat} (inside : k < f.elems) :
    elemOf f (vecOf f g) k = g k % 2 ^ f.width := by
  have width : f.width * f.elems ≤ 2048 := by cases f <;> decide
  have fits := Nat.lt_of_lt_of_le (vecBuild_lt f f.elems g) (Nat.pow_le_pow_right Nat.zero_lt_two width)
  rw [elemOf, vecOf, BitVec.toNat_ofNat, Nat.mod_eq_of_lt fits, vecBuild_digit f g inside]

theorem predBuild_testBit (n : Nat) (p : Nat → Bool) (k : Nat) :
    (predBuild n p).testBit k = (decide (k < n) && p k) ∧ predBuild n p < 2 ^ n := by
  induction n with
  | zero => simp [predBuild]
  | succ n ih =>
    obtain ⟨bits, small⟩ := ih
    rw [predBuild]
    cases set : p n with
    | false =>
      refine ⟨?_, by rw [Nat.pow_succ]; simp; omega⟩
      simp only [Bool.false_eq_true, if_false, Nat.add_zero, bits]
      by_cases top : k = n
      · simp [top, set]
      · simp [show k < n + 1 ↔ k < n by omega]
    | true =>
      refine ⟨?_, by rw [Nat.pow_succ]; simp; omega⟩
      simp only [if_true, Nat.add_comm (predBuild n p)]
      by_cases top : k = n
      · subst top
        rw [Nat.testBit_two_pow_add_eq, Nat.testBit_lt_two_pow small]
        simp [set]
      · by_cases below : k < n
        · rw [Nat.testBit_two_pow_add_gt below, bits]
          simp [below, Nat.lt_succ_of_lt below]
        · rw [Nat.testBit_lt_two_pow (Nat.lt_of_lt_of_le (show 2 ^ n + predBuild n p < 2 ^ (n + 1) by rw [Nat.pow_succ]; omega)
            (Nat.pow_le_pow_right (by decide) (by omega)))]
          simp [show ¬ k < n + 1 by omega]

theorem predOf_getLsbD {n : Nat} (fits : n ≤ 256) (p : Nat → Bool) (k : Nat) :
    (predOf n p).getLsbD k = (decide (k < n) && p k) := by
  have ⟨bits, small⟩ := predBuild_testBit n p k
  rw [predOf, BitVec.getLsbD, BitVec.toNat_ofNat,
    Nat.mod_eq_of_lt (Nat.lt_of_lt_of_le small (Nat.pow_le_pow_right (by decide) fits)), bits]

/-- Settles O5: a register and a predicate read back digit by digit. -/
theorem elementsReadBack : Obligations.ElementsReadBack :=
  fun _ g k _ p => ⟨elemOf_vecOf g, fun fits => predOf_getLsbD fits p k⟩

/-! ### Element-wise arithmetic (R112, R113) -/

section Vector
variable (s : State) (slot c : Nat) (x : Ctx) (pn : Bool) (pr : BitVec 3) {fm : BitVec 4} {f : Fmt}

/-- An element-wise instruction takes the operands it uses, and MOD[0] where it lists it. -/
theorem vector_does {opc : Nat} {i : Nat → MWord → Instr} (o : VOp) {useB useC mayFill fill : Bool}
    (command : ∀ w, exec (i slot w) s = .next (s.vector slot w opc o useB useC mayFill)) (listed : opcodes.contains opc = true)
    (unit : IssueSlot.of opc = .compute) (code : Fmt.ofCode fm.toNat = some f) (format : fm.toNat ∈ [0, 1, 2, 5, 6])
    (d a : BitVec 5) {b e : BitVec 5} (onlyB : useB = false → b = 0) (onlyC : useC = false → e = 0)
    (saturates : fill = true → mayFill = true ∧ (f = .int32 ∨ f = .int8)) :
    Does s slot c x opc i
      { MWord.gate pn pr with fmt := fm, dst := d, sa := a, sb := b, sc := e, md := if fill then 1 else 0 }
      (s.retire slot c (x.setV d (vecOf f (fun k => if x.enabled (MWord.gate pn pr) k then
        vop o f fill (elemOf f (x.getV a) k) (elemOf f (x.getV b) k) (elemOf f (x.getV e) k)
        else elemOf f (x.getV d) k))) .compute) := by
  refine does_of_issue (command _) rfl listed unit ?_ (fun gated => nomatch gated) ?_
  · have integer : fill = true → fm = 5 ∨ fm = 6 := by
      intro fills
      obtain ⟨-, kind⟩ := saturates fills
      have codes : ∀ m : BitVec 4, (Fmt.ofCode m.toNat = some .int32 ∨ Fmt.ofCode m.toNat = some .int8) → m = 5 ∨ m = 6 := by
        decide
      exact codes fm (by rw [code]; simpa using kind)
    cases fill with
    | false =>
      simp only [Shape.ok, MWord.gate, Bool.false_eq_true, if_false]
      cases useB <;> cases useC <;> simp_all [fmtArith]
    | true =>
      have mask : (1 : BitVec 4).toNat &&& (15 ^^^ 1) = 0 := by decide
      simp only [Shape.ok, MWord.gate, if_true, (saturates rfl).1, satMod, if_pos (integer rfl), mask]
      cases useB <;> cases useC <;> simp_all [fmtArith]
  · have bit : bitAt 0 (if fill then 1 else 0 : BitVec 4).toNat = fill := by cases fill <;> rfl
    simp only [MWord.format, code, Option.getD_some, MWord.modBit, bit]
    rfl

end Vector

/-- Settles O3: the eight instructions differ in the operands and the saturation they list. -/
theorem vectorArithmetic : Obligations.VectorArithmetic := by
  intro s slot c x pn pr d a b e fm f sat code format integer
  have none {p : Prop} : false = true → p := fun isTrue => nomatch isTrue
  have used {p : Prop} : true = false → p := fun isFalse => nomatch isFalse
  have fills (on : sat = true) : true = true ∧ (f = .int32 ∨ f = .int8) := ⟨rfl, integer on⟩
  refine ⟨?_, ?_, ?_, ?_, ?_, ?_, ?_, ?_⟩
  · exact vector_does s slot c x pn pr .add (fun _ => rfl) (by decide) rfl code format d a used (fun _ => rfl) fills
  · exact vector_does s slot c x pn pr .sub (fun _ => rfl) (by decide) rfl code format d a used (fun _ => rfl) fills
  · exact vector_does s slot c x pn pr .mul (fun _ => rfl) (by decide) rfl code format d a used (fun _ => rfl) fills
  · exact vector_does s slot c x pn pr .fma (fun _ => rfl) (by decide) rfl code format d a used used fills
  · exact vector_does s slot c x pn pr .min (fun _ => rfl) (by decide) rfl code format d a used (fun _ => rfl) none
  · exact vector_does s slot c x pn pr .max (fun _ => rfl) (by decide) rfl code format d a used (fun _ => rfl) none
  · exact vector_does s slot c x pn pr .abs (fun _ => rfl) (by decide) rfl code format d a (fun _ => rfl) (fun _ => rfl) fills
  · exact vector_does s slot c x pn pr .neg (fun _ => rfl) (by decide) rfl code format d a (fun _ => rfl) (fun _ => rfl) fills

/-! ### Moves (R98, R112) -/

section Moves
variable (s : State) (slot c : Nat) (x : Ctx) (pn : Bool) (pr : BitVec 3) {fm : BitVec 4} {f : Fmt}
  (code : Fmt.ofCode fm.toNat = some f)
include code

theorem fmtAny_contains : fmtAny.contains fm.toNat = true := by
  have codes : ∀ m : BitVec 4, (Fmt.ofCode m.toNat).isSome = true → fmtAny.contains m.toNat = true := by decide
  exact codes fm (by rw [code]; rfl)

theorem bitwise_does {opc : Nat} {i : Nat → MWord → Instr} (g : Nat → Nat → Nat)
    (command : ∀ w, exec (i slot w) s = .next (s.bitwise slot w opc g)) (listed : opcodes.contains opc = true)
    (unit : IssueSlot.of opc = .compute) (d a b : BitVec 5) :
    Does s slot c x opc i { MWord.gate pn pr with fmt := fm, dst := d, sa := a, sb := b }
      (s.retire slot c (x.setV d (vecOf f (fun k => if x.enabled (MWord.gate pn pr) k then
        g (elemOf f (x.getV a) k) (elemOf f (x.getV b) k) else elemOf f (x.getV d) k))) .compute) := by
  refine does_of_issue (command _) rfl listed unit ?_ (fun gated => nomatch gated) ?_
  · simp only [Shape.ok, MWord.gate, fmtAny_contains code]
    simp
  · simp only [MWord.format, code, Option.getD_some]
    rfl

theorem vsel_does (d a b : BitVec 5) :
    Does s slot c x 0x1B .vsel { MWord.gate pn pr with fmt := fm, dst := d, sa := a, sb := b }
      (s.retire slot c (x.setV d (vecOf f (fun k => if x.enabled (MWord.gate pn pr) k then
        elemOf f (x.getV a) k else elemOf f (x.getV b) k))) .compute) := by
  refine does_of_issue rfl rfl (by decide) rfl ?_ (fun gated => nomatch gated) ?_
  · simp only [Shape.ok, MWord.gate, fmtAny_contains code]
    simp
  · simp only [MWord.format, code, Option.getD_some]
    rfl

theorem vbcst_does (d a : BitVec 5) :
    Does s slot c x 0x1C .vbcst { MWord.gate pn pr with fmt := fm, dst := d, sa := a }
      (s.retire slot c (x.setV d (vecOf f (fun k => if x.enabled (MWord.gate pn pr) k then
        (x.getS a).toNat else elemOf f (x.getV d) k))) .compute) := by
  refine does_of_issue rfl rfl (by decide) rfl ?_ (fun gated => nomatch gated) ?_
  · simp only [Shape.ok, MWord.gate, fmtAny_contains code]
    simp
  · simp only [MWord.format, code, Option.getD_some]
    rfl

theorem vmov_does (d a : BitVec 5) :
    Does s slot c x 0x1F .vmov { MWord.gate pn pr with fmt := fm, dst := d, sa := a }
      (s.retire slot c (x.setV d (vecOf f (fun k => if x.enabled (MWord.gate pn pr) k then
        elemOf f (x.getV a) k else elemOf f (x.getV d) k))) .compute) := by
  refine does_of_issue rfl rfl (by decide) rfl ?_ (fun gated => nomatch gated) ?_
  · simp only [Shape.ok, MWord.gate, fmtAny_contains code]
    simp
  · simp only [MWord.format, code, Option.getD_some]
    rfl

/-- VEXT and VINS of an element that the register has. -/
theorem vext_vins_does {n : BitVec 64} (inside : n.toNat < f.elems) (enabled : x.enabled (MWord.gate pn pr) 0 = true)
    (d a : BitVec 5) :
    Does s slot c x 0x1D .vext { MWord.gate pn pr with fmt := fm, dst := d, sa := a, imm := n }
      (s.retire slot c (x.setS d (f.extend (elemOf f (x.getV a) n.toNat))) .compute) ∧
    Does s slot c x 0x1E .vins { MWord.gate pn pr with fmt := fm, dst := d, sa := a, imm := n }
      (s.retire slot c (x.setV d (vecOf f (fun k => if k = n.toNat then (x.getS a).toNat else elemOf f (x.getV d) k))) .compute) := by
  constructor
  all_goals
    refine does_of_issue rfl rfl (by decide) rfl ?_ (fun _ => enabled) ?_
    · simp only [Shape.ok, MWord.gate, fmtAny_contains code, MWord.format, code, Option.getD_some, inside]
      simp
    · simp only [MWord.format, code, Option.getD_some]

/-- An element past the register is ILLEGAL, whatever the predicate. -/
theorem vext_vins_illegal_does {n : BitVec 64} (outside : f.elems ≤ n.toNat) (d a : BitVec 5) :
    Does s slot c x 0x1D .vext { MWord.gate pn pr with fmt := fm, dst := d, sa := a, imm := n }
      (s.except slot c x .illegal .compute) ∧
    Does s slot c x 0x1E .vins { MWord.gate pn pr with fmt := fm, dst := d, sa := a, imm := n }
      (s.except slot c x .illegal .compute) := by
  have past : ¬ n.toNat < f.elems := by omega
  constructor
  all_goals
    refine does_of_issue_illegal rfl rfl (by decide) rfl ?_
    simp only [MWord.format, code, Option.getD_some, past, decide_false, Bool.and_false]

end Moves

/-- Settles O4: each move by its body, in any format. -/
theorem vectorMoves : Obligations.VectorMoves := by
  intro s slot c x pn pr d a b fm f i code
  exact ⟨bitwise_does s slot c x pn pr code (fun u v => u &&& v) (fun _ => rfl) (by decide) rfl d a b,
    bitwise_does s slot c x pn pr code (fun u v => u ||| v) (fun _ => rfl) (by decide) rfl d a b,
    bitwise_does s slot c x pn pr code (fun u v => u ^^^ v) (fun _ => rfl) (by decide) rfl d a b,
    vsel_does s slot c x pn pr code d a b, vbcst_does s slot c x pn pr code d a, vmov_does s slot c x pn pr code d a,
    fun inside enabled => vext_vins_does s slot c x pn pr code inside enabled d a,
    fun outside => vext_vins_illegal_does s slot c x pn pr code outside d a⟩

/-! ### Conversion and the functions (R115, R126) -/

/-- The part of a conversion is below the ratio of the element counts, which is at most 4. -/
theorem part_lt_cvtRatio {f h : Fmt} {q : Nat} (part : q * min f.elems h.elems < max f.elems h.elems) :
    q < cvtRatio h f ∧ q < 4 := by
  have divides : max f.elems h.elems = cvtRatio h f * min f.elems h.elems ∧ cvtRatio h f ≤ 4 := by
    cases f <;> cases h <;> decide
  rw [divides.1] at part
  have below := Nat.lt_of_mul_lt_mul_right part
  exact ⟨below, by omega⟩

section Functions
variable (s : State) (slot c : Nat) (x : Ctx) (pn : Bool) (pr : BitVec 3) {fm fs : BitVec 4} {f h : Fmt}

theorem vcvt_does {q : Nat} (target : Fmt.ofCode fm.toNat = some f) (source : Fmt.ofCode fs.toNat = some h) (listed : fm.toNat < 7)
    (listed' : fs.toNat < 7) (part : q * min f.elems h.elems < max f.elems h.elems) (d a : BitVec 5) :
    Does s slot c x 0x30 .vcvt
      { MWord.gate pn pr with fmt := fm, dst := d, sa := a, aux := fs.setWidth 8, imm := BitVec.ofNat 64 q }
      (s.retire slot c (x.setV d (vecOf f (fun j =>
        let n := min f.elems h.elems
        let lo := if h.elems < f.elems then q * n else 0
        if lo ≤ j ∧ j < lo + n ∧ x.enabled (MWord.gate pn pr) j = true then
          convert h f (elemOf h (x.getV a) (if f.elems < h.elems then q * n + j else j - lo))
        else elemOf f (x.getV d) j))) .compute) := by
  obtain ⟨ratio, small⟩ := part_lt_cvtRatio part
  have number : (BitVec.ofNat 64 q).toNat = q := by rw [BitVec.toNat_ofNat]; omega
  have names : bitsOf 3 0 (fs.setWidth 8).toNat = fs.toNat := by
    rw [bitsOf, BitVec.toNat_setWidth]
    omega
  have imm : bitsOf 1 0 (BitVec.ofNat 64 q).toNat = q := by
    rw [number, bitsOf]
    omega
  have mask := descAux_and_mask fs
  have above := and_above_mask q 2 small (by decide)
  refine does_of_issue rfl rfl (by decide) rfl ?_ (fun gated => nomatch gated) ?_
  · have format : ([0, 1, 2, 3, 4, 5, 6] : List Nat).contains fm.toNat = true := by
      simp only [List.contains_eq_mem, List.mem_cons, List.not_mem_nil, or_false, decide_eq_true_eq]
      omega
    simp only [Shape.ok, MWord.gate, MWord.auxBits, MWord.immBits, MWord.format, names, imm, target, source, Option.getD_some, ratio,
      listed', mask, format]
    rw [number]
    simpa using above
  · simp only [MWord.auxBits, MWord.immBits, MWord.format, names, imm, target, source, Option.getD_some]
    congr 3
    funext j
    rw [Nat.min_comm h.elems]
    simp only [Ctx.enabled, Ctx.epred, MWord.gate, Bool.and_eq_true]
    obtain wider | same | narrower := Nat.lt_trichotomy h.elems f.elems
    · simp only [wider, if_true, decide_true, Nat.not_lt_of_lt wider, if_false, Bool.and_eq_true, decide_eq_true_eq, and_assoc]
    · simp only [same, Nat.lt_irrefl, if_false, decide_false, Bool.false_eq_true, decide_eq_true_eq, Nat.zero_le, true_and,
        Nat.zero_add, Nat.sub_zero]
    · simp only [narrower, if_true, Nat.not_lt_of_lt narrower, if_false, decide_false, Bool.false_eq_true, decide_eq_true_eq,
        Nat.zero_le, true_and, Nat.zero_add]

theorem vexp2_vrcp_does (d a : BitVec 5) :
    Does s slot c x 0x70 .vexp2 { MWord.gate pn pr with dst := d, sa := a }
      (s.retire slot c (x.setV d (vecOf .fp32 (fun k => if x.enabled (MWord.gate pn pr) k then
        exp2 (elemOf .fp32 (x.getV a) k) else elemOf .fp32 (x.getV d) k))) .compute) ∧
    Does s slot c x 0x71 .vrcp { MWord.gate pn pr with dst := d, sa := a }
      (s.retire slot c (x.setV d (vecOf .fp32 (fun k => if x.enabled (MWord.gate pn pr) k then
        rcp (elemOf .fp32 (x.getV a) k) else elemOf .fp32 (x.getV d) k))) .compute) := by
  constructor
  all_goals exact does_of_issue rfl rfl (by decide) rfl (by simp [Shape.ok, MWord.gate]) (fun gated => nomatch gated) rfl

theorem vrmax_does (code : Fmt.ofCode fm.toNat = some f) (listed : fm.toNat ∈ [0, 1, 2, 5, 6]) (d a : BitVec 5) :
    Does s slot c x 0x72 .vrmax { MWord.gate pn pr with fmt := fm, dst := d, sa := a }
      (s.retire slot c (x.setS d (f.extend (largest f (((List.range f.elems).filter (fun i =>
        x.enabled (MWord.gate pn pr) i)).map (elemOf f (x.getV a)))))) .compute) := by
  refine does_of_issue rfl rfl (by decide) rfl ?_ (fun gated => nomatch gated) ?_
  · simpa [Shape.ok, MWord.gate, fmtArith] using listed
  · simp only [MWord.format, code, Option.getD_some]
    rfl

theorem vrsum_does (code : Fmt.ofCode fm.toNat = some f) (listed : fm.toNat ∈ [0, 1, 2]) (d a : BitVec 5) :
    Does s slot c x 0x73 .vrsum { MWord.gate pn pr with fmt := fm, dst := d, sa := a }
      (s.retire slot c (x.setS d (BitVec.ofNat 64 (fixedSum ((((List.range f.elems).filter (fun i =>
        x.enabled (MWord.gate pn pr) i)).map (elemOf f (x.getV a))).map (convert f .fp32))))) .compute) := by
  refine does_of_issue rfl rfl (by decide) rfl ?_ (fun gated => nomatch gated) ?_
  · simpa [Shape.ok, MWord.gate] using listed
  · simp only [MWord.format, code, Option.getD_some]
    rfl

end Functions

/-- Settles O7: a conversion by the part it covers, the functions element by element, the reductions on the enabled elements. -/
theorem vectorFunctions : Obligations.VectorFunctions := by
  intro s slot c x pn pr d a fm fs f h q target source
  obtain ⟨exponential, reciprocal⟩ := vexp2_vrcp_does s slot c x pn pr d a
  exact ⟨fun listed listed' part => vcvt_does s slot c x pn pr target source listed listed' part d a, exponential, reciprocal,
    fun listed => vrmax_does s slot c x pn pr target listed d a, fun listed => vrsum_does s slot c x pn pr target listed d a⟩

end Sys2Proof.Machine
end

section
/-!
PROOFS. The table builders, the encoder and lookup-accumulate (R119 to R124, R136). The fields of a word are read back from the
number that holds them; where every check holds and nothing is in flight, each instruction is its body.
-/
namespace Sys2Proof.Machine

/-! ### Fields of a word -/

theorem toNat_ofNat_of_lt {n : Nat} (k : Nat) (small : n < 2 ^ k) : (BitVec.ofNat k n).toNat = n := by
  rw [BitVec.toNat_ofNat, Nat.mod_eq_of_lt small]

/-- A format code in the low bits of AUX. -/
theorem bitsOf_formatAux (e : Fmt) : bitsOf 3 0 (BitVec.ofNat 8 e.code).toNat = e.code := by
  cases e <;> rfl

@[simp] theorem Fmt.ofCode_code (e : Fmt) : Fmt.ofCode e.code = some e := by
  cases e <;> rfl

theorem formatAux_and_mask (e : Fmt) : (BitVec.ofNat 8 e.code).toNat &&& (255 ^^^ 15) = 0 := by
  cases e <;> rfl

/-- Checks that hold, and no comet in flight, leave the body (R108, R133). -/
theorem checked_guarded {x : Ctx} {cs : List (Bool × Exc)} {r v : List (Nat × Nat)} {b : IRes} (hold : firstFail cs = none)
    (still : x.comets = []) : checked cs (x.guarded r v b) = b := by
  rw [checked_ok _ _ hold, Ctx.guarded_nil x still]

section Tables
variable (s : State) (slot c : Nat) {x : Ctx} {pn : Bool} {pr : BitVec 3} (enabled : x.enabled (MWord.gate pn pr) 0 = true)
  (still : x.comets = [])
include enabled still

/-- LTB, of codes 1 and 2, whose elements take two bytes. -/
theorem ltb_does {fm : BitVec 4} {f e : Fmt} {h g d : Nat} (l2 : Bool) (ra rb rt : BitVec 5) (listed : fm.toNat ∈ [1, 2])
    (code : Fmt.ofCode fm.toNat = some f) (entry : e ∈ [Fmt.fp32, .bf16, .fp16]) (h1 : 1 ≤ h) (h64 : h ≤ 64) (g1 : 1 ≤ g)
    (g64 : g ≤ 64) (d1 : 1 ≤ d) (d512 : d ≤ 512) (gd : g * d ≤ 4096)
    (query : x.scratchOk (x.getS ra).toNat (h * g * d * 2) 2 = true)
    (book : x.scratchOk (x.getS rb).toNat (g * 256 * d * 2) 2 = true)
    (table : x.tableOk (x.getS rt).toNat (h * g * tableUnits e) (tableUnits e) = true) :
    Does s slot c x 0x50 .ltb { MWord.gate pn pr with
        sa := ra
        sb := rb
        sc := rt
        fmt := fm
        md := if l2 then 1 else 0
        aux := BitVec.ofNat 8 e.code
        imm := BitVec.ofNat 64 (h + g * 2 ^ 16 + d * 2 ^ 32) }
      (s.retire slot c (({ x with tables := memWrite x.tables ((x.getS rt).toNat * 256) (elemBytes e
        ((List.range (h * g * 256)).map (fun i =>
          convert .fp32 e (rowDot f l2 (slice (x.elems f (x.getS ra).toNat (h * g * d)) (i / 256 * d) d)
            (slice (x.elems f (x.getS rb).toNat (g * 256 * d)) ((i / 256 % g * 256 + i % 256) * d) d))))) }).mac
        ((if l2 then 2 else 1) * ceilDiv (h * g * 256 * d) 1024)) .compute) := by
  generalize hn : h + g * 2 ^ 16 + d * 2 ^ 32 = n
  have number : (BitVec.ofNat 64 n).toNat = n := toNat_ofNat_of_lt 64 (by omega)
  have fieldH : bitsOf 15 0 n = h := by rw [bitsOf]; omega
  have fieldG : bitsOf 31 16 n = g := by rw [bitsOf]; omega
  have fieldD : bitsOf 41 32 n = d := by rw [bitsOf]; omega
  have above := and_above_mask n 42 (by omega) (by decide)
  have bytes : f.bytes = 2 := by
    have codes : ∀ m : BitVec 4, m.toNat ∈ [1, 2] → (Fmt.ofCode m.toNat).map Fmt.bytes = some 2 := by decide
    simpa [code] using codes fm listed
  have small : e.code ≤ 2 := by
    revert entry
    cases e <;> decide
  have bit : bitAt 0 (if l2 then 1 else 0 : BitVec 4).toNat = l2 := by cases l2 <;> rfl
  refine does_of_issue rfl rfl (by decide) rfl ?_ (fun _ => enabled) ?_
  · have format : ([1, 2] : List Nat).contains fm.toNat = true := by simpa using listed
    have md : (if l2 then 1 else 0 : BitVec 4).toNat &&& (15 ^^^ 1) = 0 := by cases l2 <;> rfl
    simp only [Shape.ok, MWord.gate, MWord.immBits, MWord.auxBits, number, fieldH, fieldG, fieldD, bitsOf_formatAux, small,
      formatAux_and_mask, md, h1, h64, g1, g64, d1, d512, gd, format]
    simpa using above
  · simp only [MWord.immBits, MWord.auxBits, MWord.format, MWord.modBit, number, fieldH, fieldG, fieldD, bitsOf_formatAux, code,
      Fmt.ofCode_code, Option.getD_some, bytes, bit]
    exact checked_guarded (by simp only [firstFail, query, book, table, if_true]) still

theorem ltld_does {n : Nat} (ra rb : BitVec 5) (n1 : 1 ≤ n) (n1024 : n ≤ 1024)
    (source : x.scratchOk (x.getS ra).toNat (n * 256) 256 = true) (table : x.tableOk (x.getS rb).toNat n 1 = true) :
    Does s slot c x 0x51 .ltld { MWord.gate pn pr with sa := ra, sb := rb, sc := 0, imm := BitVec.ofNat 64 n }
      (s.retire slot c (({ x with
        tables := memWrite x.tables ((x.getS rb).toNat * 256) (memRead x.scratch (x.getS ra).toNat (n * 256)) }).lau
        (ceilDiv n 4)) .compute) := by
  have number : (BitVec.ofNat 64 n).toNat = n := toNat_ofNat_of_lt 64 (by omega)
  have field : bitsOf 15 0 n = n := by rw [bitsOf]; omega
  have above := and_above_mask n 16 (by omega) (by decide)
  refine does_of_issue rfl rfl (by decide) rfl ?_ (fun _ => enabled) ?_
  · simp only [Shape.ok, MWord.gate, MWord.immBits, number, field, n1, n1024]
    simpa using above
  · simp only [MWord.immBits, number, field]
    exact checked_guarded (by simp only [firstFail, source, table, if_true]) still

theorem kvenc_does {fm : BitVec 4} {f : Fmt} {h g : Nat} (ra rb rt : BitVec 5) (listed : fm.toNat ∈ [1, 2])
    (code : Fmt.ofCode fm.toNat = some f) (h1 : 1 ≤ h) (h64 : h ≤ 64) (g1 : 1 ≤ g) (g64 : g ≤ 64)
    (query : x.scratchOk (x.getS ra).toNat (h * g * 8 * 2) 2 = true)
    (book : x.scratchOk (x.getS rb).toNat (g * 256 * 8 * 2) 2 = true)
    (result : x.scratchOk (x.getS rt).toNat (h * g) 1 = true) :
    Does s slot c x 0x87 .kvenc { MWord.gate pn pr with
        sa := ra
        sb := rb
        sc := rt
        fmt := fm
        imm := BitVec.ofNat 64 (h + g * 2 ^ 16) }
      (s.retire slot c ((x.mac (4 * h * g)).putScratch (x.getS rt).toNat (elemBytes .u8 ((List.range (h * g)).map (fun i =>
        nearest ((List.range 256).map (fun j => rowDot f true (slice (x.elems f (x.getS ra).toNat (h * g * 8)) (i * 8) 8)
          (slice (x.elems f (x.getS rb).toNat (g * 256 * 8)) ((i % g * 256 + j) * 8) 8))))))) .compute) := by
  generalize hn : h + g * 2 ^ 16 = n
  have number : (BitVec.ofNat 64 n).toNat = n := toNat_ofNat_of_lt 64 (by omega)
  have fieldH : bitsOf 15 0 n = h := by rw [bitsOf]; omega
  have fieldG : bitsOf 31 16 n = g := by rw [bitsOf]; omega
  have above := and_above_mask n 32 (by omega) (by decide)
  have bytes : f.bytes = 2 := by
    have codes : ∀ m : BitVec 4, m.toNat ∈ [1, 2] → (Fmt.ofCode m.toNat).map Fmt.bytes = some 2 := by decide
    simpa [code] using codes fm listed
  refine does_of_issue rfl rfl (by decide) rfl ?_ (fun _ => enabled) ?_
  · have format : ([1, 2] : List Nat).contains fm.toNat = true := by simpa using listed
    simp only [Shape.ok, MWord.gate, MWord.immBits, number, fieldH, fieldG, h1, h64, g1, g64, format]
    simpa using above
  · simp only [MWord.immBits, MWord.format, number, fieldH, fieldG, code, Option.getD_some, bytes]
    exact checked_guarded (by simp only [firstFail, query, book, result, if_true]) still

end Tables

/-- Settles O8: the fields of each word, and a body whose checks hold. -/
theorem tableBuilding : Obligations.TableBuilding := by
  intro s slot c x pn pr ra rb rt fm f e h g d n l2 enabled still
  exact ⟨fun listed code entry h1 h64 g1 g64 d1 d512 gd query book table =>
      ltb_does s slot c enabled still l2 ra rb rt listed code entry h1 h64 g1 g64 d1 d512 gd query book table,
    fun n1 n1024 source table => ltld_does s slot c enabled still ra rb n1 n1024 source table,
    fun listed code h1 h64 g1 g64 query book result =>
      kvenc_does s slot c enabled still ra rb rt listed code h1 h64 g1 g64 query book result⟩

/-! ### Lookup-accumulate (R122 to R124) -/

section Lookup
variable (s : State) (slot c : Nat) {x : Ctx} {pn : Bool} {pr : BitVec 3} (enabled : x.enabled (MWord.gate pn pr) 0 = true)
  (still : x.comets = []) {fm : BitVec 4} {f : Fmt} (code : Fmt.ofCode fm.toNat = some f) {k h g : Nat} (h1 : 1 ≤ h) (h64 : h ≤ 64)
  (k1 : 1 ≤ k) (k4096 : k ≤ 4096)
include enabled still code h1 h64 k1 k4096

theorem lac_does {opt : Bool} {rd : BitVec 5} (ra rb rc : BitVec 5) (unused : opt = false → rd = 0) (g1 : 1 ≤ g) (g64 : g ≤ 64)
    (listed : fm.toNat ∈ [0, 1, 2, 5]) (apart : overlap (x.getS rc).toNat (k * h * 4) (x.getS ra).toNat (k * g) = false)
    (apartMax : opt = true → overlap (x.getS rd).toNat (h * 4) (x.getS ra).toNat (k * g) = false)
    (codes : x.scratchOk (x.getS ra).toNat (k * g) 1 = true)
    (table : x.tableOk (x.getS rb).toNat (h * g * tableUnits f) (tableUnits f) = true)
    (scores : x.scratchOk (x.getS rc).toNat (k * h * 4) 4 = true)
    (maxima : opt = true → x.scratchOk (x.getS rd).toNat (h * 4) 4 = true) :
    let out : Fmt := if f = .int8 then .int32 else .fp32
    let rows := (List.range k).map (fun r => (List.range h).map (fun i => lacOutput f ((List.range g).map (fun j =>
      x.tableEntry f (x.getS rb).toNat (i * g + j) ((x.elems .u8 (x.getS ra).toNat (k * g)).getD (r * g + j) 0)))))
    let y := (x.lau (ceilDiv (k * h * g * (if f = .fp32 then 2 else 1)) 2048)).putScratch (x.getS rc).toNat (elemBytes out rows.flatten)
    Does s slot c x 0x52 .lac { MWord.gate pn pr with
        fmt := fm
        sa := ra
        sb := rb
        sc := rc
        dst := rd
        md := if opt then 1 else 0
        imm := BitVec.ofNat 64 (k + h * 2 ^ 32 + g * 2 ^ 48) }
      (s.retire slot c (if opt then y.putScratch (x.getS rd).toNat (elemBytes out ((List.range h).map (fun i =>
        largest out (rows.map (fun r => r.getD i 0))))) else y) .compute) := by
  intro out rows y
  generalize hn : k + h * 2 ^ 32 + g * 2 ^ 48 = n
  have number : (BitVec.ofNat 64 n).toNat = n := toNat_ofNat_of_lt 64 (by omega)
  have fieldK : bitsOf 31 0 n = k := by rw [bitsOf]; omega
  have fieldH : bitsOf 47 32 n = h := by rw [bitsOf]; omega
  have fieldG : bitsOf 55 48 n = g := by rw [bitsOf]; omega
  have above := and_above_mask n 56 (by omega) (by decide)
  have bit : bitAt 0 (if opt then 1 else 0 : BitVec 4).toNat = opt := by cases opt <;> rfl
  refine does_of_issue rfl rfl (by decide) rfl ?_ (fun _ => enabled) ?_
  · have format : ([0, 1, 2, 5] : List Nat).contains fm.toNat = true := by simpa using listed
    have md : (if opt then 1 else 0 : BitVec 4).toNat &&& (15 ^^^ 1) = 0 := by cases opt <;> rfl
    have dst : (opt || decide (rd = 0)) = true := by cases opt <;> simp_all
    simp only [Shape.ok, MWord.gate, MWord.immBits, MWord.modBit, bit, number, fieldK, fieldH, fieldG, md, dst, h1, h64, k1, g1, g64, format]
    simpa using above
  · simp only [MWord.immBits, MWord.format, MWord.modBit, bit, number, fieldK, fieldH, fieldG, code, Option.getD_some]
    refine checked_guarded ?_ still
    cases opt with
    | false => simp [firstFail, apart, codes, table, scores]
    | true => simp [firstFail, apart, apartMax rfl, codes, table, scores, maxima rfl]

theorem lexpw_does (ra rb rc : BitVec 5) (scale : BitVec 32) (listed : fm.toNat ∈ [0, 1, 2])
    (apart : overlap (x.getS rc).toNat (k * h * f.bytes) (x.getS ra).toNat (k * h * 4) = false)
    (apart' : overlap (x.getS rc).toNat (k * h * f.bytes) (x.getS rb).toNat (h * 4) = false)
    (scores : x.scratchOk (x.getS ra).toNat (k * h * 4) 4 = true) (maxima : x.scratchOk (x.getS rb).toNat (h * 4) 4 = true)
    (weights : x.scratchOk (x.getS rc).toNat (k * h * f.bytes) f.bytes = true) :
    Does s slot c x 0x53 .lexpw { MWord.gate pn pr with
        fmt := fm
        sa := ra
        sb := rb
        sc := rc
        aux := BitVec.ofNat 8 h
        imm := BitVec.ofNat 64 (k + scale.toNat * 2 ^ 32) }
      (s.retire slot c ((x.lau (ceilDiv (k * h * (if f = .fp32 then 2 else 1)) 2048)).putScratch (x.getS rc).toNat
        (elemBytes f ((List.range (k * h)).map (fun i => convert .fp32 f (exp2 (Fmt.mul .fp32
          (Fmt.sub .fp32 ((x.elems .fp32 (x.getS ra).toNat (k * h)).getD i 0)
            ((x.elems .fp32 (x.getS rb).toNat h).getD (i % h) 0)) scale.toNat)))))) .compute) := by
  have word := scale.isLt
  generalize hn : k + scale.toNat * 2 ^ 32 = n
  have number : (BitVec.ofNat 64 n).toNat = n := toNat_ofNat_of_lt 64 (by omega)
  have fieldK : bitsOf 31 0 n = k := by rw [bitsOf]; omega
  have fieldC : bitsOf 63 32 n = scale.toNat := by rw [bitsOf]; omega
  have fieldH : (BitVec.ofNat 8 h).toNat = h := toNat_ofNat_of_lt 8 (by omega)
  refine does_of_issue rfl rfl (by decide) rfl ?_ (fun _ => enabled) ?_
  · have format : ([0, 1, 2] : List Nat).contains fm.toNat = true := by simpa using listed
    simp only [Shape.ok, MWord.gate, MWord.immBits, number, fieldK, fieldH, h1, h64, k1, format]
    simp
  · simp only [MWord.immBits, MWord.format, number, fieldK, fieldH, fieldC, code, Option.getD_some]
    exact checked_guarded (by simp [firstFail, apart, apart', scores, maxima, weights]) still

theorem lbin_does {opt : Bool} {rd : BitVec 5} {e : Fmt} (ra rb rc : BitVec 5) (unused : opt = false → rd = 0) (g1 : 1 ≤ g)
    (g64 : g ≤ 64) (listed : fm.toNat ∈ [0, 1, 2]) (binned : e ∈ [Fmt.fp32, .bf16, .fp16])
    (apart : overlap (x.getS rc).toNat (h * g * 256 * e.bytes) (x.getS ra).toNat (k * h * f.bytes) = false)
    (apart' : overlap (x.getS rc).toNat (h * g * 256 * e.bytes) (x.getS rb).toNat (k * g) = false)
    (sums : opt = true → overlap (x.getS rd).toNat (h * 4) (x.getS ra).toNat (k * h * f.bytes) = false ∧
      overlap (x.getS rd).toNat (h * 4) (x.getS rb).toNat (k * g) = false ∧ x.scratchOk (x.getS rd).toNat (h * 4) 4 = true)
    (weights : x.scratchOk (x.getS ra).toNat (k * h * f.bytes) f.bytes = true)
    (codes : x.scratchOk (x.getS rb).toNat (k * g) 1 = true)
    (bins : x.scratchOk (x.getS rc).toNat (h * g * 256 * e.bytes) e.bytes = true) :
    let ws := (x.elems f (x.getS ra).toNat (k * h)).map (convert f .fp32)
    let chosen := fun (j q : Nat) => (List.range k).filter (fun r =>
      decide ((x.elems .u8 (x.getS rb).toNat (k * g)).getD (r * g + j) 0 = q))
    let y := (x.lau (ceilDiv (k * h * g * (if f = .fp32 ∨ e = .fp32 then 2 else 1)) 2048)).putScratch (x.getS rc).toNat
      (elemBytes e ((List.range (h * g * 256)).map (fun i => convert .fp32 e
        (fixedSum ((chosen (i / 256 % g) (i % 256)).map (fun r => ws.getD (r * h + i / 256 / g) 0))))))
    Does s slot c x 0x54 .lbin { MWord.gate pn pr with
        fmt := fm
        sa := ra
        sb := rb
        sc := rc
        dst := rd
        md := if opt then 1 else 0
        aux := BitVec.ofNat 8 e.code
        imm := BitVec.ofNat 64 (k + h * 2 ^ 32 + g * 2 ^ 48) }
      (s.retire slot c (if opt then y.putScratch (x.getS rd).toNat (elemBytes .fp32 ((List.range h).map (fun i =>
        fixedSum ((List.range k).map (fun r => ws.getD (r * h + i) 0))))) else y) .compute) := by
  intro ws chosen y
  generalize hn : k + h * 2 ^ 32 + g * 2 ^ 48 = n
  have number : (BitVec.ofNat 64 n).toNat = n := toNat_ofNat_of_lt 64 (by omega)
  have fieldK : bitsOf 31 0 n = k := by rw [bitsOf]; omega
  have fieldH : bitsOf 47 32 n = h := by rw [bitsOf]; omega
  have fieldG : bitsOf 55 48 n = g := by rw [bitsOf]; omega
  have above := and_above_mask n 56 (by omega) (by decide)
  have bit : bitAt 0 (if opt then 1 else 0 : BitVec 4).toNat = opt := by cases opt <;> rfl
  have small : e.code ≤ 2 := by
    revert binned
    cases e <;> decide
  refine does_of_issue rfl rfl (by decide) rfl ?_ (fun _ => enabled) ?_
  · have format : ([0, 1, 2] : List Nat).contains fm.toNat = true := by simpa using listed
    have md : (if opt then 1 else 0 : BitVec 4).toNat &&& (15 ^^^ 1) = 0 := by cases opt <;> rfl
    have dst : (opt || decide (rd = 0)) = true := by cases opt <;> simp_all
    simp only [Shape.ok, MWord.gate, MWord.immBits, MWord.auxBits, MWord.modBit, bit, number, fieldK, fieldH, fieldG, bitsOf_formatAux,
      formatAux_and_mask, small, md, dst, h1, h64, k1, k4096, g1, g64, format]
    simpa using above
  · simp only [MWord.immBits, MWord.auxBits, MWord.format, MWord.modBit, bit, number, fieldK, fieldH, fieldG, bitsOf_formatAux, code,
      Fmt.ofCode_code, Option.getD_some]
    refine checked_guarded ?_ still
    cases opt with
    | false => simp [firstFail, apart, apart', weights, codes, bins]
    | true =>
      obtain ⟨apartA, apartB, room⟩ := sums rfl
      simp [firstFail, apart, apart', weights, codes, bins, apartA, apartB, room]

end Lookup

/-- Settles O9: the fields of each word, and a body whose checks hold. -/
theorem lookupAccumulate : Obligations.LookupAccumulate := by
  intro s slot c x pn pr rd ra rb rc fm f e k h g scale opt enabled still code h1 h64 g1 g64 k1 k4096 unused
  exact ⟨fun listed apart apartMax codes table scores maxima =>
      lac_does s slot c enabled still code h1 h64 k1 k4096 ra rb rc unused g1 g64 listed apart apartMax codes table scores maxima,
    fun listed apart apart' scores maxima weights =>
      lexpw_does s slot c enabled still code h1 h64 k1 k4096 ra rb rc scale listed apart apart' scores maxima weights,
    fun listed binned apart apart' sums weights codes bins =>
      lbin_does s slot c enabled still code h1 h64 k1 k4096 ra rb rc unused g1 g64 listed binned apart apart' sums weights codes bins⟩

end Sys2Proof.Machine
end

section
/-!
PROOFS. The instructions of the exact accumulators (R70 to R75, R125).
-/
namespace Sys2Proof.Machine

theorem Ctx.getX_mem {x : Ctx} {a : Nat} (granted : a < x.xa.length) : x.getX a ∈ x.xa := by
  rw [Ctx.getX, List.getD_eq_getElem?_getD, List.getElem?_eq_getElem granted, Option.getD_some]
  exact List.getElem_mem granted

theorem xaccAux_and_mask {i : Nat} (small : i < 64) : (BitVec.ofNat 8 i).toNat &&& (255 ^^^ 63) = 0 := by
  rw [toNat_ofNat_of_lt 8 (by omega)]
  exact and_above_mask8 i 6 small (by decide)

/-- A check list whose first failure is `e` raises it (R108). -/
theorem checked_exc {cs : List (Bool × Exc)} {b : IRes} {e : Exc} (fails : firstFail cs = some e) : checked cs b = .exc e := by
  rw [checked, fails]

section Adds
variable (s : State) (slot c : Nat) (x : Ctx) (pn : Bool) (pr : BitVec 3) (a b : BitVec 5) {fm : BitVec 4} {f : Fmt}
  (code : Fmt.ofCode fm.toNat = some f) {i : Nat} (granted : i < x.xa.length) (small : i < 64)
include code granted small

/-- The values that XADD adds: the enabled elements, in order. -/
def Ctx.addends (x : Ctx) (w : MWord) (f : Fmt) (a : BitVec 5) : List Nat :=
  ((List.range f.elems).filter (fun k => x.enabled w k)).map (fun k => elemOf f (x.getV a) k)

theorem xadd_does (listed : fm.toNat ∈ [0, 1, 2, 3, 4, 6])
    (room : (x.getX i).count + (x.addends (MWord.gate pn pr) f a).length < 2 ^ 48) (fresh : (x.getX i).sinceNorm < 2 ^ 30) :
    Does s slot c x 0x61 .xadd { MWord.gate pn pr with aux := BitVec.ofNat 8 i, sa := a, fmt := fm }
      (s.retire slot c (x.setX i ((x.addends (MWord.gate pn pr) f a).foldl (fun t e => t.add (accValue f e)) (x.getX i)))
        .compute) := by
  have number : (BitVec.ofNat 8 i).toNat = i := toNat_ofNat_of_lt 8 (by omega)
  refine does_of_issue rfl rfl (by decide) rfl ?_ (fun gated => nomatch gated) ?_
  · have format : ([0, 1, 2, 3, 4, 6] : List Nat).contains fm.toNat = true := by simpa using listed
    simp only [Shape.ok, MWord.gate, xaccAux_and_mask small, format]
    simp
  · have due : x.normDue [i] = false := by
      rw [Ctx.normDue, List.any_cons, List.any_nil, Bool.or_false]
      exact decide_eq_false (Nat.not_le.mpr fresh)
    have within : x.xaccOk i 1 = true := decide_eq_true granted
    simp only [MWord.format, number, code, Option.getD_some, due, Bool.false_eq_true, if_false]
    exact checked_ok _ _ (by simp only [firstFail, within, if_true]; exact if_pos (decide_eq_true room))

theorem xadd_limit_does (listed : fm.toNat ∈ [0, 1, 2, 3, 4, 6])
    (full : 2 ^ 48 ≤ (x.getX i).count + (x.addends (MWord.gate pn pr) f a).length) :
    Does s slot c x 0x61 .xadd { MWord.gate pn pr with aux := BitVec.ofNat 8 i, sa := a, fmt := fm }
      (s.except slot c x .arithLimit .compute) := by
  have number : (BitVec.ofNat 8 i).toNat = i := toNat_ofNat_of_lt 8 (by omega)
  refine does_of_issue_exc rfl rfl (by decide) rfl ?_ (fun gated => nomatch gated) ?_
  · have format : ([0, 1, 2, 3, 4, 6] : List Nat).contains fm.toNat = true := by simpa using listed
    simp only [Shape.ok, MWord.gate, xaccAux_and_mask small, format]
    simp
  · have within : x.xaccOk i 1 = true := decide_eq_true granted
    simp only [MWord.format, number, code, Option.getD_some]
    refine checked_exc ?_
    simp only [firstFail, within, if_true]
    exact if_neg (fun room => absurd (of_decide_eq_true room) (Nat.not_lt.mpr full))

end Adds

section Lanes
variable (s : State) (slot c : Nat) (x : Ctx) (pn : Bool) (pr : BitVec 3) {fm : BitVec 4} {f : Fmt}
  (code : Fmt.ofCode fm.toNat = some f) {i n : Nat} (small : i < 64) (one : 1 ≤ n) (within : i + n ≤ x.xa.length)
  (most : x.xa.length ≤ 64) (room : ∀ q ∈ x.xa, q.count + 1 < 2 ^ 48 ∧ q.sinceNorm < 2 ^ 30)
include code small one within most room

/-- The accumulators of the enabled elements below IMM take one add each, where each has room. -/
theorem laneAdds_does {opc : Nat} {k : Nat → MWord → Instr} {useB : Bool} {fmts : List Nat} {val : MWord → Ctx → Nat → FVal}
    {put : Nat → FVal}
    (command : ∀ w, exec (k slot w) s = .next (s.laneAdds slot w
      { opc := opc, sa := true, sb := useB, aux := 63, imm := 127, fmts := fmts } (val w)))
    (known : opcodes.contains opc = true) (unit : IssueSlot.of opc = .compute) (listed : fmts.contains fm.toNat = true)
    (a : BitVec 5) {b : BitVec 5} (onlyB : useB = false → b = 0)
    (values : val { MWord.gate pn pr with aux := BitVec.ofNat 8 i, sa := a, sb := b, fmt := fm, imm := BitVec.ofNat 64 n } x = put) :
    Does s slot c x opc k { MWord.gate pn pr with aux := BitVec.ofNat 8 i, sa := a, sb := b, fmt := fm, imm := BitVec.ofNat 64 n }
      (s.retire slot c (((List.range (min n f.elems)).filter (fun k => x.enabled (MWord.gate pn pr) k)).foldl
        (fun y k => y.setX (i + k) ((y.getX (i + k)).add (put k))) x) .compute) := by
  have numberI : (BitVec.ofNat 8 i).toNat = i := toNat_ofNat_of_lt 8 (by omega)
  have numberN : (BitVec.ofNat 64 n).toNat = n := toNat_ofNat_of_lt 64 (by omega)
  have upper : n ≤ 64 := by omega
  refine does_of_issue (command _) rfl known unit ?_ (fun gated => nomatch gated) ?_
  · have above := and_above_mask n 7 (by omega) (by decide)
    have sb : (useB || decide (b = 0)) = true := by cases useB <;> simp_all
    simp only [Shape.ok, MWord.gate, xaccAux_and_mask small, numberN, listed, sb, one, upper]
    simpa using above
  · have lanes : ∀ k ∈ (List.range (min n f.elems)).filter (fun k => x.enabled (MWord.gate pn pr) k),
        (x.getX (i + k)).count + 1 < 2 ^ 48 ∧ (x.getX (i + k)).sinceNorm < 2 ^ 30 := by
      intro k enabled
      have below := List.mem_range.mp (List.mem_filter.mp enabled).1
      exact room _ (Ctx.getX_mem (by omega))
    have granted : x.xaccOk i n = true := decide_eq_true within
    have counts : ((List.range (min n f.elems)).filter (fun k => x.enabled (MWord.gate pn pr) k)).all
        (fun k => decide ((x.getX (i + k)).count + 1 < countTop)) = true :=
      List.all_eq_true.mpr fun k lane => decide_eq_true (lanes k lane).1
    have fresh : x.normDue (((List.range (min n f.elems)).filter (fun k => x.enabled (MWord.gate pn pr) k)).map
        (fun k => i + k)) = false := by
      rw [Ctx.normDue, List.any_map, List.any_eq_false]
      intro k lane
      exact Bool.not_eq_true _ ▸ decide_eq_false (Nat.not_le.mpr (lanes k lane).2)
    rw [values]
    simp only [Ctx.lanes, MWord.format, numberI, numberN, code, Option.getD_some]
    refine (checked_ok _ _ ?_).trans (if_neg ?_)
    · simp only [firstFail, granted, if_true]
      exact if_pos counts
    · exact Bool.eq_false_iff.mp fresh

end Lanes

section Gated
variable (s : State) (slot c : Nat) {x : Ctx} {pn : Bool} {pr : BitVec 3} (enabled : x.enabled (MWord.gate pn pr) 0 = true) {i : Nat}
  (granted : i < x.xa.length) (small : i < 64)
include enabled

theorem xclr_does {n : Nat} (small : i < 64) (one : 1 ≤ n) (within : i + n ≤ x.xa.length) (most : x.xa.length ≤ 64) :
    Does s slot c x 0x60 .xclr { MWord.gate pn pr with aux := BitVec.ofNat 8 i, imm := BitVec.ofNat 64 n }
      (s.retire slot c ((List.range n).foldl (fun y k => y.setX (i + k) XAcc.clear) x) .compute) := by
  have numberI : (BitVec.ofNat 8 i).toNat = i := toNat_ofNat_of_lt 8 (by omega)
  have numberN : (BitVec.ofNat 64 n).toNat = n := toNat_ofNat_of_lt 64 (by omega)
  have upper : n ≤ 64 := by omega
  refine does_of_issue rfl rfl (by decide) rfl ?_ (fun _ => enabled) ?_
  · have above := and_above_mask n 7 (by omega) (by decide)
    simp only [Shape.ok, MWord.gate, xaccAux_and_mask small, numberN, one, upper]
    simpa using above
  · have granted : x.xaccOk i n = true := decide_eq_true within
    simp only [numberI, numberN]
    exact checked_ok _ _ (by simp only [firstFail, granted, if_true])

include granted small

theorem xrd_does {fm : BitVec 4} {f : Fmt} (code : Fmt.ofCode fm.toNat = some f) (listed : fm.toNat ∈ [0, 1, 2, 6]) (d : BitVec 5) :
    Does s slot c x 0x64 .xrd { MWord.gate pn pr with aux := BitVec.ofNat 8 i, dst := d, fmt := fm }
      (s.retire slot c ((x.setX i (x.getX i).forRead).setS d (f.extend ((x.getX i).forRead.readOut f))) .compute) := by
  have number : (BitVec.ofNat 8 i).toNat = i := toNat_ofNat_of_lt 8 (by omega)
  refine does_of_issue rfl rfl (by decide) rfl ?_ (fun _ => enabled) ?_
  · have format : ([0, 1, 2, 6] : List Nat).contains fm.toNat = true := by simpa using listed
    simp only [Shape.ok, MWord.gate, xaccAux_and_mask small, format]
    simp
  · have within : x.xaccOk i 1 = true := decide_eq_true granted
    simp only [MWord.format, number, code, Option.getD_some]
    exact checked_ok _ _ (by simp only [firstFail, within, if_true])

theorem xexp_does (a : BitVec 5) (still : x.comets = []) (window : x.scratchOk (x.getS a).toNat 88 8 = true) :
    Does s slot c x 0x65 .xexp { MWord.gate pn pr with aux := BitVec.ofNat 8 i, sa := a }
      (s.retire slot c ((x.setX i (x.getX i).forRead).putScratch (x.getS a).toNat (x.getX i).forRead.image) .compute) := by
  have number : (BitVec.ofNat 8 i).toNat = i := toNat_ofNat_of_lt 8 (by omega)
  refine does_of_issue rfl rfl (by decide) rfl ?_ (fun _ => enabled) ?_
  · simp only [Shape.ok, MWord.gate, xaccAux_and_mask small]
    simp
  · have within : x.xaccOk i 1 = true := decide_eq_true granted
    simp only [number]
    exact checked_guarded (by simp only [firstFail, window, within, if_true]) still

theorem ximp_does (a : BitVec 5) (still : x.comets = []) (window : x.scratchOk (x.getS a).toNat 88 8 = true) {q : XAcc}
    (image : XAcc.ofImage (memRead x.scratch (x.getS a).toNat 88) = some q) (room : (x.getX i).count + q.count < 2 ^ 48) :
    Does s slot c x 0x66 .ximp { MWord.gate pn pr with aux := BitVec.ofNat 8 i, sa := a }
      (s.retire slot c (x.setX i ((x.getX i).merge q)) .compute) := by
  have number : (BitVec.ofNat 8 i).toNat = i := toNat_ofNat_of_lt 8 (by omega)
  refine does_of_issue rfl rfl (by decide) rfl ?_ (fun _ => enabled) ?_
  · simp only [Shape.ok, MWord.gate, xaccAux_and_mask small]
    simp
  · have within : x.xaccOk i 1 = true := decide_eq_true granted
    simp only [number, image]
    refine (checked_guarded (by simp only [firstFail, window, within, if_true]) still).trans ?_
    exact checked_ok _ _ (by simp only [firstFail]; exact if_pos (decide_eq_true room))

theorem ximp_refused_does (a : BitVec 5) (still : x.comets = []) (window : x.scratchOk (x.getS a).toNat 88 8 = true)
    (image : XAcc.ofImage (memRead x.scratch (x.getS a).toNat 88) = none) :
    Does s slot c x 0x66 .ximp { MWord.gate pn pr with aux := BitVec.ofNat 8 i, sa := a } (s.except slot c x .illegal .compute) := by
  have number : (BitVec.ofNat 8 i).toNat = i := toNat_ofNat_of_lt 8 (by omega)
  refine does_of_issue_exc rfl rfl (by decide) rfl ?_ (fun _ => enabled) ?_
  · simp only [Shape.ok, MWord.gate, xaccAux_and_mask small]
    simp
  · have within : x.xaccOk i 1 = true := decide_eq_true granted
    simp only [number, image]
    exact checked_guarded (by simp only [firstFail, window, within, if_true]) still

theorem xmrg_does {j : Nat} (granted' : j < x.xa.length) (small' : j < 64) (room : (x.getX i).count + (x.getX j).count < 2 ^ 48) :
    Does s slot c x 0x67 .xmrg { MWord.gate pn pr with aux := BitVec.ofNat 8 i, imm := BitVec.ofNat 64 j }
      (s.retire slot c (x.setX i ((x.getX i).merge (x.getX j))) .compute) := by
  have numberI : (BitVec.ofNat 8 i).toNat = i := toNat_ofNat_of_lt 8 (by omega)
  have numberJ : (BitVec.ofNat 64 j).toNat = j := toNat_ofNat_of_lt 64 (by omega)
  refine does_of_issue rfl rfl (by decide) rfl ?_ (fun _ => enabled) ?_
  · have above := and_above_mask j 6 (by omega) (by decide)
    simp only [Shape.ok, MWord.gate, xaccAux_and_mask small, numberJ]
    simpa using above
  · have within : (x.xaccOk i 1 && x.xaccOk j 1) = true := by
      rw [Bool.and_eq_true]
      exact ⟨decide_eq_true granted, decide_eq_true granted'⟩
    simp only [numberI, numberJ]
    exact checked_ok _ _ (by simp only [firstFail, within, if_true]; exact if_pos (decide_eq_true room))

end Gated

theorem State.modCtx_of_found {s : State} {c : Nat} {x : Ctx} (found : s.ctx? c = some x) (f : Ctx → Ctx) :
    s.modCtx c f = s.setCtx c (f x) := by
  unfold State.modCtx State.setCtx kvMod
  rw [show kvGet? s.ctxs c = some x from found]

/-- Settles O10: an add by the room of its accumulators, a read-out, an image and a merge by their checks. -/
theorem exactAccumulators : Obligations.ExactAccumulators := by
  intro s slot c x pn pr d a b fm f i j n still code granted small small'
  refine ⟨fun listed => ⟨xadd_does s slot c x pn pr a code granted small listed,
      xadd_limit_does s slot c x pn pr a code granted small listed⟩,
    fun one within most room => ⟨fun listed => ?xaddl, fun listed => ?xdot⟩,
    fun enabled => ⟨fun one within most => xclr_does s slot c enabled small one within most,
      fun listed => xrd_does s slot c enabled granted small code listed d,
      fun window => ⟨xexp_does s slot c enabled granted small a still window,
        fun q image room => ximp_does s slot c enabled granted small a still window image room,
        ximp_refused_does s slot c enabled granted small a still window⟩,
      fun granted' room => xmrg_does s slot c enabled granted small granted' small' room⟩,
    fun here found due => ?normalise⟩
  case xaddl =>
    exact laneAdds_does s slot c x pn pr code small one within most room (useB := false)
      (val := fun w y k => accValue w.format (elemOf w.format (y.getV w.sa) k)) (fun _ => rfl) (by decide) rfl
      (by simpa using listed) a (fun _ => rfl) (by simp only [MWord.format, code, Option.getD_some])
  case xdot =>
    exact laneAdds_does s slot c x pn pr code small one within most room (useB := true)
      (val := fun w y k => accProduct w.format (elemOf w.format (y.getV w.sa) k) (elemOf w.format (y.getV w.sb) k)) (fun _ => rfl)
      (by decide) rfl (by simpa using listed) a (fun isFalse => nomatch isFalse)
      (by simp only [MWord.format, code, Option.getD_some])
  case normalise =>
    have effect : exec (.xaccNormalise slot i) s = .next (s.modCtx c (fun x =>
        if i < x.xa.length ∧ normEvery ≤ (x.getX i).sinceNorm then x.setX i (x.getX i).normalise else x)) := by
      show execXaccNormalise slot i s = _
      rw [execXaccNormalise, here]
    rw [effect, State.modCtx_of_found found]
    exact congrArg _ (congrArg _ (if_pos ⟨granted, due⟩))

end Sys2Proof.Machine
end

section
/-!
PROOFS. MMA from scratch and from the expander (R68, R116 to R118, R175).
-/
namespace Sys2Proof.Machine

theorem Fmt.code_of_ofCode {n : Nat} {f : Fmt} (code : Fmt.ofCode n = some f) : f.code = n := by
  revert code
  unfold Fmt.ofCode
  split <;> intro code <;> cases code <;> rfl

/-- An accepted pair has the first format among those of MMA (R116). -/
theorem contains_of_mmaFormats {a b : Nat} (pair : mmaFormats a b = true) : ([1, 2, 3, 4, 5] : List Nat).contains a = true :=
  (Bool.and_eq_true_iff.mp pair).1

/-- The two ends of a chain in MOD: OPEN in bit 0, CLOSE in bit 1 (R116). -/
theorem modBits_ends (opn cls : Bool) :
    let md := BitVec.ofNat 4 (bit01 opn + 2 * bit01 cls)
    bitAt 0 md.toNat = opn ∧ bitAt 1 md.toNat = cls ∧ bitAt 2 md.toNat = false ∧ md.toNat &&& (15 ^^^ 7) = 0 := by
  cases opn <;> cases cls <;> decide

/-- The two ends of a chain beside EXP in bit 2 of MOD (R116, R175). -/
theorem modBits_ends_exp (opn cls : Bool) :
    let md := BitVec.ofNat 4 (bit01 opn + 2 * bit01 cls + 4)
    bitAt 0 md.toNat = opn ∧ bitAt 1 md.toNat = cls ∧ bitAt 2 md.toNat = true ∧ md.toNat &&& (15 ^^^ 7) = 0 := by
  cases opn <;> cases cls <;> decide

/-- AUX of an MMA with EXP: the format of B below the number of its descriptor (R175). -/
theorem expanderAux (e : Fmt) (i : BitVec 4) : bitsOf 3 0 (BitVec.ofNat 8 (e.code + 16 * i.toNat)).toNat = e.code ∧
    BitVec.ofNat 4 (bitsOf 7 4 (BitVec.ofNat 8 (e.code + 16 * i.toNat)).toNat) = i := by
  have below := i.isLt
  have code : e.code < 16 := by cases e <;> decide
  rw [toNat_ofNat_of_lt 8 (by omega), bitsOf, bitsOf]
  constructor
  · omega
  · apply BitVec.eq_of_toNat_eq
    rw [BitVec.toNat_ofNat]
    omega

theorem firstFail_of_holds {b : Bool} {e : Exc} {cs : List (Bool × Exc)} (holds : b = true) :
    firstFail ((b, e) :: cs) = firstFail cs := by
  simp [firstFail, holds]

theorem firstFail_of_fails {b : Bool} {e : Exc} {cs : List (Bool × Exc)} (fails : b = false) :
    firstFail ((b, e) :: cs) = some e := by
  simp [firstFail, fails]

section Mma
variable (s : State) (slot c : Nat) {x : Ctx} {pn : Bool} {pr : BitVec 3} (enabled : x.enabled (MWord.gate pn pr) 0 = true)
  (still : x.comets = []) (ra rb rc : BitVec 5) {fm : BitVec 4} {f e : Fmt} {m n k : Nat} (opn cls : Bool)
  (code : Fmt.ofCode fm.toNat = some f) (pair : mmaFormats f.code e.code = true) (m1 : 1 ≤ m) (m64 : m ≤ 64) (n1 : 1 ≤ n)
  (n64 : n ≤ 64) (k1 : 1 ≤ k) (k32 : k < 2 ^ 32)
  (chain : opn = true ∨ ∃ q, x.chain = some q ∧ q.m = m ∧ q.n = n ∧ q.fa = f ∧ q.fb = e)
  (opA : x.scratchOk (x.getS ra).toNat (m * k * f.bytes) f.bytes = true)
  (outC : cls = true → x.scratchOk (x.getS rc).toNat (m * n * 4) 4 = true ∧
    overlap (x.getS rc).toNat (m * n * 4) (x.getS ra).toNat (m * k * f.bytes) = false)
include enabled still code pair m1 m64 n1 n64 k1 k32 chain opA outC

/-- From scratch, MMA ends by the room of its chain (R68, R116, R117). -/
theorem mma_does (opB : x.scratchOk (x.getS rb).toNat (k * n * e.bytes) e.bytes = true)
    (apart : cls = true → overlap (x.getS rc).toNat (m * n * 4) (x.getS rb).toNat (k * n * e.bytes) = false) :
    let A := x.elems f (x.getS ra).toNat (m * k)
    let B := x.elems e (x.getS rb).toNat (k * n)
    let y := x.mmaLimit m n k f e A B opn
    ∀ {t : State}, (if (x.chainFor m n f e opn).k + k ≤ 2 ^ 32 then
        s.retire slot c (x.mmaDone m n k f e A B (x.getS rc).toNat opn cls) .compute
      else (s.setCtx c y).except slot c y .arithLimit .compute) = t →
    Does s slot c x 0x40 .mma { MWord.gate pn pr with
        sa := ra
        sb := rb
        sc := rc
        fmt := fm
        imm := BitVec.ofNat 64 (m + n * 2 ^ 16 + k * 2 ^ 32)
        md := BitVec.ofNat 4 (bit01 opn + 2 * bit01 cls)
        aux := BitVec.ofNat 8 e.code } t := by
  intro A B y t ends
  subst ends
  generalize hn : m + n * 2 ^ 16 + k * 2 ^ 32 = z
  have number : (BitVec.ofNat 64 z).toNat = z := toNat_ofNat_of_lt 64 (by omega)
  have fieldM : bitsOf 15 0 z = m := by rw [bitsOf]; omega
  have fieldN : bitsOf 31 16 z = n := by rw [bitsOf]; omega
  have fieldK : bitsOf 63 32 z = k := by rw [bitsOf]; omega
  obtain ⟨bit0, bit1, bit2, md⟩ := modBits_ends opn cls
  have codeA := Fmt.code_of_ofCode code
  refine does_of_issueWith rfl rfl (by decide) ?_ (fun _ => enabled) ?_
  · have format := contains_of_mmaFormats pair
    simp only [Shape.ok, MWord.gate, MWord.immBits, MWord.auxBits, MWord.modBit, bit0, bit1, bit2, md, number, fieldM, fieldN,
      fieldK, bitsOf_formatAux, Bool.false_eq_true, if_false, formatAux_and_mask, format, m1, m64, n1, n64, k1, ← codeA, pair]
    simp
  · simp only [MWord.immBits, MWord.auxBits, MWord.modBit, MWord.format, MWord.gate, bit0, bit1, bit2, number, fieldM, fieldN, fieldK,
      bitsOf_formatAux, code, Fmt.ofCode_code, Option.getD_some, Bool.not_false, Bool.true_or, Bool.true_and, Bool.false_or]
    rw [firstFail_of_holds, firstFail_of_holds, firstFail_of_holds rfl, firstFail_of_holds opA, firstFail_of_holds opB, firstFail_of_holds,
      firstFail_of_holds rfl, firstFail_of_holds rfl]
    rotate_left
    · cases cls with
      | false => rfl
      | true => exact (outC rfl).1
    · cases cls with
      | false => rfl
      | true => simp [outC, apart]
    · obtain opens | ⟨q, held, rfl, rfl, rfl, rfl⟩ := chain
      · simp [opens]
      · simp [held]
    by_cases room : (x.chainFor m n f e opn).k + k ≤ 2 ^ 32
    · rw [firstFail_of_holds (decide_eq_true room), if_pos room, Ctx.inFlight_nil x still]
      rfl
    · rw [firstFail_of_fails (decide_eq_false room), if_neg room]
      rfl

/-- With EXP, MMA starts the compressed stream of its B, and the descriptor moves past those blocks (R175). -/
theorem mma_exp_does (i : BitVec 4) (room : (x.chainFor m n f e opn).k + k ≤ 2 ^ 32) (float : f ≠ .int8) (whole : k * n % 256 = 0)
    (kind : (x.getD i).kind = 3) (form : (x.getD i).compressedForm = true) (elements : (x.getD i).fmt = e.code)
    (admitted : s.compressedOk x (x.getD i) = true) (some' : 1 ≤ (x.getD i).length) (blocks : k * n / 256 ≤ (x.getD i).length)
    (ready : MemoryReady s slot x) (streams : s.streamsFull (slot / 8) = false) :
    Does s slot c x 0x40 .mma { MWord.gate pn pr with
        sa := ra
        sc := rc
        fmt := fm
        imm := BitVec.ofNat 64 (m + n * 2 ^ 16 + k * 2 ^ 32)
        md := BitVec.ofNat 4 (bit01 opn + 2 * bit01 cls + 4)
        aux := BitVec.ofNat 8 (e.code + 16 * i.toNat) }
      (s.startStream slot c
        (x.setD i { x.getD i with
          w0 := BitVec.ofNat 64 (putBits 51 0 (x.getD i).w0.toNat ((x.getD i).offset + k * n / 256))
          w2 := BitVec.ofNat 64 (putBits 63 32 (x.getD i).w2.toNat ((x.getD i).length - k * n / 256)) })
        (Outst.blank (x.getD i).handle [] false
          (.mmaExp i (x.getD i).offset m n k f e (x.getS ra).toNat (x.getS rc).toNat opn cls))
        (mkRef (x.getD i).handle (x.getD i).hgen) (x.getD i).offset (k * n / 256) .compute) := by
  obtain ⟨-, engine, queues⟩ := ready
  generalize hn : m + n * 2 ^ 16 + k * 2 ^ 32 = z
  have number : (BitVec.ofNat 64 z).toNat = z := toNat_ofNat_of_lt 64 (by omega)
  have fieldM : bitsOf 15 0 z = m := by rw [bitsOf]; omega
  have fieldN : bitsOf 31 16 z = n := by rw [bitsOf]; omega
  have fieldK : bitsOf 63 32 z = k := by rw [bitsOf]; omega
  obtain ⟨bit0, bit1, bit2, md⟩ := modBits_ends_exp opn cls
  obtain ⟨auxFormat, auxDesc⟩ := expanderAux e i
  have codeA := Fmt.code_of_ofCode code
  refine does_of_issueWith rfl rfl (by decide) ?_ (fun _ => enabled) ?_
  · have format := contains_of_mmaFormats pair
    simp only [Shape.ok, MWord.gate, MWord.immBits, MWord.auxBits, MWord.modBit, MWord.format, bit0, bit1, bit2, md, number, fieldM,
      fieldN, fieldK, auxFormat, if_true, format, m1, m64, n1, n64, k1, pair, code, whole, Option.getD_some, ← codeA]
    simpa using float
  · have unfenced : x.fenced false = false := by simp [Ctx.fenced, still]
    have lengths : decide (1 ≤ (x.getD i).length ∧ k * n / 256 ≤ (x.getD i).length) = true := decide_eq_true ⟨some', blocks⟩
    simp only [MWord.immBits, MWord.auxBits, MWord.modBit, MWord.format, MWord.gate, bit0, bit1, bit2, number, fieldM, fieldN, fieldK,
      auxFormat, auxDesc, code, Fmt.ofCode_code, Option.getD_some, Bool.not_true, Bool.false_or, Bool.true_or, Bool.false_and,
      Bool.or_false]
    rw [firstFail_of_holds, firstFail_of_holds, firstFail_of_holds, firstFail_of_holds opA, firstFail_of_holds rfl, firstFail_of_holds,
      firstFail_of_holds admitted, firstFail_of_holds lengths, firstFail_of_holds (decide_eq_true room)]
    · simp only [firstFail, Ctx.inFlight_nil x still, unfenced, streams, engine, queues, Bool.false_eq_true, if_false, if_true,
        Bool.not_true]
    · cases cls with
      | false => rfl
      | true => exact (outC rfl).1
    · simp [kind, form, elements]
    · cases cls with
      | false => rfl
      | true => simp [outC]
    · obtain opens | ⟨q, held, rfl, rfl, rfl, rfl⟩ := chain
      · simp [opens]
      · simp [held]

end Mma

/-- Settles O11: from scratch by the room of the chain, with EXP by the checks of the compressed stream. -/
theorem matrixMultiply : Obligations.MatrixMultiply := by
  intro s slot c x pn pr ra rb rc i fm f e m n k opn cls enabled still code pair m1 m64 n1 n64 k1 k32 chain a b t A B k0 w ends opA outC
  refine ⟨fun opB apart => ?_, fun room float whole kind form elements admitted some' blocks ready streams => ?_⟩
  · have does := fun t => mma_does s slot c enabled still ra rb rc opn cls code pair m1 m64 n1 n64 k1 k32 chain opA outC opB apart (t := t)
    exact ⟨fun room => does _ (if_pos room), fun full => does _ (if_neg (Nat.not_le.mpr full))⟩
  · exact mma_exp_does s slot c enabled still ra rc opn cls code pair m1 m64 n1 n64 k1 k32 chain opA outC i room float whole kind form
      elements admitted some' blocks ready streams

end Sys2Proof.Machine
end

section
/-!
PROOFS. The memory instructions begin their lines (R127 to R135, R138, R156, R174).
-/
namespace Sys2Proof.Machine

/-! ### A memory instruction that can begin -/

section Begin
variable {s : State} {slot c : Nat} {x y : Ctx} {opc : Nat} {i : Nat → MWord → Instr} {w : MWord} {h : Shape}
  {own gated store comet engine : Bool} {body : Ctx → MRes}

/-- No comet out, no fence holds (R139). -/
theorem Ctx.fenced_of_still (still : x.comets = []) (store : Bool) : x.fenced store = false := by
  rw [Ctx.fenced, still, List.any_nil]

/-- A memory instruction that can begin starts its lines (R128, R130). -/
theorem does_of_memIssue_start {q : Outst} {bytes : Nat}
    (command : exec (i slot w) s = .next (s.memIssue slot w h own gated store comet engine body)) (code : h.opc = opc)
    (listed : opcodes.contains opc = true) (unit : IssueSlot.of opc = .memory) (wellFormed : (h.ok w && own) = true)
    (enabled : gated = true → x.enabled w 0 = true) (ready : MemoryReady s slot x) (result : body x = .start y q bytes) :
    Does s slot c x opc i w (s.startMem slot c y q bytes engine comet .memory) := by
  obtain ⟨still, free, queues⟩ := ready
  refine does_of_issueWith command code listed wellFormed enabled ?_
  simp [result, code, unit, Ctx.fenced_of_still still, still, free, queues]

/-- A memory instruction that can begin starts its compressed stream (R174). -/
theorem does_of_memIssue_stream {q : Outst} {ref b n : Nat} {u : IssueSlot}
    (command : exec (i slot w) s = .next (s.memIssue slot w h own gated store comet engine body)) (code : h.opc = opc)
    (listed : opcodes.contains opc = true) (unit : IssueSlot.of opc = u) (wellFormed : (h.ok w && own) = true)
    (enabled : gated = true → x.enabled w 0 = true) (ready : MemoryReady s slot x) (result : body x = .stream y q ref b n) :
    Does s slot c x opc i w (s.startStream slot c y q ref b n u) := by
  obtain ⟨still, free, queues⟩ := ready
  refine does_of_issueWith command code listed wellFormed enabled ?_
  simp [result, code, unit, Ctx.fenced_of_still still, free, queues]

theorem mchecked_of_holds {cs : List (Bool × Exc)} {r : MRes} (hold : firstFail cs = none) : mchecked cs r = r := by
  rw [mchecked, hold]

end Begin

/-- Records that lie in the window are the records checked against the object (R129). -/
theorem windowed_of_inWindow {d : Desc} {rs : List (Int × Nat)} (inside : inWindow d rs = true) : windowed d rs = rs := by
  refine List.filter_eq_self.mpr fun r member => ?_
  rw [inWindow, List.all_cons, List.all_nil, Bool.and_true]
  exact List.all_eq_true.mp inside r member

/-- A descriptor of a readable or writable object that is not compressed suits an access (R129). -/
theorem Desc.usable_of {d : Desc} {rd wr : Bool} (reads : rd = true → d.rd = true) (writes : wr = true → d.wr = true)
    (kind : d.kind ≠ 3) : d.usable rd wr = true := by
  simp only [Desc.usable, Bool.or_eq_true, Bool.and_eq_true, decide_eq_true_eq]
  right
  refine ⟨⟨?_, ?_⟩, kind⟩
  · cases rd with
    | false => exact .inl rfl
    | true => exact .inr (reads rfl)
  · cases wr with
    | false => exact .inl rfl
    | true => exact .inr (writes rfl)

section Moves
variable (s : State) (slot c : Nat) {x : Ctx} {pn : Bool} {pr : BitVec 3} (enabled : x.enabled (MWord.gate pn pr) 0 = true)
  (ready : MemoryReady s slot x)
include enabled ready

/-- A stream move within its ranges begins the lines of its records (R128, R129, R133). -/
theorem streamMove_does {opc : Nat} {j : Nat → MWord → Instr} {store comet : Bool}
    (command : ∀ w, exec (j slot w) s = .next (s.streamMove slot w opc store comet)) (known : opcodes.contains opc = true)
    (unit : IssueSlot.of opc = .memory) (ra rb : BitVec 5) (i : BitVec 4) {n k : Nat} (some' : 0 < n) (small : n < 2 ^ 32)
    (counter : k < 256) (plain : comet = false → k = 0) (kind : (x.getD i).kind ≠ 3) :
    let d := x.getD i
    let a := (x.getS ra).toNat
    let b := x.getS rb
    let bytes := if d.kind = 0 then n else n * d.reclen
    let rs := streamRecords d b n (fun r => memNat x.scratch (b.toNat + 8 * r) 8)
    let ps := streamPieces a rs
    x.scratchOk a bytes 1 = true → (d.kind = 2 → x.scratchOk b.toNat (8 * n) 8 = true) →
    inObject (s.descSize d) rs = true → inWindow d rs = true →
    (store = false → d.rd = true) → (store = true → d.wr = true) → s.descOk x d (!store) store = true →
    Does s slot c x opc j { MWord.gate pn pr with sa := ra, sb := rb, aux := i.setWidth 8, imm := BitVec.ofNat 64 (n + k * 2 ^ 32) }
      (s.startMem slot c x { Outst.blank d.handle (linesOf (ps.map (fun p => (p.1, p.2.1)))) store
          (if store then .store (ps.map (fun p => (p.1, memRead x.scratch p.2.2 p.2.1))) else .load ps) with
        ac := k
        dstRange := if comet && !store then (a, bytes) else (0, 0)
        srcRange := if comet && store then (a, bytes) else (0, 0) } bytes true comet .memory) := by
  intro d a b bytes rs ps dest index within window reads writes rights
  have number : (BitVec.ofNat 64 (n + k * 2 ^ 32)).toNat = n + k * 2 ^ 32 := toNat_ofNat_of_lt 64 (by omega)
  have fieldN : bitsOf 31 0 (n + k * 2 ^ 32) = n := by rw [bitsOf]; omega
  have fieldK : bitsOf 39 32 (n + k * 2 ^ 32) = k := by rw [bitsOf]; omega
  refine does_of_memIssue_start (command _) rfl known unit ?_ (fun _ => enabled) ready ?_
  · have above : (n + k * 2 ^ 32) &&& ((2 ^ 64 - 1) ^^^ (if comet then 2 ^ 40 - 1 else 2 ^ 32 - 1)) = 0 := by
      cases comet with
      | false => exact and_above_mask _ 32 (by have zero := plain rfl; omega) (by decide)
      | true => exact and_above_mask _ 40 (by omega) (by decide)
    simp only [Shape.ok, MWord.gate, MWord.immBits, number, fieldN, descAux_and_mask, above]
    simpa using Nat.ne_of_gt some'
  · have still := ready.1
    have usable : d.usable (!store) store = true := Desc.usable_of (by simpa using reads) writes kind
    have gathers : (!(decide (d.kind = 2)) || x.scratchOk b.toNat (8 * n) 8) = true := by
      by_cases gather : d.kind = 2
      · simp [gather, index]
      · simp [gather]
    have object : (s.descOk x d (!store) store && inObject (s.descSize d) (windowed d rs)) = true := by
      rw [windowed_of_inWindow window, rights, within]
      rfl
    simp only [MWord.desc_of_aux, MWord.gate, MWord.immBits, number, fieldN, fieldK]
    rw [mchecked_of_holds, Ctx.inFlight_nil x still]
    · exact mchecked_of_holds (by rw [firstFail_of_holds object, firstFail_of_holds window]; rfl)
    · rw [firstFail_of_holds usable, firstFail_of_holds dest, firstFail_of_holds gathers]
      rfl

end Moves

/-- An 8-byte word inside the window and the object passes the checks of a word access (R129, R134). -/
theorem word_inside {d : Desc} {size at' : Nat} (low : d.offset ≤ at') (window : at' + 8 ≤ d.offset + d.length) (object : at' + 8 ≤ size) :
    inWindow d [((at' : Int), 8)] = true ∧ inObject size (windowed d [((at' : Int), 8)]) = true := by
  have inside : inWindow d [((at' : Int), 8)] = true := by
    simp only [inWindow, List.all_cons, List.all_nil, Bool.and_true, Bool.and_eq_true, decide_eq_true_eq]
    omega
  rw [windowed_of_inWindow inside]
  refine ⟨inside, ?_⟩
  simp only [inObject, List.all_cons, List.all_nil, Bool.and_true, Bool.and_eq_true, decide_eq_true_eq]
  omega

section Words
variable (s : State) (slot c : Nat) {x : Ctx} {pn : Bool} {pr : BitVec 3} (enabled : x.enabled (MWord.gate pn pr) 0 = true)
  (ready : MemoryReady s slot x) (i : BitVec 4) (reads : (x.getD i).rd = true) (writes : (x.getD i).wr = true)
  (kind : (x.getD i).kind ≠ 3) (rights : s.descOk x (x.getD i) true true = true)
include enabled ready reads writes kind rights

theorem amo_does (rd ra rb rc : BitVec 5) {m : Nat} (function : m < 8) (unused : m ≠ 7 → rc = 0)
    (aligned : ((x.getD i).offset + (x.getS rb).toNat) % 8 = 0)
    (object : (x.getD i).offset + (x.getS rb).toNat + 8 ≤ s.descSize (x.getD i))
    (window : (x.getS rb).toNat + 8 ≤ (x.getD i).length) :
    Does s slot c x 0x85 .amo { MWord.gate pn pr with
        sa := ra, aux := i.setWidth 8, dst := rd, sb := rb, sc := rc, md := BitVec.ofNat 4 m }
      (s.startMem slot c x (Outst.blank (x.getD i).handle (linesOf [((x.getD i).offset + (x.getS rb).toNat, 8)]) true
        (.amo ((x.getD i).offset + (x.getS rb).toNat) m (x.getS ra).toNat (x.getS rc).toNat rd.toNat)) 8 false false .memory) := by
  have number : (BitVec.ofNat 4 m).toNat = m := toNat_ofNat_of_lt 4 (by omega)
  refine does_of_memIssue_start rfl rfl (by decide) rfl ?_ (fun _ => enabled) ready ?_
  · have compare : (decide (BitVec.ofNat 4 m = 7) || decide (rc = 0)) = true := by
      by_cases cas : m = 7
      · subst cas
        rfl
      · rw [decide_eq_true (unused cas), Bool.or_true]
    simp only [Shape.ok, MWord.gate, number, descAux_and_mask, function, compare]
    simp
  · obtain ⟨inWin, inObj⟩ := word_inside (Nat.le_add_right _ (x.getS rb).toNat) (by omega) object
    have usable : ((x.getD i).usable true true && ((x.getD i).invalid ||
        decide (((x.getD i).offset + (x.getS rb).toNat) % 8 = 0))) = true := by
      rw [Desc.usable_of (fun _ => reads) (fun _ => writes) kind, decide_eq_true aligned, Bool.or_true, Bool.and_true]
    simp only [MWord.desc_of_aux, MWord.gate, number]
    refine mchecked_of_holds ?_
    rw [firstFail_of_holds usable, firstFail_of_holds (Bool.and_eq_true_iff.mpr ⟨rights, inObj⟩), firstFail_of_holds inWin]
    rfl

theorem pub_does (rd ra rb : BitVec 5) {t : Nat} (code : t < 8) (aligned : (x.getD i).offset % 8 = 0)
    (object : (x.getD i).offset + 8 ≤ s.descSize (x.getD i)) (window : 8 ≤ (x.getD i).length) :
    Does s slot c x 0x86 .pub { MWord.gate pn pr with
        sa := ra, aux := i.setWidth 8, dst := rd, sb := rb, imm := BitVec.ofNat 64 t }
      (s.startMem slot c x (Outst.blank (x.getD i).handle (linesOf [((x.getD i).offset, 8)]) true
        (.pub (x.getD i).offset (x.getS ra).toNat (x.getS rb).toNat rd.toNat t)) 8 false false .memory) := by
  have number : (BitVec.ofNat 64 t).toNat = t := toNat_ofNat_of_lt 64 (by omega)
  have field : bitsOf 2 0 t = t := by rw [bitsOf]; omega
  refine does_of_memIssue_start rfl rfl (by decide) rfl ?_ (fun _ => enabled) ready ?_
  · have above := and_above_mask t 3 code (by decide)
    simp only [Shape.ok, MWord.gate, number, descAux_and_mask]
    simpa using above
  · obtain ⟨inWin, inObj⟩ := word_inside (Nat.le_refl _) (Nat.add_le_add_left window _) object
    have usable : ((x.getD i).usable true true && ((x.getD i).invalid || decide ((x.getD i).offset % 8 = 0))) = true := by
      rw [Desc.usable_of (fun _ => reads) (fun _ => writes) kind, decide_eq_true aligned, Bool.or_true, Bool.and_true]
    simp only [MWord.desc_of_aux, MWord.gate, MWord.immBits, number, field, ready.1, List.any_nil, Bool.false_eq_true, if_false]
    refine mchecked_of_holds ?_
    rw [firstFail_of_holds usable, firstFail_of_holds (Bool.and_eq_true_iff.mpr ⟨rights, inObj⟩), firstFail_of_holds inWin]
    rfl

end Words

theorem nested_ite {α : Type} (p q : Prop) [Decidable p] [Decidable q] (a b : α) :
    (if p then if q then a else b else b) = if p ∧ q then a else b := by
  by_cases first : p
  · rw [if_pos first]
    exact ite_congr (propext ⟨fun second => ⟨first, second⟩, fun both => both.2⟩) (fun _ => rfl) (fun _ => rfl)
  · rw [if_neg first, if_neg fun both => first both.1]

section Blocks
variable (s : State) (slot c : Nat) {x : Ctx} (pn : Bool) (pr : BitVec 3) (ready : MemoryReady s slot x) (i : BitVec 4) (ra : BitVec 5)
include ready

/-- The bits of the enabled IDs of a list that lie in the window of a bitmap (R156). -/
theorem bmtst_does (rd : BitVec 5) {n : Nat} (n1 : 1 ≤ n) (n256 : n ≤ 256) (pred : rd.toNat < 8) (reads : (x.getD i).rd = true)
    (kind : (x.getD i).kind = 0) (lanes : x.lanesOk (MWord.gate pn pr) (x.getS ra).toNat 8 n 8 = true)
    (rights : s.descOk x (x.getD i) true false = true) (object : (x.getD i).offset + (x.getD i).length ≤ s.descSize (x.getD i)) :
    let bits := (List.range n).map (fun k =>
      let id := memNat x.scratch ((x.getS ra).toNat + 8 * k) 8 % 2 ^ 40
      if x.enabled (MWord.gate pn pr) k = true ∧ id / 8 < (x.getD i).length then some ((x.getD i).offset + id / 8, id % 8) else none)
    Does s slot c x 0xA4 .bmtst { MWord.gate pn pr with sa := ra, aux := i.setWidth 8, dst := rd, imm := BitVec.ofNat 64 n }
      (s.startMem slot c x (Outst.blank (x.getD i).handle (linesOf (bits.filterMap (fun e => e.map (fun p => (p.1, 1))))) false
        (.bitmap bits rd.toNat)) 0 false false .memory) := by
  intro bits
  have number : (BitVec.ofNat 64 n).toNat = n := toNat_ofNat_of_lt 64 (by omega)
  have field : bitsOf 15 0 n = n := by rw [bitsOf]; omega
  refine does_of_memIssue_start rfl rfl (by decide) rfl ?_ (fun gated => nomatch gated) ready ?_
  · have above := and_above_mask n 16 (by omega) (by decide)
    simp only [Shape.ok, MWord.gate, MWord.immBits, number, field, descAux_and_mask, n1, n256, pred]
    simpa using above
  · have inObj : (bits.filterMap (fun e => e.map (fun p => (p.1, 1)))).all
        (fun r => decide (r.1 < s.descSize (x.getD i))) = true := by
      refine List.all_eq_true.mpr fun r member => decide_eq_true ?_
      obtain ⟨entry, listed, named⟩ := List.mem_filterMap.mp member
      obtain ⟨e, rfl, rfl⟩ := Option.map_eq_some_iff.mp named
      obtain ⟨k, -, value⟩ := List.mem_map.mp listed
      dsimp only at value
      split at value
      · obtain ⟨-, below⟩ := ‹_ ∧ _›
        obtain rfl := Option.some.inj value
        show (x.getD i).offset + _ < _
        omega
      · exact nomatch value
    have usable : ((x.getD i).invalid || ((x.getD i).rd && decide ((x.getD i).kind = 0))) = true := by
      rw [reads, kind]
      exact Bool.or_true _
    simp only [MWord.desc_of_aux, MWord.immBits, number, field, Ctx.inFlight_nil x ready.1, Bool.false_eq_true, if_false, nested_ite]
    refine (mchecked_of_holds ?_).trans (mchecked_of_holds ?_)
    · exact (firstFail_of_holds usable).trans (firstFail_of_holds lanes)
    · exact firstFail_of_holds (Bool.and_eq_true_iff.mpr ⟨rights, inObj⟩)

theorem expd_does (enabled : x.enabled (MWord.gate pn pr) 0 = true) (rb : BitVec 5) {fm : BitVec 4} {f : Fmt} {n : Nat}
    (n1 : 0 < n) (n32 : n < 2 ^ 32)
    (listed : fm.toNat ∈ [1, 2, 3, 4]) (code : Fmt.ofCode fm.toNat = some f) (kind : (x.getD i).kind = 3)
    (form : (x.getD i).compressedForm = true) (elements : (x.getD i).fmt = fm.toNat)
    (dest : x.scratchOk (x.getS ra).toNat (n * 256 * f.bytes) f.bytes = true) (admitted : s.compressedOk x (x.getD i) = true)
    (blocks : (x.getS rb).toNat + n ≤ (x.getD i).length) (streams : s.streamsFull (slot / 8) = false) :
    Does s slot c x 0x84 .expd { MWord.gate pn pr with
        sa := ra, aux := i.setWidth 8, sb := rb, fmt := fm, imm := BitVec.ofNat 64 n }
      (s.startStream slot c x (Outst.blank (x.getD i).handle [] false
        (.expand ((x.getD i).offset + (x.getS rb).toNat) n (x.getS ra).toNat f)) (mkRef (x.getD i).handle (x.getD i).hgen)
        ((x.getD i).offset + (x.getS rb).toNat) n .compute) := by
  have number : (BitVec.ofNat 64 n).toNat = n := toNat_ofNat_of_lt 64 (by omega)
  have field : bitsOf 31 0 n = n := by rw [bitsOf]; omega
  refine does_of_memIssue_stream rfl rfl (by decide) rfl ?_ (fun _ => enabled) ready ?_
  · have above := and_above_mask n 32 n32 (by decide)
    have format : ([1, 2, 3, 4] : List Nat).contains fm.toNat = true := by simpa using listed
    have some' : decide (n ≠ 0) = true := decide_eq_true (Nat.ne_of_gt n1)
    simp only [Shape.ok, MWord.gate, MWord.immBits, number, field, descAux_and_mask, format, some']
    simpa using above
  · have usable : ((x.getD i).invalid || (decide ((x.getD i).kind = 3) && (x.getD i).compressedForm &&
        decide ((x.getD i).fmt = fm.toNat))) = true := by
      simp [kind, form, elements]
    simp only [MWord.desc_of_aux, MWord.gate, MWord.immBits, MWord.format, number, field, code, Option.getD_some,
      Ctx.inFlight_nil x ready.1, streams, Bool.false_eq_true, if_false]
    refine (mchecked_of_holds ?_).trans (mchecked_of_holds ?_)
    · rw [firstFail_of_holds usable, firstFail_of_holds dest]
      rfl
    · rw [firstFail_of_holds admitted, firstFail_of_holds (decide_eq_true blocks)]
      rfl

end Blocks

/-- Settles O12: the four stream moves, LD and ST with no counter in IMM. -/
theorem streamMovesBegin : Obligations.StreamMovesBegin := by
  intro s slot c x pn pr ra rb i n k enabled ready some' small counter d a b bytes rs ps lines data w sync comet kind dest index within
    window
  refine ⟨fun reads rights => ⟨?_, ?_⟩, fun writes rights => ⟨?_, ?_⟩⟩
  · exact streamMove_does s slot c enabled ready (store := false) (comet := false) (fun _ => rfl) (by decide) rfl ra rb i (k := 0) some' small
      (by decide) (fun _ => rfl) kind dest index within window (fun _ => reads) nofun rights
  · exact streamMove_does s slot c enabled ready (store := false) (comet := true) (fun _ => rfl) (by decide) rfl ra rb i some' small counter
      nofun kind dest index within window (fun _ => reads) nofun rights
  · exact streamMove_does s slot c enabled ready (store := true) (comet := false) (fun _ => rfl) (by decide) rfl ra rb i (k := 0) some' small
      (by decide) (fun _ => rfl) kind dest index within window nofun (fun _ => writes) rights
  · exact streamMove_does s slot c enabled ready (store := true) (comet := true) (fun _ => rfl) (by decide) rfl ra rb i some' small counter
      nofun kind dest index within window nofun (fun _ => writes) rights

/-- Settles O13: the two word accesses by the rights of their descriptor, the bitmap test and the expansion by theirs. -/
theorem wordAndBlockAccessesBegin : Obligations.WordAndBlockAccessesBegin := by
  intro s slot c x pn pr rd ra rb rc i fm m n t f enabled ready d a b w begin'
  refine ⟨fun reads writes kind rights => ⟨fun function unused aligned object window =>
        amo_does s slot c enabled ready i reads writes kind rights rd ra rb rc function unused aligned object window,
      fun code aligned object window => pub_does s slot c enabled ready i reads writes kind rights rd ra rb code aligned object window⟩,
    fun n1 n256 pred reads kind lanes rights object =>
      bmtst_does s slot c pn pr ready i ra rd n1 n256 pred reads kind lanes rights object,
    fun n1 n32 listed code kind form elements dest admitted blocks streams =>
      expd_does s slot c pn pr ready i ra enabled rb n1 n32 listed code kind form elements dest admitted blocks streams⟩

end Sys2Proof.Machine
end

section
/-!
PROOFS. Counters, fences, orbits and messages of a strand (R36 to R39, R137 to R147).
-/
namespace Sys2Proof.Machine

/-- An instruction whose body waits leaves its strand waiting. -/
theorem does_of_issue_stall {s : State} {slot c : Nat} {x : Ctx} {opc : Nat} {i : Nat → MWord → Instr} {w : MWord} {h : Shape}
    {own gated : Bool} {r : Wait} {body : Ctx → IRes}
    (command : exec (i slot w) s = .next (s.issue slot w h own gated body)) (code : h.opc = opc)
    (listed : opcodes.contains opc = true) (wellFormed : (h.ok w && own) = true)
    (enabled : gated = true → x.enabled w 0 = true) (result : body x = .stall r) :
    Does s slot c x opc i w (s.setCtx c { x with wait := r }) := by
  subst code
  intro runs
  rw [command, State.issue_stall body r runs listed wellFormed enabled result]

/-- The number of a counter in IMM (R138). -/
theorem counter_field (k : BitVec 8) : bitsOf 7 0 (k.setWidth 64).toNat = k.toNat ∧
    (k.setWidth 64).toNat &&& ((2 ^ 64 - 1) ^^^ 255) = 0 := by
  have below := k.isLt
  rw [BitVec.toNat_setWidth, Nat.mod_eq_of_lt (show k.toNat < 2 ^ 64 by omega)]
  exact ⟨by rw [bitsOf]; omega, and_above_mask _ 8 below (by decide)⟩

section Sync
variable (s : State) (slot c : Nat) {x : Ctx} {pn : Bool} {pr : BitVec 3} (enabled : x.enabled (MWord.gate pn pr) 0 = true)
include enabled

theorem wait_met_does (a : BitVec 5) (k : BitVec 8) (met : (x.getAc k - (x.getS a).setWidth 32).toNat < 2 ^ 31) :
    Does s slot c x 0x90 .wait { MWord.gate pn pr with sa := a, imm := k.setWidth 64 } (s.retire slot c x .memory) := by
  obtain ⟨field, above⟩ := counter_field k
  refine does_of_issue rfl rfl (by decide) rfl ?_ (fun _ => enabled) ?_
  · simp only [Shape.ok, MWord.gate]
    simpa using above
  · simp only [MWord.immBits, field, BitVec.ofNat_toNat, BitVec.setWidth_eq]
    exact if_pos (decide_eq_true met)

theorem wait_unmet_does (a : BitVec 5) (k : BitVec 8) (unmet : 2 ^ 31 ≤ (x.getAc k - (x.getS a).setWidth 32).toNat) :
    Does s slot c x 0x90 .wait { MWord.gate pn pr with sa := a, imm := k.setWidth 64 }
      (s.setCtx c { x with wait := .counter k.toNat }) := by
  obtain ⟨field, above⟩ := counter_field k
  refine does_of_issue_stall rfl rfl (by decide) ?_ (fun _ => enabled) ?_
  · simp only [Shape.ok, MWord.gate]
    simpa using above
  · simp only [MWord.immBits, field, BitVec.ofNat_toNat, BitVec.setWidth_eq]
    exact if_neg (fun met => absurd (of_decide_eq_true met) (Nat.not_lt.mpr unmet))

theorem acset_does (a : BitVec 5) (k : BitVec 8) :
    Does s slot c x 0x91 .acset { MWord.gate pn pr with sa := a, imm := k.setWidth 64 }
      (s.retire slot c (x.setAc k ((x.getS a).setWidth 32 + BitVec.ofNat 32 (kvGet 0 x.arrived k.toNat))) .memory) := by
  obtain ⟨field, above⟩ := counter_field k
  refine does_of_issue rfl rfl (by decide) rfl ?_ (fun _ => enabled) ?_
  · simp only [Shape.ok, MWord.gate]
    simpa using above
  · simp only [MWord.immBits, field, BitVec.ofNat_toNat, BitVec.setWidth_eq]

theorem acrd_does (d : BitVec 5) (k : BitVec 8) :
    Does s slot c x 0x92 .acrd { MWord.gate pn pr with dst := d, imm := k.setWidth 64 }
      (s.retire slot c (x.setS d ((x.getAc k).setWidth 64)) .memory) := by
  obtain ⟨field, above⟩ := counter_field k
  refine does_of_issue rfl rfl (by decide) rfl ?_ (fun _ => enabled) ?_
  · simp only [Shape.ok, MWord.gate]
    simpa using above
  · simp only [MWord.immBits, field, BitVec.ofNat_toNat, BitVec.setWidth_eq]

theorem fence_does : Does s slot c x 0x93 .fence (MWord.gate pn pr)
    (s.retire slot c { x with fenceAll := x.comets.map (fun q => q.id) } .memory) := by
  refine does_of_issue rfl rfl (by decide) rfl ?_ (fun _ => enabled) rfl
  simp [Shape.ok, MWord.gate]

theorem fence_stores_does : Does s slot c x 0x93 .fence { MWord.gate pn pr with md := 1 }
    (s.retire slot c { x with fenceStores := (x.comets.filter (fun q => q.write)).map (fun q => q.id) } .memory) := by
  refine does_of_issue rfl rfl (by decide) rfl ?_ (fun _ => enabled) rfl
  simp [Shape.ok, MWord.gate]

theorem orbit_does (d : BitVec 5) : Does s slot c x 0x94 .orbit { MWord.gate pn pr with dst := d }
    (if x.enroll then
      ((s.setCtx c { x with atOrbit := some d.toNat, wait := .orbit, issued := true }).noteIssue slot .memory).modPart x.part
        (fun p => { p with executed := true })
    else ((s.setCtx c { x with atOrbit := some d.toNat, wait := .orbit, issued := true }).noteIssue slot .memory).idleEvent
      x.part) := by
  refine does_of_issueWith rfl rfl (by decide) ?_ (fun _ => enabled) rfl
  simp [Shape.ok, MWord.gate]

theorem orq_does (d : BitVec 5) : Does s slot c x 0x95 .orq { MWord.gate pn pr with dst := d }
    (s.retire slot c (x.setS d (BitVec.ofNat 64 ((if (s.part x.part).hostFlag then 1 else 0) +
      (if (s.part x.part).devFlag then 2 else 0) + (if s.stagedAny x.part then 4 else 0) + (s.part x.part).orbit * 2 ^ 24)))
      .memory) := by
  refine does_of_issue rfl rfl (by decide) rfl ?_ (fun _ => enabled) ?_
  · simp [Shape.ok, MWord.gate]
  · have flag : ∀ (n : Nat) (b : Bool), n * bit01 b = if b then n else 0 := fun n b => by cases b <;> simp [bit01]
    simp only [flag]
    rfl

end Sync

/-- The fields of MSGS in IMM: the length, the kind and the counter, with nothing between (R144). -/
theorem message_fields {len kind ai : Nat} (small : len ≤ 4032) (kinds : kind < 256) (counters : ai < 256) :
    let n := len + kind * 2 ^ 16 + ai * 2 ^ 32
    n &&& ((2 ^ 64 - 1) ^^^ 0xFF00FFFFFF) = 0 := by
  intro n
  have low := and_above_mask n 40 (by omega) (by decide)
  have gap : n &&& 0xFF000000 = 0 := by
    refine Nat.eq_of_testBit_eq fun i => ?_
    rw [Nat.testBit_and, Nat.zero_testBit, show (0xFF000000 : Nat) = (2 ^ 8 - 1) <<< 24 from rfl, Nat.testBit_shiftLeft,
      Nat.testBit_two_pow_sub_one]
    by_cases inside : 24 ≤ i ∧ i - 24 < 8
    · obtain ⟨above, below⟩ := inside
      have bit := Nat.testBit_mod_two_pow (n / 2 ^ 24) 8 (i - 24)
      rw [show n / 2 ^ 24 % 2 ^ 8 = 0 by omega, Nat.zero_testBit, Nat.testBit_div_two_pow, Nat.sub_add_cancel above,
        decide_eq_true below, Bool.true_and] at bit
      rw [← bit, Bool.false_and]
    · have outside : (decide (i ≥ 24) && decide (i - 24 < 8)) = false := by simpa using inside
      rw [outside, Bool.and_false]
  rw [show (2 ^ 64 - 1) ^^^ 0xFF00FFFFFF = ((2 ^ 64 - 1) ^^^ (2 ^ 40 - 1)) ||| 0xFF000000 from rfl, Nat.and_or_distrib_left, low, gap]
  rfl

theorem modBit0_flag (b : Bool) : bitAt 0 (if b then 1 else 0 : BitVec 4).toNat = b ∧
    (if b then 1 else 0 : BitVec 4).toNat &&& (15 ^^^ 1) = 0 := by
  cases b <;> exact ⟨rfl, rfl⟩

/-- The checks of a receive: room in scratch for a message, and a ring (R147). -/
theorem ring_checks {x : Ctx} {p : Nat} (room : x.scratchOk p 4096 64 = true) (ring : x.ringSlots ≠ 0) :
    firstFail [(x.scratchOk p 4096 64, Exc.scratch), (decide (x.ringSlots ≠ 0), Exc.ring)] = none := by
  rw [firstFail_of_holds room, firstFail_of_holds (decide_eq_true ring)]
  rfl

section Messages
variable (s : State) (slot c : Nat) {x : Ctx} {pn : Bool} {pr : BitVec 3} (enabled : x.enabled (MWord.gate pn pr) 0 = true)
  (ready : MemoryReady s slot x) (a : BitVec 5)
include enabled ready

/-- A message of a valid entry leaves as a comet (R143 to R146). -/
theorem msgs_does (b : BitVec 5) {len kind ai : Nat} (last : Bool) (one : 1 ≤ len) (small : len ≤ 4032) (kinds : kind < 256)
    (counters : ai < 256) :
    let p := (x.getS a).toNat
    let en := (x.getS b).toNat % 2 ^ 16
    let rm := (s.part x.part).routeCur
    let e := kvGet [] rm.entries en
    let seq := kvGet 0 x.seqs en
    let payload := memRead x.scratch p len
    let msg : Msg := ⟨msgHeader (s.ownPbr.getD 0) x.part len kind seq (x.ref c) rm.gen x.tenant x.job last, payload⟩
    let y := { x with seqs := kvSet x.seqs en ((seq + 1) % 2 ^ 64) }
    let s1 := if reLocal e then s else s.digestAdd x.part (3 :: en :: payload.map (fun v => v.toNat))
    let s2 := s1.startMem slot c y { Outst.blank 0 [] false (.message en kind msg) with ac := ai, srcRange := (p, len) } len true
      true .memory
    x.scratchOk p len 1 = true → reKind e = 3 → (reLocal e = true ∨ s1.suppressed x.part = false) →
    Does s slot c x 0x98 .msgs { MWord.gate pn pr with
        sa := a
        sb := b
        md := if last then 1 else 0
        imm := BitVec.ofNat 64 (len + kind * 2 ^ 16 + ai * 2 ^ 32) }
      (s2.requestRun (.comet c s1.fresh.1) x.part (64 + len) (if reLocal e then 256 else s2.peerPort (rePbr e))
        (if reLocal e then s2.sliceOfRef (reCtx e) else s2.peerPort (rePbr e))) := by
  have above := message_fields small kinds counters
  generalize hn : len + kind * 2 ^ 16 + ai * 2 ^ 32 = n at above ⊢
  intro p en rm e seq payload msg y s1 s2 source kind3 outward
  have number : (BitVec.ofNat 64 n).toNat = n := toNat_ofNat_of_lt 64 (by omega)
  have fieldL : bitsOf 15 0 n = len := by rw [bitsOf]; omega
  have fieldK : bitsOf 23 16 n = kind := by rw [bitsOf]; omega
  have fieldA : bitsOf 39 32 n = ai := by rw [bitsOf]; omega
  obtain ⟨bit, md⟩ := modBit0_flag last
  obtain ⟨still, engine, queues⟩ := ready
  refine does_of_issueWith rfl rfl (by decide) ?_ (fun _ => enabled) ?_
  · simp only [Shape.ok, MWord.gate, MWord.immBits, number, fieldL, md, one, small]
    simpa using above
  · have sent : (!reLocal e && s1.suppressed x.part) = false := by
      obtain here | loud := outward
      · rw [here]
        rfl
      · rw [loud, Bool.and_false]
    have checks : firstFail [(x.scratchOk p len 1, Exc.scratch), (decide (reKind e = 3), Exc.route)] = none :=
      (firstFail_of_holds source).trans (firstFail_of_holds (decide_eq_true kind3))
    have unblocked : (x.inFlight [(p, len)] [] || x.fenced true || decide (64 ≤ x.comets.length)) = false := by
      rw [Ctx.inFlight_nil x still, Ctx.fenced_of_still still, still]
      rfl
    simp only [MWord.immBits, MWord.modBit, MWord.gate, number, fieldL, fieldK, fieldA, bit, engine, queues]
    rw [checks]
    rw [if_neg (Bool.eq_false_iff.mp unblocked), if_neg (by decide), if_neg (by decide)]
    exact if_neg (Bool.eq_false_iff.mp sent)

section Receive
variable (room : x.scratchOk (x.getS a).toNat 4096 64 = true) (ring : x.ringSlots ≠ 0)
include room ring

theorem msgr_does (d : BitVec 5) (last : Bool) {m : Msg} {r : List Msg} (oldest : x.ring = m :: r) :
    Does s slot c x 0x99 .msgr { MWord.gate pn pr with dst := d, sa := a, md := if last then 1 else 0 }
      (s.retire slot c (({ x with ring := r }.putScratch (x.getS a).toNat (m.header ++ m.payload)).setS d
        (BitVec.ofNat 64 (m.header ++ m.payload).length)) .memory) := by
  obtain ⟨bit, md⟩ := modBit0_flag last
  refine does_of_issue rfl rfl (by decide) rfl ?_ (fun _ => enabled) ?_
  · simp only [Shape.ok, MWord.gate, md]
    simp
  · simp only [oldest, Ctx.guarded_nil x ready.1]
    exact checked_ok _ _ (ring_checks room ring)

theorem msgr_empty_does (d : BitVec 5) (empty : x.ring = []) :
    Does s slot c x 0x99 .msgr { MWord.gate pn pr with dst := d, sa := a, md := 1 } (s.retire slot c (x.setS d 0) .memory) := by
  refine does_of_issue rfl rfl (by decide) rfl ?_ (fun _ => enabled) ?_
  · simp [Shape.ok, MWord.gate]
  · simp only [empty]
    rw [checked_ok _ _ (ring_checks room ring)]
    exact if_pos (show bitAt 0 (1 : BitVec 4).toNat = true by decide)

theorem msgr_waits_does (d : BitVec 5) (empty : x.ring = []) :
    Does s slot c x 0x99 .msgr { MWord.gate pn pr with dst := d, sa := a } (s.setCtx c { x with wait := .result }) := by
  refine does_of_issue_stall rfl rfl (by decide) ?_ (fun _ => enabled) ?_
  · simp [Shape.ok, MWord.gate]
  · simp only [empty]
    rw [checked_ok _ _ (ring_checks room ring)]
    exact if_neg (show ¬bitAt 0 (0 : BitVec 4).toNat = true by decide)

end Receive

end Messages

/-- Settles O14: the counters, fences and the boundary, then messages sent and received. -/
theorem synchronisationAndMessages : Obligations.SynchronisationAndMessages := by
  constructor
  · intro s slot c x pn pr d a k enabled g done
    refine ⟨wait_met_does s slot c enabled a k, wait_unmet_does s slot c enabled a k, acset_does s slot c enabled a k,
      acrd_does s slot c enabled d k, fence_does s slot c enabled, fence_stores_does s slot c enabled, ⟨fun enrolled => ?_,
      fun free => ?_⟩, orq_does s slot c enabled d⟩
    · have does := orbit_does s slot c enabled d
      rw [if_pos enrolled] at does
      exact does
    · have does := orbit_does s slot c enabled d
      rw [if_neg (Bool.eq_false_iff.mp free)] at does
      exact does
  · intro s slot c x pn pr d a b len kind ai last enabled ready one small kinds counters g p en rm e seq payload msg y s1 s2
    exact ⟨msgs_does s slot c enabled ready a b last one small kinds counters, fun room ring =>
      ⟨fun m r => msgr_does s slot c enabled ready a room ring d last, fun empty =>
        ⟨msgr_empty_does s slot c enabled ready a room ring d empty, msgr_waits_does s slot c enabled ready a room ring d empty⟩⟩⟩

end Sys2Proof.Machine
end

section
/-!
PROOFS. Tiles, merges and the walkers of vector search (R148 to R157).
-/
namespace Sys2Proof.Machine

/-! ### Tiles and merges (R149 to R151) -/

section Tiles
variable (s : State) (slot c : Nat) {x : Ctx} {pn : Bool} {pr : BitVec 3} (enabled : x.enabled (MWord.gate pn pr) 0 = true)
  (a : BitVec 5)
include enabled

section Begin
variable {t u : Nat} (t1 : 1 ≤ t) (t20 : t ≤ 2 ^ 20) (u1 : 1 ≤ u) (u256 : u ≤ 256)
include t1 t20 u1 u256

/-- TBEGIN of any step comes to what its body gives (R149). -/
theorem tbegin_does {z : State} (body : (match s.step? x.part x.job (x.getS a).toNat with
      | some st => if st.t = t ∧ st.units = u then s.retire slot c x .memory else s.except slot c x .tile .memory
      | none =>
        if 5 ≤ ((s.part x.part).steps.filter (fun q => decide (q.job = x.job) && !q.finished)).length then
          s.except slot c x .tile .memory
        else if s.mergeSpace x.part < s.mergeUsed x.part + (t + 1) * u * 256 then s.except slot c x .tile .memory
        else (s.modPart x.part (fun p => { p with steps := p.steps ++ [⟨x.job, (x.getS a).toNat, t, u, s.jobMoons x.part x.job,
          dealOver [] (List.range t) (s.jobMoons x.part x.job), [], [], [], false⟩] })).retire slot c x .memory) = z) :
    Does s slot c x 0x9C .tbegin { MWord.gate pn pr with sa := a, imm := BitVec.ofNat 64 (t + u * 2 ^ 32) } z := by
  generalize hn : t + u * 2 ^ 32 = n
  have number : (BitVec.ofNat 64 n).toNat = n := toNat_ofNat_of_lt 64 (by omega)
  have fieldT : bitsOf 31 0 n = t := by rw [bitsOf]; omega
  have fieldU : bitsOf 47 32 n = u := by rw [bitsOf]; omega
  have above := and_above_mask n 48 (by omega) (by decide)
  refine does_of_issueWith rfl rfl (by decide) ?_ (fun _ => enabled) (Eq.trans ?_ body)
  · simp only [Shape.ok, MWord.gate, MWord.immBits, number, fieldT, fieldU, t1, t20, u1, u256]
    simpa using above
  · simp only [MWord.immBits, number, fieldT, fieldU] <;> rfl

end Begin

theorem tclm_does {d : BitVec 5} {st : Step} {n : Nat} (pair : d.toNat ≤ 29) (bound : s.step? x.part x.job (x.getS a).toNat = some st)
    (live : st.finished = false) (next : st.claimable (slot / 8) = some n) :
    let kids := match nodeKids st.t n with
      | some (l, some r) => (BitVec.ofNat 64 l, BitVec.ofNat 64 r)
      | some (l, none) => (BitVec.ofNat 64 l, BitVec.allOnes 64)
      | none => (BitVec.allOnes 64, BitVec.allOnes 64)
    Does s slot c x 0x9D .tclm { MWord.gate pn pr with dst := d, sa := a }
      ((s.modStep x.part x.job (x.getS a).toNat (fun q => { q with claims := kvSet q.claims n c })).retire slot c
        (((x.setS d (BitVec.ofNat 64 n)).setS (d + 1) kids.1).setS (d + 2) kids.2) .memory) := by
  intro kids
  refine does_of_issueWith rfl rfl (by decide) ?_ (fun _ => enabled) ?_
  · simp only [Shape.ok, MWord.gate, pair]
    simp
  · dsimp only
    rw [bound]
    refine (if_neg (Bool.eq_false_iff.mp live)).trans ?_
    rw [next]
    rfl

section Commit
variable (b e : BitVec 5) {st : Step} (bound : s.step? x.part x.job (x.getS e).toNat = some st) (still : x.comets = [])
  (room : x.scratchOk (x.getS a).toNat (st.units * 256) 256 = true)
include bound still room

theorem tcmt_does (claimed : kvGet? st.claims (x.getS b).toNat = some c) :
    let bs := memRead x.scratch (x.getS a).toNat (st.units * 256)
    Does s slot c x 0x9E .tcmt { MWord.gate pn pr with sa := a, sb := b, sc := e }
      ((((s.modStep x.part x.job (x.getS e).toNat (fun q => q.commit s.now (slot / 8) bs 22 (x.getS b).toNat)).redeal
        x.part).digestAdd x.part (4 :: (x.getS e).toNat :: (x.getS b).toNat :: bs.map (fun v => v.toNat))).retire slot c x
        .memory) := by
  intro bs
  refine does_of_issueWith rfl rfl (by decide) ?_ (fun _ => enabled) ?_
  · simp [Shape.ok, MWord.gate]
  · dsimp only
    simp only [bound, claimed]
    rw [firstFail_of_holds room, firstFail_of_holds (beq_self_eq_true _)]
    exact if_neg (Bool.eq_false_iff.mp (Ctx.inFlight_nil x still _ _))

theorem tld_does {out : List Byte} (committed : kvGet? st.slots (x.getS b).toNat = some out) :
    Does s slot c x 0x9F .tld { MWord.gate pn pr with sa := a, sb := b, sc := e }
      (s.retire slot c (x.putScratch (x.getS a).toNat out) .memory) := by
  refine does_of_issue rfl rfl (by decide) rfl ?_ (fun _ => enabled) ?_
  · simp [Shape.ok, MWord.gate]
  · simp only [bound, committed]
    exact checked_guarded ((firstFail_of_holds room).trans (firstFail_of_holds rfl)) still

end Commit
end Tiles

/-! ### Walkers (R152 to R157) -/

theorem walkerNo_aux {i : Nat} (small : i < 16) : bitsOf 3 0 (BitVec.ofNat 8 i).toNat = i := by
  rw [toNat_ofNat_of_lt 8 (by omega), bitsOf]
  omega

theorem walkerAux_and_mask {i : Nat} (small : i < 16) : (BitVec.ofNat 8 i).toNat &&& (255 ^^^ 15) = 0 := by
  rw [toNat_ofNat_of_lt 8 (by omega)]
  exact and_above_mask8 i 4 small (by decide)

theorem mem_setIns {l : NatSet} {m n : Nat} : m ∈ setIns l n ↔ m = n ∨ m ∈ l := by
  induction l with
  | nil => simp [setIns]
  | cons y r ih =>
    rw [setIns]
    split
    · subst n
      simp
    · split
      · simp
      · rw [List.mem_cons, ih, List.mem_cons]
        exact or_left_comm

section Walk
variable (s : State) (slot c : Nat) {x : Ctx} (pn : Bool) (pr : BitVec 3) {i : Nat} (small : i < 16) (granted : i < x.walkers.length)
include small granted

theorem wkinit_does (enabled : x.enabled (MWord.gate pn pr) 0 = true) {cap k : Nat} (cap1 : 1 ≤ cap) (cap1024 : cap ≤ 1024)
    (k1 : 1 ≤ k) (k1024 : k ≤ 1024) :
    Does s slot c x 0xA0 .wkinit { MWord.gate pn pr with aux := BitVec.ofNat 8 i, imm := BitVec.ofNat 64 (cap + k * 2 ^ 16) }
      (s.retire slot c (x.setW i ⟨cap, k, [], [], []⟩) .memory) := by
  generalize hn : cap + k * 2 ^ 16 = n
  have number : (BitVec.ofNat 64 n).toNat = n := toNat_ofNat_of_lt 64 (by omega)
  have fieldC : bitsOf 15 0 n = cap := by rw [bitsOf]; omega
  have fieldK : bitsOf 31 16 n = k := by rw [bitsOf]; omega
  refine does_of_issue rfl rfl (by decide) rfl ?_ (fun _ => enabled) ?_
  · have above := and_above_mask n 32 (by omega) (by decide)
    simp only [Shape.ok, MWord.gate, MWord.immBits, number, fieldC, fieldK, walkerAux_and_mask small, cap1, cap1024, k1, k1024]
    simpa using above
  · simp only [MWord.immBits, number, fieldC, fieldK, walkerNo, MWord.auxBits, walkerNo_aux small]
    exact checked_ok _ _ (firstFail_of_holds (decide_eq_true granted))

section Pop
variable (enabled : x.enabled (MWord.gate pn pr) 0 = true) {d : BitVec 5} (pair : d.toNat ≤ 30)
include enabled pair

/-- CQPOP returns the first entry; MOD[0] keeps it in the queue (R154). -/
theorem cqpop_does (keep : Bool) {e : WkEntry} {r : List WkEntry} (first : (x.getW i).queue = e :: r) :
    Does s slot c x 0xA2 .cqpop { MWord.gate pn pr with aux := BitVec.ofNat 8 i, dst := d, md := if keep then 1 else 0 }
      (s.retire slot c (((x.setW i { x.getW i with queue := if keep then e :: r else r }).setS d (BitVec.ofNat 64 e.id)).setS (d + 1)
        (BitVec.ofNat 64 e.dist)) .memory) := by
  obtain ⟨bit, md⟩ := modBit0_flag keep
  refine does_of_issue rfl rfl (by decide) rfl ?_ (fun _ => enabled) ?_
  · simp only [Shape.ok, MWord.gate, walkerAux_and_mask small, md, pair]
    simp
  · simp only [walkerNo, MWord.auxBits, walkerNo_aux small, MWord.modBit, bit, first]
    exact checked_ok _ _ (firstFail_of_holds (decide_eq_true granted))

theorem cqpop_empty_does (empty : (x.getW i).queue = []) :
    Does s slot c x 0xA2 .cqpop { MWord.gate pn pr with aux := BitVec.ofNat 8 i, dst := d }
      (s.retire slot c ((x.setS d (BitVec.allOnes 64)).setS (d + 1) 0) .memory) := by
  refine does_of_issue rfl rfl (by decide) rfl ?_ (fun _ => enabled) ?_
  · simp only [Shape.ok, MWord.gate, walkerAux_and_mask small, pair]
    simp
  · simp only [walkerNo, MWord.auxBits, walkerNo_aux small, empty]
    exact checked_ok _ _ (firstFail_of_holds (decide_eq_true granted))

end Pop

section Lists
variable (still : x.comets = [])
include still

theorem tkrd_does (enabled : x.enabled (MWord.gate pn pr) 0 = true) (d a : BitVec 5)
    (room : x.scratchOk (x.getS a).toNat (16 * (x.getW i).top.length) 16 = true) :
    Does s slot c x 0xA6 .tkrd { MWord.gate pn pr with aux := BitVec.ofNat 8 i, dst := d, sa := a }
      (s.retire slot c ((x.putScratch (x.getS a).toNat ((x.getW i).top.flatMap (fun e => natBytes 4 e.dist ++ natBytes 5 e.id ++
        natBytes 7 0))).setS d (BitVec.ofNat 64 (x.getW i).top.length)) .memory) := by
  refine does_of_issue rfl rfl (by decide) rfl ?_ (fun _ => enabled) ?_
  · simp only [Shape.ok, MWord.gate, walkerAux_and_mask small]
    simp
  · simp only [walkerNo, MWord.auxBits, walkerNo_aux small]
    exact checked_guarded ((firstFail_of_holds room).trans (firstFail_of_holds (decide_eq_true granted))) still

section Entries
variable (a : BitVec 5) {n : Nat} (n1 : 1 ≤ n) (n256 : n ≤ 256)
include n1 n256

section Push
variable (lanes : x.lanesOk { MWord.gate pn pr with aux := BitVec.ofNat 8 i } (x.getS a).toNat 16 n 16 = true)
include lanes

theorem cqpush_does (d : BitVec 5) :
    let es := ((List.range n).filter (fun j => x.enabled (MWord.gate pn pr) j)).map (fun j => x.entryAt ((x.getS a).toNat + 16 * j))
    let r := es.foldl (fun (acc : Walker × Nat) e => ((acc.1.push e).1, acc.2 + (acc.1.push e).2)) (x.getW i, 0)
    Does s slot c x 0xA1 .cqpush { MWord.gate pn pr with aux := BitVec.ofNat 8 i, dst := d, sa := a, imm := BitVec.ofNat 64 n }
      (s.retire slot c ((x.setW i r.1).setS d (BitVec.ofNat 64 r.2)) .memory) := by
  intro es r
  have number : (BitVec.ofNat 64 n).toNat = n := toNat_ofNat_of_lt 64 (by omega)
  have field : bitsOf 15 0 n = n := by rw [bitsOf]; omega
  have count : listCount n = true := by simp [listCount, n1, n256]
  refine does_of_issue rfl rfl (by decide) rfl ?_ (fun gated => nomatch gated) ?_
  · have above := and_above_mask n 16 (by omega) (by decide)
    simp only [Shape.ok, MWord.gate, MWord.immBits, number, field, walkerAux_and_mask small, count]
    simpa using above
  · simp only [MWord.immBits, number, field, walkerNo, MWord.auxBits, walkerNo_aux small]
    exact checked_guarded ((firstFail_of_holds lanes).trans (firstFail_of_holds (decide_eq_true granted))) still

theorem tkins_does :
    let es := ((List.range n).filter (fun j => x.enabled (MWord.gate pn pr) j)).map (fun j => x.entryAt ((x.getS a).toNat + 16 * j))
    Does s slot c x 0xA5 .tkins { MWord.gate pn pr with aux := BitVec.ofNat 8 i, sa := a, imm := BitVec.ofNat 64 n }
      (s.retire slot c (x.setW i (es.foldl Walker.insertTop (x.getW i))) .memory) := by
  intro es
  have number : (BitVec.ofNat 64 n).toNat = n := toNat_ofNat_of_lt 64 (by omega)
  have field : bitsOf 15 0 n = n := by rw [bitsOf]; omega
  have count : listCount n = true := by simp [listCount, n1, n256]
  refine does_of_issue rfl rfl (by decide) rfl ?_ (fun gated => nomatch gated) ?_
  · have above := and_above_mask n 16 (by omega) (by decide)
    simp only [Shape.ok, MWord.gate, MWord.immBits, number, field, walkerAux_and_mask small, count]
    simpa using above
  · simp only [MWord.immBits, number, field, walkerNo, MWord.auxBits, walkerNo_aux small]
    exact checked_guarded ((firstFail_of_holds lanes).trans (firstFail_of_holds (decide_eq_true granted))) still

end Push
end Entries
end Lists
end Walk

/-! ### VISIT (R155) -/

/-- One enabled ID of VISIT: the marks, and the IDs found unmarked. -/
def visitStep (enabled : Nat → Bool) (bit : Nat → Nat) (acc : NatSet × NatSet) (j : Nat) : NatSet × NatSet :=
  if enabled j then
    if acc.1.contains (bit j) then acc else (setIns acc.1 (bit j), j :: acc.2)
  else acc

/-- The marks and the new IDs after the first `n` IDs of a list (R155). -/
def visitRun (enabled : Nat → Bool) (bit : Nat → Nat) (marked : NatSet) (n : Nat) : NatSet × NatSet :=
  (List.range n).foldl (visitStep enabled bit) (marked, [])

section Visit
variable (enabled : Nat → Bool) (bit : Nat → Nat) (marked : NatSet) (n : Nat)

theorem visitRun_succ : visitRun enabled bit marked (n + 1) = visitStep enabled bit (visitRun enabled bit marked n) n := by
  rw [visitRun, List.range_succ, List.foldl_append]
  rfl

theorem mem_marked_visitRun (m : Nat) :
    m ∈ (visitRun enabled bit marked n).1 ↔ m ∈ marked ∨ ∃ l < n, enabled l = true ∧ bit l = m := by
  induction n with
  | zero => simp [visitRun]
  | succ n ih =>
    have upTo : (∃ l < n + 1, enabled l = true ∧ bit l = m) ↔
        (∃ l < n, enabled l = true ∧ bit l = m) ∨ (enabled n = true ∧ bit n = m) := by
      simp only [Nat.lt_succ_iff_lt_or_eq, or_and_right, exists_or, exists_eq_left]
    rw [visitRun_succ, visitStep, upTo, ← or_assoc, ← ih]
    split
    · split
      · have held : bit n ∈ (visitRun enabled bit marked n).1 := List.contains_iff_mem.mp ‹List.contains _ _ = true›
        constructor
        · exact .inl
        · rintro (known | ⟨-, rfl⟩)
          · exact known
          · exact held
      · rw [mem_setIns]
        have on := ‹enabled n = true›
        constructor
        · rintro (rfl | known)
          · exact .inr ⟨on, rfl⟩
          · exact .inl known
        · rintro (known | ⟨-, rfl⟩)
          · exact .inr known
          · exact .inl rfl
    · have off := ‹¬enabled n = true›
      exact ⟨.inl, fun either => either.elim id fun new => absurd new.1 off⟩

theorem mem_new_visitRun (j : Nat) : j ∈ (visitRun enabled bit marked n).2 ↔
    j < n ∧ enabled j = true ∧ bit j ∉ marked ∧ ∀ l < j, enabled l = true → bit l ≠ bit j := by
  induction n with
  | zero => simp [visitRun]
  | succ n ih =>
    rw [visitRun_succ, visitStep, Nat.lt_succ_iff_lt_or_eq, or_and_right, ← ih]
    have known : bit n ∈ (visitRun enabled bit marked n).1 ↔ bit n ∈ marked ∨ ∃ l < n, enabled l = true ∧ bit l = bit n :=
      mem_marked_visitRun enabled bit marked n (bit n)
    split
    · split
      · have held : bit n ∈ (visitRun enabled bit marked n).1 := List.contains_iff_mem.mp ‹List.contains _ _ = true›
        refine ⟨.inl, fun new => new.resolve_right ?_⟩
        rintro ⟨rfl, -, unmarked, first⟩
        obtain before | ⟨l, below, on, same⟩ := known.mp held
        · exact unmarked before
        · exact first l below on same
      · have unheld : bit n ∉ (visitRun enabled bit marked n).1 := fun held => ‹¬List.contains _ _ = true› (List.contains_iff_mem.mpr held)
        rw [known, not_or] at unheld
        obtain ⟨unmarked, first⟩ := unheld
        rw [List.mem_cons, or_comm]
        refine or_congr_right ⟨?_, fun new => new.1⟩
        rintro rfl
        exact ⟨rfl, ‹_›, unmarked, fun l below on same => first ⟨l, below, on, same⟩⟩
    · refine ⟨.inl, fun new => new.resolve_right ?_⟩
      rintro ⟨rfl, on, -⟩
      exact ‹¬enabled _ = true› on

end Visit

/-- VISIT marks the enabled IDs of its list and tells which were new. -/
theorem visit_does (s : State) (slot c : Nat) {x : Ctx} (pn : Bool) (pr q : BitVec 3) {i : Nat} (small : i < 16)
    (granted : i < x.walkers.length) (still : x.comets = []) (a : BitVec 5) {n : Nat} (n1 : 1 ≤ n) (n256 : n ≤ 256)
    (lanes : x.lanesOk { MWord.gate pn pr with aux := BitVec.ofNat 8 i } (x.getS a).toNat 8 n 8 = true) :
    let r := visitRun (fun j => x.enabled (MWord.gate pn pr) j)
      (fun j => visitBit (memNat x.scratch ((x.getS a).toNat + 8 * j) 8 % 2 ^ 40)) (x.getW i).marked n
    Does s slot c x 0xA3 .visit { MWord.gate pn pr with
        aux := BitVec.ofNat 8 i, sa := a, imm := BitVec.ofNat 64 (n + q.toNat * 2 ^ 16) }
      (s.retire slot c ((x.setW i { x.getW i with marked := r.1 }).setP q (predOf n (fun j => r.2.contains j))) .memory) := by
  intro r
  have below := q.isLt
  generalize hz : n + q.toNat * 2 ^ 16 = z
  have number : (BitVec.ofNat 64 z).toNat = z := toNat_ofNat_of_lt 64 (by omega)
  have fieldN : bitsOf 15 0 z = n := by rw [bitsOf]; omega
  have fieldQ : bitsOf 18 16 z = q.toNat := by rw [bitsOf]; omega
  have count : listCount n = true := by simp [listCount, n1, n256]
  refine does_of_issue rfl rfl (by decide) rfl ?_ (fun gated => nomatch gated) ?_
  · have above := and_above_mask z 19 (by omega) (by decide)
    simp only [Shape.ok, MWord.gate, MWord.immBits, number, fieldN, walkerAux_and_mask small, count]
    simpa using above
  · have pred : preg q.toNat = q := by rw [preg, BitVec.ofNat_toNat, BitVec.setWidth_eq]
    simp only [MWord.immBits, number, fieldN, fieldQ, pred, walkerNo, MWord.auxBits, walkerNo_aux small]
    exact checked_guarded ((firstFail_of_holds lanes).trans (firstFail_of_holds (decide_eq_true granted))) still

theorem Ctx.getW_setW {x : Ctx} {i : Nat} (granted : i < x.walkers.length) (k : Walker) : (x.setW i k).getW i = k := by
  simp [Ctx.getW, Ctx.setW, List.getD_eq_getElem?_getD, granted]

theorem Ctx.getW_setP (x : Ctx) (q : BitVec 3) (v : BitVec 256) (i : Nat) : (x.setP q v).getW i = x.getW i := by
  unfold Ctx.setP Ctx.getW
  split <;> rfl

/-- Settles O15: the four tile instructions by the step they name, the walkers by their queues, marks and lists. -/
theorem tilesMergesAndWalkers : Obligations.TilesMergesAndWalkers := by
  constructor
  · intro s slot c x pn pr d a b e t u n st enabled still g done id
    refine ⟨fun t1 t20 u1 u256 => ⟨fun unbound few room => ?_, fun bound sameT sameU => ?_⟩,
      fun pair bound live next => tclm_does s slot c enabled a pair bound live next,
      fun bound room => ⟨fun claimed => tcmt_does s slot c enabled a b e bound still room claimed,
        fun out committed => tld_does s slot c enabled a b e bound still room committed⟩⟩
    · refine tbegin_does s slot c enabled a t1 t20 u1 u256 ?_
      rw [show s.step? x.part x.job (x.getS a).toNat = none from unbound]
      exact (if_neg (Nat.not_le.mpr few)).trans (if_neg (Nat.not_lt.mpr room))
    · refine tbegin_does s slot c enabled a t1 t20 u1 u256 ?_
      rw [show s.step? x.part x.job (x.getS a).toNat = some st from bound]
      exact if_pos ⟨sameT, sameU⟩
  · intro s slot c x pn pr q d a i n cap k still small granted g p wk done
    refine ⟨fun enabled => ⟨fun cap1 cap1024 k1 k1024 => wkinit_does s slot c pn pr small granted enabled cap1 cap1024 k1 k1024,
      fun pair => ⟨fun e r first => ⟨cqpop_does s slot c pn pr small granted enabled pair false first, ?_⟩,
        cqpop_empty_does s slot c pn pr small granted enabled pair⟩,
      tkrd_does s slot c pn pr small granted still enabled d a⟩,
      fun n1 n256 => ⟨fun lanes => ⟨cqpush_does s slot c pn pr small granted still a n1 n256 lanes d,
        tkins_does s slot c pn pr small granted still a n1 n256 lanes⟩, fun lanes => ?_⟩⟩
    · have does := cqpop_does s slot c pn pr small granted enabled pair true first
      rw [if_pos rfl, ← first] at does
      exact does
    · intro bit
      refine ⟨_, visit_does s slot c pn pr q small granted still a n1 n256 lanes, fun m => ?_, ?_⟩
      · rw [Ctx.getW_setP, Ctx.getW_setW granted, Bool.eq_iff_iff, List.contains_iff_mem]
        refine (mem_marked_visitRun _ _ _ n m).trans ?_
        simp only [Bool.or_eq_true, List.contains_iff_mem, List.any_eq_true, List.mem_filter, List.mem_range, decide_eq_true_eq, and_assoc]
        rfl
      · rw [Ctx.getW_setP, Ctx.getW_setW granted]
        congr 2
        funext j
        rw [Bool.eq_iff_iff, List.contains_iff_mem, mem_new_visitRun]
        simp only [Bool.and_eq_true, Bool.not_eq_true', ← Bool.not_eq_true, List.contains_iff_mem, List.any_eq_true, List.mem_filter,
          List.mem_range, decide_eq_true_eq, not_exists, not_and]
        constructor
        · rintro ⟨inside, on, unmarked, first⟩
          exact ⟨⟨⟨inside, on⟩, unmarked⟩, fun l here before same => first l before here.2 same⟩
        · rintro ⟨⟨⟨inside, on⟩, unmarked⟩, first⟩
          exact ⟨inside, on, unmarked, fun l before here same => first l ⟨Nat.lt_trans before inside, here⟩ before same⟩

end Sys2Proof.Machine
end

section
/-!
PROOFS. The answers of the memory system to a strand, and the arrival of comets (R131 to R138, R146, R176, R263, R279).
-/
namespace Sys2Proof.Machine

section Answer
variable {s : State} {slot c : Nat} {x : Ctx} {q : Outst} (found : s.ctx? c = some x) (ordered : x.inOrder q = true)
  (resident : s.occupant slot = some c) (waits : x.outst = some q)
  (ready : s.ready (.instr c q.id) q.handle q.lines q.write = true)
include found ordered resident waits ready

/-- An answer with no failed line, once every request is answered and earlier accesses have taken effect. -/
theorem memoryAnswer_of_ready (entered : (s.strm? (slot / 8) q.id).all (fun t => t.entered) = true) {t : State}
    (result : (match s.answerStatus (.instr c q.id) q, s.strm? (slot / 8) q.id with
      | some st, _ =>
        (((((((s.fsat Reg.PLACE_EVT_FINAL [x.part] 1).setCtx c (x.undo q)).endStream (slot / 8) q.id).raise c (x.undo q)
          Exc.data.code st q.pc).failureTeardown x (.instr c q.id) q st).dropReqs (.instr c q.id)).freeEngine slot q.id).runStreams
            (slot / 8)
      | none, some t => s.segmentRead slot c x q t
      | none, none =>
        ((s.applyWrite q).1.setCtx c (match q.op with
          | .fetch => { x with outst := none, wait := .none, code := some (lineOf q.pc) }
          | _ => (x.deliver (q.overlay ((s.applyWrite q).1.contentOf q.handle)) (s.applyWrite q).2 q).resume)).dropReqs
            (.instr c q.id)) = t) :
    exec (.memoryAnswer slot []) s = .next t := by
  have go : (s.ready (.instr c q.id) q.handle q.lines q.write && x.inOrder q &&
      (s.strm? (slot / 8) q.id).all (fun t => t.entered)) = true := by
    rw [ready, ordered, entered]
    rfl
  subst result
  show execMemoryAnswer slot [] s = _
  unfold execMemoryAnswer
  simp only [resident, found, waits, go, Bool.not_true, Bool.false_eq_true, if_false, List.isEmpty_nil, Bool.false_and] <;> rfl

theorem memoryAnswer_of_answer (answered : s.answerStatus (.instr c q.id) q = none) (plain : s.strm? (slot / 8) q.id = none) :
    (q.op ≠ .fetch → exec (.memoryAnswer slot []) s = .next (((s.applyWrite q).1.setCtx c
      (x.deliver (q.overlay ((s.applyWrite q).1.contentOf q.handle)) (s.applyWrite q).2 q).resume).dropReqs (.instr c q.id))) ∧
    (q.op = .fetch → exec (.memoryAnswer slot []) s =
      .next ((s.setCtx c { x with outst := none, wait := .none, code := some (lineOf q.pc) }).dropReqs (.instr c q.id))) := by
  have noStream : (s.strm? (slot / 8) q.id).all (fun t => t.entered) = true := by rw [plain, Option.all_none]
  constructor
  · intro op
    refine memoryAnswer_of_ready found ordered resident waits ready noStream ?_
    rw [answered, plain]
    dsimp only
    generalize s.applyWrite q = w
    cases h : q.op with
    | fetch => exact absurd h op
    | _ => rfl
  · intro op
    refine memoryAnswer_of_ready found ordered resident waits ready noStream ?_
    rw [answered, plain]
    simp only [State.applyWrite, op]

theorem memoryAnswer_of_segment (answered : s.answerStatus (.instr c q.id) q = none) {t : Strm}
    (stream : s.strm? (slot / 8) q.id = some t) (entered : t.entered = true) :
    exec (.memoryAnswer slot []) s = .next (s.segmentRead slot c x q t) := by
  refine memoryAnswer_of_ready found ordered resident waits ready (by rw [stream]; exact entered) ?_
  rw [answered, stream]

end Answer

section Comet
variable {s : State} {c : Nat} {x : Ctx} {q : Outst} (found : s.ctx? c = some x)
  (out : x.comets.find? (fun e => decide (e.id = q.id)) = some q)
include found out

theorem cometArrival_of_answer (ordered : x.inOrder q = true) (access : ∀ en k m, q.op ≠ .message en k m)
    (ready : s.ready (.comet c q.id) q.handle q.lines q.write = true)
    (answered : s.answerStatus (.comet c q.id) q = none) :
    exec (.cometArrival c q.id [] false) s = .next (((s.applyWrite q).1.setCtx c
      ((x.deliver (q.overlay ((s.applyWrite q).1.contentOf q.handle)) (s.applyWrite q).2 q).arrive q)).dropReqs (.comet c q.id)) := by
  show execCometArrival c q.id [] false s = _
  unfold execCometArrival
  simp only [found, out]
  have go : (!(s.ready (.comet c q.id) q.handle q.lines q.write && x.inOrder q)) = false := by
    rw [ready, ordered]
    rfl
  have unfailed : s.lineErrors q.handle q.lines [] = s := rfl
  cases h : q.op with
  | message en k m => exact absurd h (access en k m)
  | _ => simp only [go, unfailed, answered, Bool.false_eq_true, if_false, List.isEmpty_nil, Bool.not_true, Bool.false_and]

/-- The oldest message of a context whose runs have left is written to its ring, or arrives at once where it left the device. -/
theorem cometArrival_of_message {en k : Nat} {m : Msg} (message : q.op = .message en k m)
    (first : ∀ e ∈ x.comets, e.id < q.id → ∀ k' m', e.op ≠ .message en k' m')
    (sent : ∀ r ∈ s.reqs, r.owner = .comet c q.id → r.state = .sent) :
    (∀ t, reLocal (kvGet [] (s.mapOfGen x.part q.gen) en) = true →
      s.deliver none (reCtx (kvGet [] (s.mapOfGen x.part q.gen) en)) m = (.written, t) →
      exec (.cometArrival c q.id [] false) s = .next ((t.modCtx c (fun y => y.arrive q)).dropReqs (.comet c q.id))) ∧
    (reLocal (kvGet [] (s.mapOfGen x.part q.gen) en) = false →
      exec (.cometArrival c q.id [] false) s = .next ((s.modCtx c (fun y => y.arrive q)).dropReqs (.comet c q.id))) := by
  have oldest : x.comets.all (fun e => decide (q.id ≤ e.id) || (match e.op with
      | .message en' _ _ => decide (en' ≠ en)
      | _ => true)) = true := by
    refine List.all_eq_true.mpr fun e member => ?_
    by_cases later : q.id ≤ e.id
    · simp [later]
    · have other := first e member (Nat.not_le.mp later)
      cases h : e.op with
      | message en' k' m' =>
        have apart : en' ≠ en := fun same => other k' m' (same ▸ h)
        simp [apart]
      | _ => simp
  have left : s.reqs.any (fun r => decide (r.owner = .comet c q.id) && decide (r.state ≠ .sent)) = false := by
    refine List.any_eq_false.mpr fun r member => ?_
    by_cases mine : r.owner = .comet c q.id
    · simp [sent r member mine]
    · simp [mine]
  have free : (!(x.comets.all (fun e => decide (q.id ≤ e.id) || (match e.op with
      | .message en' _ _ => decide (en' ≠ en)
      | _ => true))) || (!false && false)) = false := by
    rw [oldest]
    rfl
  constructor
  · intro t here written
    show execCometArrival c q.id [] false s = _
    unfold execCometArrival
    simp only [found, out, message, left]
    refine congrArg Host.Outcome.next ((if_neg (Bool.eq_false_iff.mp free)).trans ?_)
    rw [if_pos here, written]
  · intro away
    show execCometArrival c q.id [] false s = _
    unfold execCometArrival
    simp only [found, out, message, left]
    refine congrArg Host.Outcome.next ((if_neg (Bool.eq_false_iff.mp free)).trans ?_)
    rw [if_neg (Bool.eq_false_iff.mp away)]
    rfl

end Comet

/-- Settles O16: a waiting instruction by what its strand holds, a comet by whether it is a message. -/
theorem answersArrive : Obligations.AnswersArrive := by
  constructor
  · intro s slot c x q found ordered w y
    refine ⟨fun resident waits ready answered => ⟨fun plain =>
        memoryAnswer_of_answer found ordered resident waits ready answered plain, fun t stream entered =>
        memoryAnswer_of_segment found ordered resident waits ready answered stream entered⟩,
      fun out access ready answered => cometArrival_of_answer found out ordered access ready answered⟩
  · intro s t c x q en k m ow e found out message first sent
    obtain ⟨here, away⟩ := cometArrival_of_message found out message first sent
    exact ⟨here t, away⟩

/-! ### Failed answers (R132, R175, R263, R293) -/

@[simp] theorem State.triggerReset_ctxs (s : State) (p k : Nat) : (s.triggerReset p k).ctxs = s.ctxs := by
  unfold State.triggerReset
  split <;> rfl

@[simp] theorem State.triggerReset_objs (s : State) (p k : Nat) : (s.triggerReset p k).objs = s.objs := by
  unfold State.triggerReset
  split <;> rfl

@[simp] theorem State.appendPart_ctxs (s : State) (r : Rec) : (s.appendPart r).ctxs = s.ctxs := by
  unfold State.appendPart State.escalation State.pushPart
  split <;> simp

@[simp] theorem State.appendPart_objs (s : State) (r : Rec) : (s.appendPart r).objs = s.objs := by
  unfold State.appendPart State.escalation State.pushPart
  split <;> simp

@[simp] theorem State.dropStreams_ctxs (s : State) (c : Nat) (x : Ctx) : (s.dropStreams c x).ctxs = s.ctxs := by
  unfold State.dropStreams
  (repeat' split) <;> simp

@[simp] theorem State.dropStreams_objs (s : State) (c : Nat) (x : Ctx) : (s.dropStreams c x).objs = s.objs := by
  unfold State.dropStreams
  (repeat' split) <;> simp

theorem State.ctx?_setCtx_self (s : State) (c : Nat) (x : Ctx) : (s.setCtx c x).ctx? c = some x :=
  kvGet?_kvSet_self _ c x

theorem State.ctx?_modCtx_of_found {s : State} {c : Nat} {x : Ctx} (found : s.ctx? c = some x) (f : Ctx → Ctx) :
    (s.modCtx c f).ctx? c = some (f x) := by
  rw [State.modCtx_of_found found, State.ctx?_setCtx_self]

/-- An exception of a context that is not yet to be aborted leaves every object, and marks the context (R106, R107, R293). -/
theorem State.raise_leaves {s : State} {c : Nat} {x y : Ctx} (found : s.ctx? c = some y) (live : x.abortPending = false)
    (code st pc : Nat) : (s.raise c x code st pc).objs = s.objs ∧
    (s.raise c x code st pc).ctx? c = some { y with abortPending := true, outst := none } := by
  have listed : kvGet? s.ctxs c = some y := found
  unfold State.raise
  simp only [live, Bool.false_eq_true, if_false, State.dropStreams_objs, State.modCtx_objs]
  constructor
  · split <;> simp [State.openWindow]
  · rw [State.ctx?, State.dropStreams_ctxs]
    refine State.ctx?_modCtx_of_found ?_ _
    rw [State.ctx?]
    split <;> simp [State.openWindow, listed]

/-- What an instruction that failed leaves of its context: all but the descriptor it had advanced. -/
theorem Ctx.undo_leaves (x : Ctx) (q : Outst) : (x.undo q).abortPending = x.abortPending ∧ (x.undo q).s = x.s ∧
    (x.undo q).v = x.v ∧ (x.undo q).p = x.p ∧ (x.undo q).scratch = x.scratch ∧ (x.undo q).pc = x.pc := by
  unfold Ctx.undo
  split <;> exact ⟨rfl, rfl, rfl, rfl, rfl, rfl⟩

/-- Settles O17: the exception of an answer with a final status, and what it leaves. -/
theorem failedAnswersRaise : Obligations.FailedAnswersRaise := by
  intro s slot c x q st ow found resident waits live ordered ready failed entered y r
  obtain ⟨alive, regs, vectors, preds, scratch, pc⟩ := x.undo_leaves q
  obtain ⟨objects, context⟩ := State.raise_leaves (s := ((s.fsat Reg.PLACE_EVT_FINAL [x.part] 1).setCtx c y).endStream (slot / 8) q.id)
    (c := c) (x := y) (y := y) (State.ctx?_setCtx_self _ c y) (alive.trans live) Exc.data.code st q.pc
  refine ⟨?_, objects, _, context, rfl, rfl, regs, vectors, preds, scratch, pc⟩
  refine memoryAnswer_of_ready found ordered resident waits ready ?_ ?_
  · rw [Option.all_eq_true]
    exact entered
  · rw [failed]

end Sys2Proof.Machine
end

section
/-!
PROOFS. What a completed store and an atomic leave of an object (R128, R131, R134, R135, R243).
-/
namespace Sys2Proof.Machine

/-! ### One object changed -/

theorem kvGet?_kvMod_self {α : Type} (m : KV α) (k : Nat) (f : α → α) : kvGet? (kvMod m k f) k = (kvGet? m k).map f := by
  unfold kvMod
  cases h : kvGet? m k with
  | none => exact h
  | some v => exact kvGet?_kvSet_self m k (f v)

theorem kvGet?_kvMod_other {α : Type} (m : KV α) {k l : Nat} (apart : l ≠ k) (f : α → α) : kvGet? (kvMod m k f) l = kvGet? m l := by
  unfold kvMod
  cases kvGet? m k with
  | none => rfl
  | some v => exact kvGet?_kvSet_other m k l (f v) apart

theorem State.obj?_modObj_self (s : State) (h : Nat) (f : Obj → Obj) : (s.modObj h f).obj? h = (s.obj? h).map f :=
  kvGet?_kvMod_self s.objs h f

theorem State.obj?_modObj_other (s : State) {h k : Nat} (apart : k ≠ h) (f : Obj → Obj) : (s.modObj h f).obj? k = s.obj? k :=
  kvGet?_kvMod_other s.objs apart f

theorem State.obj?_digestAdd (s : State) (p : Nat) (term : List Nat) (h : Nat) : (s.digestAdd p term).obj? h = s.obj? h := rfl

/-- What a piece of work has written: the object's bytes are `d`, and every other object and every context is as in `s`. -/
def State.Wrote (s t : State) (h : Nat) (d : Memory) : Prop :=
  (∃ r, t.obj? h = some r ∧ r.data = d) ∧ (∀ k, k ≠ h → t.obj? k = s.obj? k) ∧ t.ctxs = s.ctxs

theorem State.Wrote.refl {s : State} {h : Nat} {o : Obj} (found : s.obj? h = some o) : s.Wrote s h o.data :=
  ⟨⟨o, found, rfl⟩, fun _ _ => rfl, rfl⟩

theorem State.storeObj_wrote {s : State} {h : Nat} {o : Obj} (found : s.obj? h = some o) (off : Nat) (bs : List Byte) :
    s.Wrote (s.storeObj h off bs) h (memWrite o.data off bs) := by
  unfold State.storeObj
  rw [found]
  dsimp only
  have objs : ∀ (b : Bool) (term : List Nat), s.Wrote (if o.decl = 0 ∨ b = true then s.modObj h (fun o =>
        (o.store off bs).touch (blocksOf 4096 off bs.length) (s.part (handlePart h)).orbit)
      else (s.modObj h (fun o => (o.store off bs).touch (blocksOf 4096 off bs.length)
        (s.part (handlePart h)).orbit)).digestAdd (handlePart h) term) h (memWrite o.data off bs) := by
    intro b term
    have mod : s.Wrote (s.modObj h (fun o => (o.store off bs).touch (blocksOf 4096 off bs.length) (s.part (handlePart h)).orbit)) h
        (memWrite o.data off bs) :=
      ⟨⟨_, by rw [State.obj?_modObj_self, found]; rfl, rfl⟩, fun k apart => State.obj?_modObj_other s apart _, rfl⟩
    split
    · exact mod
    · exact mod
  exact objs _ _

/-! ### A list of writes -/

/-- Some writes to a store, in order. -/
def memWrites (m : Memory) (ws : List (Nat × List Byte)) : Memory := ws.foldl (fun d w => memWrite d w.1 w.2) m

theorem memGet_memWrites_outside {m : Memory} (canonical : m.wf = true) {ws : List (Nat × List Byte)} {a : Nat}
    (outside : ∀ w ∈ ws, a < w.1 ∨ w.1 + w.2.length ≤ a) : memGet (memWrites m ws) a = memGet m a := by
  induction ws generalizing m with
  | nil => rfl
  | cons w ws ih =>
    obtain ⟨here, rest⟩ := List.forall_mem_cons.mp outside
    exact (ih (Memory.wf_memWrite m w.1 w.2 canonical) rest).trans (memGet_memWrite_outside m w.1 a w.2 here canonical)

/-- Where every write that covers a byte writes one value there, and some write does, the byte reads as that value. -/
theorem memGet_memWrites_inside {m : Memory} (canonical : m.wf = true) {ws : List (Nat × List Byte)} {a : Nat} {b : Byte}
    (agree : ∀ w ∈ ws, ∀ i (inside : i < w.2.length), w.1 + i = a → w.2[i] = b)
    (written : memGet m a = b ∨ ∃ w ∈ ws, w.1 ≤ a ∧ a < w.1 + w.2.length) : memGet (memWrites m ws) a = b := by
  induction ws generalizing m with
  | nil => exact written.resolve_right (by simp)
  | cons w ws ih =>
    obtain ⟨here, rest⟩ := List.forall_mem_cons.mp agree
    refine ih (Memory.wf_memWrite m w.1 w.2 canonical) rest ?_
    by_cases covers : w.1 ≤ a ∧ a < w.1 + w.2.length
    · obtain ⟨low, high⟩ := covers
      have inside : a - w.1 < w.2.length := by omega
      left
      rw [← here (a - w.1) inside (by omega), ← memGet_memWrite_inside m w.1 (a - w.1) w.2 inside canonical, Nat.add_sub_of_le low]
    · obtain same | ⟨v, member, low, high⟩ := written
      · left
        rw [memGet_memWrite_outside m w.1 a w.2 (by omega) canonical, same]
      · obtain rfl | later := List.mem_cons.mp member
        · exact absurd ⟨low, high⟩ covers
        · exact .inr ⟨v, later, low, high⟩

theorem memRead_of_memGet {m : Memory} (a : Nat) (bs : List Byte) (reads : ∀ i (inside : i < bs.length), memGet m (a + i) = bs[i]) :
    memRead m a bs.length = bs := by
  induction bs generalizing a with
  | nil => rfl
  | cons b bs ih =>
    rw [List.length_cons, memRead, ih (a + 1) fun i inside => by
      have later := reads (i + 1) (Nat.succ_lt_succ inside)
      rwa [List.getElem_cons_succ, ← Nat.add_assoc, Nat.add_right_comm] at later]
    exact congrArg (· :: bs) (reads 0 (Nat.succ_pos _))

/-- Some stores to an object, in order, write its bytes. -/
theorem State.foldl_storeObj_wrote {s : State} {h : Nat} {o : Obj} (found : s.obj? h = some o) (ws : List (Nat × List Byte)) :
    s.Wrote (ws.foldl (fun t w => t.storeObj h w.1 w.2) s) h (memWrites o.data ws) := by
  induction ws generalizing s o with
  | nil => exact State.Wrote.refl found
  | cons w ws ih =>
    obtain ⟨⟨r, now, data⟩, others, contexts⟩ := State.storeObj_wrote found w.1 w.2
    obtain ⟨last, others', contexts'⟩ := ih now
    rw [data] at last
    exact ⟨last, fun k apart => (others' k apart).trans (others k apart), contexts'.trans contexts⟩

/-! ### The pieces of a store, line by line (R128, R287) -/

/-- The part of a piece that lies in line `l`. -/
def pieceIn (q : Nat × List Byte) (l : Nat) : Nat × List Byte :=
  (max q.1 (64 * l), (q.2.drop (max q.1 (64 * l) - q.1)).take (min (q.1 + q.2.length) (64 * l + 64) - max q.1 (64 * l)))

/-- The writes of a store: each piece line by line, but for the lines to skip. -/
def pieceWrites (skip : NatSet) (ps : List (Nat × List Byte)) : List (Nat × List Byte) :=
  ps.flatMap (fun q => ((blocksOf 64 q.1 q.2.length).filter (fun l => !skip.contains l)).map (pieceIn q))

theorem State.storePieces_eq (s : State) (h : Nat) (skip : NatSet) (ps : List (Nat × List Byte)) : s.storePieces h skip ps =
    ((pieceWrites skip ps).foldl (fun t w => t.storeObj h w.1 w.2) s).modObj h (fun o => o.clearCovered skip ps) := by
  unfold State.storePieces pieceWrites
  rw [List.foldl_flatMap]
  congr 2
  funext t q
  rw [List.foldl_map, List.foldl_filter]
  congr 1
  funext u l
  cases h : List.contains skip l <;> simp [pieceIn]

theorem State.storePieces_wrote {s : State} {h : Nat} {o : Obj} (found : s.obj? h = some o) (skip : NatSet)
    (ps : List (Nat × List Byte)) : s.Wrote (s.storePieces h skip ps) h (memWrites o.data (pieceWrites skip ps)) := by
  obtain ⟨⟨r, now, data⟩, others, contexts⟩ := State.foldl_storeObj_wrote found (pieceWrites skip ps)
  rw [State.storePieces_eq]
  exact ⟨⟨r.clearCovered skip ps, by rw [State.obj?_modObj_self, now]; rfl, data⟩,
    fun k apart => (State.obj?_modObj_other _ apart _).trans (others k apart),
    contexts⟩

theorem mem_span {a b i : Nat} : i ∈ span a b ↔ a ≤ i ∧ i < b := by
  simp only [span, List.mem_map, List.mem_range]
  constructor
  · rintro ⟨j, below, rfl⟩
    omega
  · rintro ⟨low, high⟩
    exact ⟨i - a, by omega, by omega⟩

/-- A write of a store lies in its piece and carries the piece's bytes. -/
theorem pieceIn_agrees (q : Nat × List Byte) (l i : Nat) (inside : i < (pieceIn q l).2.length) :
    ∃ j, ∃ below : j < q.2.length, (pieceIn q l).1 + i = q.1 + j ∧ (pieceIn q l).2[i] = q.2[j] := by
  simp only [pieceIn, List.length_take, List.length_drop] at inside
  refine ⟨max q.1 (64 * l) - q.1 + i, by omega, ?_, ?_⟩
  · show max q.1 (64 * l) + i = _
    omega
  · simp [pieceIn]

/-- Each byte of a piece lies in the write of its line. -/
theorem pieceIn_covers (q : Nat × List Byte) {i : Nat} (inside : i < q.2.length) :
    (q.1 + i) / 64 ∈ blocksOf 64 q.1 q.2.length ∧ (pieceIn q ((q.1 + i) / 64)).1 ≤ q.1 + i ∧
      q.1 + i < (pieceIn q ((q.1 + i) / 64)).1 + (pieceIn q ((q.1 + i) / 64)).2.length := by
  refine ⟨?_, ?_⟩
  · rw [blocksOf, if_neg (by omega), mem_span]
    omega
  · simp only [pieceIn, List.length_take, List.length_drop]
    omega

/-- Two different members of a list stand in a symmetric relation that holds pairwise. -/
theorem related_of_pairwise {α : Type} {r : α → α → Prop} (symmetric : ∀ a b, r a b → r b a) {l : List α}
    (pairs : l.Pairwise r) {a b : α} (first : a ∈ l) (second : b ∈ l) (ne : a ≠ b) : r a b := by
  induction pairs with
  | nil => cases first
  | cons head _ ih =>
    rcases List.mem_cons.mp first with rfl | inTail
    · rcases List.mem_cons.mp second with rfl | inTail'
      · exact absurd rfl ne
      · exact head _ inTail'
    · rcases List.mem_cons.mp second with rfl | inTail'
      · exact symmetric _ _ (head _ inTail)
      · exact ih inTail inTail'

/-- Settles O18: the writes of the pieces, and what each of them covers. -/
theorem storesTouchTheirBytes : Obligations.StoresTouchTheirBytes := by
  intro s q o ps found canonical op
  have applied : (s.applyWrite q).1 = s.storePieces q.handle q.applied ps := by
    rw [State.applyWrite, op]
  rw [applied]
  obtain ⟨⟨r, now, data⟩, others, contexts⟩ := State.storePieces_wrote found q.applied ps
  refine ⟨r, now, fun a outside => ?_, fun fresh apart p member => ?_, others, contexts⟩
  · rw [data]
    refine memGet_memWrites_outside canonical fun w written => ?_
    obtain ⟨p, member, l, -, rfl⟩ : ∃ p ∈ ps, ∃ l, l ∈ blocksOf 64 p.1 p.2.length ∧ pieceIn p l = w := by
      simp only [pieceWrites, List.mem_flatMap, List.mem_map, List.mem_filter] at written
      obtain ⟨p, member, l, ⟨block, -⟩, same⟩ := written
      exact ⟨p, member, l, block, same⟩
    have clear := outside p member
    refine Decidable.byContradiction fun covers => ?_
    obtain ⟨j, below, at', -⟩ := pieceIn_agrees p l (a - (pieceIn p l).1) (by omega)
    omega
  · rw [data]
    refine memRead_of_memGet p.1 p.2 fun i inside => memGet_memWrites_inside canonical (fun w written k below at' => ?_) (.inr ?_)
    · simp only [pieceWrites, List.mem_flatMap, List.mem_map, List.mem_filter] at written
      obtain ⟨p', member', l, -, rfl⟩ := written
      obtain ⟨j, below', at'', byte⟩ := pieceIn_agrees p' l k below
      rw [byte]
      by_cases same : p' = p
      · subst same
        obtain rfl : j = i := by omega
        rfl
      · have clear := related_of_pairwise (fun _ _ => Or.symm) apart member' member same
        omega
    · obtain ⟨block, low, high⟩ := pieceIn_covers p inside
      refine ⟨pieceIn p ((p.1 + i) / 64), ?_, low, high⟩
      simp only [pieceWrites, List.mem_flatMap, List.mem_map, List.mem_filter, fresh]
      exact ⟨p, member, _, ⟨block, rfl⟩, rfl⟩

/-! ### Atomics (R134, R135) -/

theorem memNat_lt (m : Memory) (a n : Nat) : memNat m a n < 256 ^ n := by
  induction n generalizing a with
  | zero => exact Nat.one_pos
  | succ n ih =>
    have rest := ih (a + 1)
    have byte := (memGet m a).isLt
    rw [memNat, Nat.pow_succ]
    omega

theorem toSigned_toNat (v : Word) : toSigned 64 v.toNat = v.toInt := by
  rw [toSigned, BitVec.toInt_eq_toNat_cond]
  have below := v.isLt
  split <;> split <;> omega

/-- An AMO whose function gives `n` finds the old word and leaves `n`. -/
theorem amo_word {s : State} {q : Outst} {o : Obj} {off code d : Nat} {v e n : Word} (found : s.obj? q.handle = some o)
    (canonical : Memory.wf o.data = true) (fresh : q.found = none)
    (function : amoNew code (memNat o.data off 8) v.toNat e.toNat = n.toNat) (op : q.op = .amo off code v.toNat e.toNat d) :
    (s.applyWrite q).2 = (BitVec.ofNat 64 (memNat o.data off 8)).toNat ∧
      ((s.applyWrite q).1.obj? q.handle).map (fun r => memNat r.data off 8) = some n.toNat := by
  have word : s.wordAt q.handle off = memNat o.data off 8 := by rw [State.wordAt, found]
  have old := toNat_ofNat_of_lt 64 (memNat_lt o.data off 8)
  have stored := memNat_memPutNat o.data off 8 n.toNat canonical n.isLt
  rw [State.applyWrite, op, fresh]
  dsimp only
  rw [State.doAmo, found, word, old, function]
  refine ⟨rfl, ?_⟩
  dsimp only
  split <;> simp only [State.obj?_digestAdd, State.obj?_modObj_self, found, Option.map_some] <;> exact congrArg some stored

theorem pub_word {s : State} {q : Outst} {o : Obj} {off k d : Nat} {v e : Word} (found : s.obj? q.handle = some o)
    (canonical : Memory.wf o.data = true) (fresh : q.found = none) (op : q.op = .pub off e.toNat v.toNat d k) :
    let old := BitVec.ofNat 64 (memNat o.data off 8)
    (s.applyWrite q).2 = old.toNat ∧
      ((s.applyWrite q).1.obj? q.handle).map (fun r => memNat r.data off 8) = some (if old = e then v else old).toNat := by
  intro old
  have word : s.wordAt q.handle off = old.toNat := by
    rw [State.wordAt, found]
    exact (toNat_ofNat_of_lt 64 (memNat_lt o.data off 8)).symm
  rw [State.applyWrite, op, fresh]
  dsimp only
  rw [State.doPublish, word]
  by_cases expected : old = e
  · obtain ⟨⟨r, now, data⟩, -, -⟩ := State.storeObj_wrote found off (natBytes 8 v.toNat)
    rw [if_pos expected, if_pos (congrArg BitVec.toNat expected)]
    refine ⟨rfl, ?_⟩
    rw [now, Option.map_some, data]
    exact congrArg some (memNat_memPutNat o.data off 8 v.toNat canonical v.isLt)
  · rw [if_neg expected, if_neg (fun same => expected (BitVec.eq_of_toNat_eq same))]
    refine ⟨rfl, ?_⟩
    rw [found]
    exact congrArg some (toNat_ofNat_of_lt 64 (memNat_lt o.data off 8)).symm

/-- Settles O19: each function of AMO on the words it takes, and PUB. -/
theorem atomicWords : Obligations.AtomicWords := by
  intro s q o off k v e d found canonical fresh old after smin smax
  have number : memNat o.data off 8 = old.toNat := (toNat_ofNat_of_lt 64 (memNat_lt o.data off 8)).symm
  have amo := fun (code : Nat) (n : Word) (function : amoNew code old.toNat v.toNat e.toNat = n.toNat) =>
    amo_word (d := d) found canonical fresh (by rw [number]; exact function)
  refine ⟨?_, pub_word found canonical fresh⟩
  simp only [List.forall_mem_cons]
  refine ⟨amo 0 (old + v) ?_, amo 1 (old &&& v) ?_, amo 2 (old ||| v) ?_, amo 3 (old ^^^ v) ?_, amo 4 smin ?_, amo 5 smax ?_,
    amo 6 v ?_, amo 7 (if old = e then v else old) ?_, List.forall_mem_nil _⟩
  · exact (BitVec.toNat_add ..).symm
  · exact (BitVec.toNat_and ..).symm
  · exact (BitVec.toNat_or ..).symm
  · exact (BitVec.toNat_xor ..).symm
  · simp only [amoNew, toSigned_toNat, smin, BitVec.sle_iff_toInt_le]
    split <;> rfl
  · simp only [amoNew, toSigned_toNat, smax, BitVec.sle_iff_toInt_le]
    split <;> rfl
  · rfl
  · simp only [amoNew, BitVec.toNat_inj]
    split <;> rfl

end Sys2Proof.Machine
end

section
/-!
PROOFS. What every instruction of the Moons does where it does not issue as its own word (R89, R90, R97, R98, R105).
-/
namespace Sys2Proof.Machine

/-- An instruction of opcode `opc` issues under the rules of every instruction. -/
def Issues (opc : Nat) (i : Nat → MWord → Instr) : Prop :=
  ∀ (s : State) (slot : Nat) (w : MWord), ∃ h own gated body,
    h.opc = opc ∧ exec (i slot w) s = .next (s.issueWith slot w h own gated body)

/-- The instructions of the Moons by their opcodes (R110 to R157). -/
def moonInstrs : List (Nat × (Nat → MWord → Instr)) :=
  [(0x00, Instr.nop), (0x01, .sadd), (0x02, .saddi), (0x03, .ssub), (0x04, .smul), (0x05, .sand), (0x06, .sor),
   (0x07, .sxor), (0x08, .sshf), (0x09, .smovi), (0x0A, .scmp), (0x0B, .br), (0x0C, .halt), (0x0D, .sdset),
   (0x0E, .sdget), (0x10, .vadd), (0x11, .vsub), (0x12, .vmul), (0x13, .vfma), (0x14, .vmin), (0x15, .vmax),
   (0x16, .vabs), (0x17, .vneg), (0x18, .vand), (0x19, .vor), (0x1A, .vxor), (0x1B, .vsel), (0x1C, .vbcst),
   (0x1D, .vext), (0x1E, .vins), (0x1F, .vmov), (0x20, .vcmp), (0x21, .plog), (0x22, .pcnt), (0x23, .pfst),
   (0x24, .pset), (0x30, .vcvt), (0x40, .mma), (0x50, .ltb), (0x51, .ltld), (0x52, .lac), (0x53, .lexpw),
   (0x54, .lbin), (0x60, .xclr), (0x61, .xadd), (0x62, .xaddl), (0x63, .xdot), (0x64, .xrd), (0x65, .xexp),
   (0x66, .ximp), (0x67, .xmrg), (0x70, .vexp2), (0x71, .vrcp), (0x72, .vrmax), (0x73, .vrsum), (0x80, .ld),
   (0x81, .st), (0x82, .cld), (0x83, .cst), (0x84, .expd), (0x85, .amo), (0x86, .pub), (0x87, .kvenc), (0x90, .wait),
   (0x91, .acset), (0x92, .acrd), (0x93, .fence), (0x94, .orbit), (0x95, .orq), (0x98, .msgs), (0x99, .msgr),
   (0x9C, .tbegin), (0x9D, .tclm), (0x9E, .tcmt), (0x9F, .tld), (0xA0, .wkinit), (0xA1, .cqpush), (0xA2, .cqpop),
   (0xA3, .visit), (0xA4, .bmtst), (0xA5, .tkins), (0xA6, .tkrd)]

theorem issues_of_mem : ∀ e ∈ moonInstrs, Issues e.1 e.2 := by
  unfold moonInstrs
  simp only [List.forall_mem_cons, List.not_mem_nil, false_implies, implies_true, and_true]
  and_intros
  all_goals exact fun s slot w => ⟨_, _, _, _, rfl, rfl⟩

/-- Every opcode a chapter lists is that of an instruction, and the reverse (R90). -/
theorem mem_opcodes_iff {k : Nat} : k ∈ opcodes ↔ ∃ f ∈ moonInstrs, f.1 = k := by
  have same : ∀ k ∈ opcodes, k ∈ moonInstrs.map (fun f => f.1) := by decide
  have same' : ∀ k ∈ moonInstrs.map (fun f => f.1), k ∈ opcodes := by decide
  rw [← List.mem_map]
  exact ⟨same k, same' k⟩

theorem Shape.ok_of_reserved (h : Shape) {w : MWord} (reserved : w.rsv ≠ 0) : h.ok w = false := by
  simp only [Shape.ok, decide_eq_false reserved, Bool.false_and]

section Issue
variable {s : State} {slot c : Nat} {x : Ctx} {opc : Nat} {i : Nat → MWord → Instr} {w : MWord} (issues : Issues opc i)
  (listed : opc ∈ opcodes)
include issues

/-- Reserved bits that are not zero raise ILLEGAL (R90). -/
theorem does_of_reserved (listed : opc ∈ opcodes) (reserved : w.rsv ≠ 0) :
    Does s slot c x opc i w (s.except slot c x .illegal (IssueSlot.of opc)) := by
  obtain ⟨h, own, gated, body, rfl, command⟩ := issues s slot w
  intro runs
  rw [command, State.issueWith_illegal body runs (List.contains_iff_mem.mpr listed) (by rw [h.ok_of_reserved reserved, Bool.false_and])]

/-- A PC outside the program object raises FETCH (R105). -/
theorem exec_of_outside (free : s.slotTaken slot (IssueSlot.of opc) = false) (strand : s.issuer slot = some (c, x))
    (outside : s.fetchOk x = false) : exec (i slot w) s = .next (s.except slot c x .fetch (IssueSlot.of opc)) := by
  obtain ⟨h, own, gated, body, rfl, command⟩ := issues s slot w
  rw [command, State.issueWith, strand]
  simp only [free, outside, Bool.false_eq_true, if_false, Bool.not_false, if_true]
  rfl

/-- An opcode that no chapter lists raises ILLEGAL (R90). -/
theorem exec_of_unlisted (free : s.slotTaken slot (IssueSlot.of opc) = false) (strand : CanIssue s slot c x)
    (unlisted : (s.wordAtPc x).1 ∉ opcodes) : exec (i slot w) s = .next (s.except slot c x .illegal (IssueSlot.of opc)) := by
  obtain ⟨h, own, gated, body, rfl, command⟩ := issues s slot w
  obtain ⟨issuer, fetch, holds⟩ := strand
  rw [command, State.issueWith, issuer]
  simp only [free, fetch, holds, Bool.false_eq_true, if_false, Bool.not_true]
  exact congrArg Host.Outcome.next (if_pos (by simpa using unlisted))

/-- A command that names another instruction than the one at the PC changes nothing. -/
theorem exec_of_other (free : s.slotTaken slot (IssueSlot.of opc) = false) (strand : CanIssue s slot c x)
    (known : (s.wordAtPc x).1 ∈ opcodes) (other : s.wordAtPc x ≠ (opc, w)) : exec (i slot w) s = .next s := by
  obtain ⟨h, own, gated, body, rfl, command⟩ := issues s slot w
  rw [command, State.issueWith_other body strand free (List.contains_iff_mem.mpr known) other]

end Issue

/-! ### False predicates (R97, R98) -/

/-- A whole instruction whose predicate is 0 in bit 0 only advances. -/
theorem does_of_disabled {s : State} {slot c : Nat} {x : Ctx} {opc : Nat} {i : Nat → MWord → Instr} {w : MWord} {h : Shape}
    {own : Bool} {body : Nat → Ctx → State} (command : exec (i slot w) s = .next (s.issueWith slot w h own true body)) (code : h.opc = opc)
    (listed : opcodes.contains opc = true) (wellFormed : (h.ok w && own) = true) (disabled : x.enabled w 0 = false) :
    Does s slot c x opc i w (s.retire slot c x (IssueSlot.of opc)) := by
  subst code
  intro runs
  rw [command, State.issueWith_disabled body runs listed wellFormed disabled]

section Disabled
variable (s : State) (slot c : Nat) {x : Ctx} {pn : Bool} {pr : BitVec 3} (disabled : x.enabled (MWord.gate pn pr) 0 = false)
include disabled

theorem whole_disabled : ∀ e ∈ [(0x00, Instr.nop), (0x01, .sadd), (0x02, .saddi), (0x03, .ssub), (0x04, .smul), (0x05, .sand), (0x06, .sor),
    (0x07, .sxor), (0x08, .sshf), (0x09, .smovi), (0x0A, .scmp), (0x0B, .br), (0x0C, .halt), (0x0E, .sdget),
    (0x85, .amo), (0x86, .pub), (0x90, .wait), (0x91, .acset), (0x92, .acrd), (0x93, .fence), (0x94, .orbit),
    (0x95, .orq), (0x99, .msgr), (0x9D, .tclm), (0x9E, .tcmt), (0x9F, .tld), (0xA2, .cqpop), (0xA6, .tkrd),
    (0x22, .pcnt), (0x23, .pfst), (0x24, .pset), (0x64, .xrd), (0x65, .xexp), (0x66, .ximp), (0x67, .xmrg)],
    Does s slot c x e.1 e.2 (MWord.gate pn pr) (s.retire slot c x (IssueSlot.of e.1)) := by
  simp only [List.forall_mem_cons, List.not_mem_nil, false_implies, implies_true, and_true]
  and_intros
  all_goals
    refine does_of_disabled rfl rfl (by decide) ?_ disabled
    simp [Shape.ok, MWord.gate, scalarCond]

theorem formed_disabled :
    let form := fun (k : BitVec 4) (n : BitVec 64) => ({ MWord.gate pn pr with fmt := k, imm := n } : MWord)
    ∀ e ∈ [(0x0D, Instr.sdset, form 0 1), (0x80, .ld, form 0 1), (0x81, .st, form 0 1), (0x82, .cld, form 0 1), (0x83, .cst, form 0 1),
      (0x84, .expd, form 1 1), (0x98, .msgs, form 0 1), (0x9C, .tbegin, form 0 (2 ^ 32 + 1)), (0xA0, .wkinit, form 0 (2 ^ 16 + 1))],
    Does s slot c x e.1 e.2.1 e.2.2 (s.retire slot c x (IssueSlot.of e.1)) := by
  intro form
  have readable : w3FormOk 1#64 = true := by decide
  have shape : (2 ^ 32 + 1 : BitVec 64) = 0x100000001#64 := by decide
  have walker : (2 ^ 16 + 1 : BitVec 64) = 0x10001#64 := by decide
  simp only [shape, walker, List.forall_mem_cons, List.not_mem_nil, false_implies, implies_true, and_true]
  and_intros
  all_goals
    refine does_of_disabled rfl rfl (by decide) ?_ disabled
    simp [form, Shape.ok, MWord.gate, MWord.immBits, bitsOf, readable]

end Disabled

theorem vecBuild_elemOf (f : Fmt) (v : BitVec 2048) (n : Nat) : vecBuild f n (elemOf f v) = v.toNat % 2 ^ (f.width * n) := by
  induction n with
  | zero => rw [vecBuild, Nat.mul_zero, Nat.pow_zero, Nat.mod_one]
  | succ n ih => rw [vecBuild, ih, elemOf, Nat.mod_mod, Nat.mul_succ, Nat.pow_add, Nat.mod_mul, Nat.mul_comm (2 ^ (f.width * n))]

theorem vecOf_elemOf (f : Fmt) (v : BitVec 2048) : vecOf f (elemOf f v) = v := by
  have width : f.width * f.elems = 2048 := by cases f <;> decide
  rw [vecOf, vecBuild_elemOf, width, Nat.mod_eq_of_lt v.isLt, BitVec.ofNat_toNat, BitVec.setWidth_eq]

/-- A register whose every element keeps its value keeps its value. -/
theorem setV_elemOf (x : Ctx) (f : Fmt) (d : BitVec 5) : x.setV d (vecOf f (fun k => elemOf f (x.getV d) k)) = x := by
  rw [show (fun k => elemOf f (x.getV d) k) = elemOf f (x.getV d) from rfl, vecOf_elemOf, Ctx.setV, Ctx.getV, Vector.set_getElem_self]

theorem enabled_of_epred_zero {x : Ctx} {w : MWord} (none : x.epred w = 0) (k : Nat) : x.enabled w k = false := by
  rw [Ctx.enabled, none]
  exact BitVec.getLsbD_zero

section Elements
variable (s : State) (slot c : Nat) {x : Ctx} {pn : Bool} {pr : BitVec 3} (none : x.epred (MWord.gate pn pr) = 0)
include none

theorem does_of_none_enabled {opc : Nat} {i : Nat → MWord → Instr} {w : MWord} {f : Fmt} {d : BitVec 5} {g : Nat → Nat}
    (does : Does s slot c x opc i w (s.retire slot c (x.setV d (vecOf f (fun k =>
      if x.enabled (MWord.gate pn pr) k then g k else elemOf f (x.getV d) k))) .compute)) :
    Does s slot c x opc i w (s.retire slot c x .compute) := by
  simp only [enabled_of_epred_zero none, Bool.false_eq_true, if_false, setV_elemOf] at does
  exact does

theorem vector_disabled {opc : Nat} {i : Nat → MWord → Instr} (o : VOp) {useB useC mayFill : Bool}
    (command : ∀ w, exec (i slot w) s = .next (s.vector slot w opc o useB useC mayFill)) (listed : opcodes.contains opc = true)
    (unit : IssueSlot.of opc = .compute) : Does s slot c x opc i (MWord.gate pn pr) (s.retire slot c x .compute) :=
  does_of_none_enabled s slot c none (vector_does s slot c x pn pr o (fm := 0) (f := .fp32) (fill := false) command listed unit rfl
    (by decide) 0 0 (b := 0) (e := 0) (fun _ => rfl) (fun _ => rfl) nofun)

theorem bitwise_disabled {opc : Nat} {i : Nat → MWord → Instr} (g : Nat → Nat → Nat)
    (command : ∀ w, exec (i slot w) s = .next (s.bitwise slot w opc g)) (listed : opcodes.contains opc = true)
    (unit : IssueSlot.of opc = .compute) : Does s slot c x opc i (MWord.gate pn pr) (s.retire slot c x .compute) :=
  does_of_none_enabled s slot c none (bitwise_does s slot c x pn pr (fm := 0) (f := .fp32) rfl g command listed unit 0 0 0)

theorem vcvt_disabled : Does s slot c x 0x30 .vcvt (MWord.gate pn pr) (s.retire slot c x .compute) := by
  have does := vcvt_does s slot c x pn pr (fm := 0) (fs := 0) (f := .fp32) (h := .fp32) (q := 0) rfl rfl (by decide) (by decide)
    (by decide) 0 0
  simp only [enabled_of_epred_zero none, Bool.false_eq_true, and_false, if_false, setV_elemOf] at does
  exact does

theorem elements_disabled : ∀ e ∈ [(0x10, Instr.vadd), (0x11, .vsub), (0x12, .vmul), (0x13, .vfma), (0x14, .vmin), (0x15, .vmax),
    (0x16, .vabs), (0x17, .vneg), (0x18, .vand), (0x19, .vor), (0x1A, .vxor), (0x1C, .vbcst), (0x1F, .vmov), (0x30, .vcvt),
    (0x70, .vexp2), (0x71, .vrcp)],
    Does s slot c x e.1 e.2 (MWord.gate pn pr) (s.retire slot c x .compute) := by
  obtain ⟨exponential, reciprocal⟩ := vexp2_vrcp_does s slot c x pn pr 0 0
  simp only [List.forall_mem_cons]
  exact ⟨vector_disabled s slot c none .add (fun _ => rfl) (by decide) rfl, vector_disabled s slot c none .sub (fun _ => rfl) (by decide) rfl,
    vector_disabled s slot c none .mul (fun _ => rfl) (by decide) rfl, vector_disabled s slot c none .fma (fun _ => rfl) (by decide) rfl,
    vector_disabled s slot c none .min (fun _ => rfl) (by decide) rfl, vector_disabled s slot c none .max (fun _ => rfl) (by decide) rfl,
    vector_disabled s slot c none .abs (fun _ => rfl) (by decide) rfl, vector_disabled s slot c none .neg (fun _ => rfl) (by decide) rfl,
    bitwise_disabled s slot c none (fun u v => u &&& v) (fun _ => rfl) (by decide) rfl,
    bitwise_disabled s slot c none (fun u v => u ||| v) (fun _ => rfl) (by decide) rfl,
    bitwise_disabled s slot c none (fun u v => u ^^^ v) (fun _ => rfl) (by decide) rfl,
    does_of_none_enabled s slot c none (vbcst_does s slot c x pn pr (fm := 0) (f := .fp32) rfl 0 0),
    does_of_none_enabled s slot c none (vmov_does s slot c x pn pr (fm := 0) (f := .fp32) rfl 0 0), vcvt_disabled s slot c none,
    does_of_none_enabled s slot c none exponential, does_of_none_enabled s slot c none reciprocal, List.forall_mem_nil _⟩

end Elements

/-- Settles O57: the rules every instruction issues under, then the words a predicate disables. -/
theorem disabledAndIllFormed : Obligations.DisabledAndIllFormed := by
  intro s slot c x w pn pr
  refine ⟨fun e member => ?_, fun disabled => ⟨whole_disabled s slot c disabled, formed_disabled s slot c disabled,
    elements_disabled s slot c⟩⟩
  have issues := issues_of_mem e member
  have listed : e.1 ∈ opcodes := mem_opcodes_iff.mpr ⟨e, member, rfl⟩
  refine ⟨does_of_reserved issues listed, fun free => ⟨exec_of_outside issues free, fun strand unlisted => ?_, fun strand known =>
    exec_of_other issues free strand (mem_opcodes_iff.mpr known)⟩⟩
  refine exec_of_unlisted issues free strand fun known => ?_
  obtain ⟨f, here, same⟩ := mem_opcodes_iff.mp known
  exact unlisted f here same

end Sys2Proof.Machine
end

section
/-!
PROOFS. Descriptors of a queue pair: how one starts (R240, R351, R352), and ownership (R368 to R371).
-/
namespace Sys2Proof.Machine

/-! ### How a descriptor starts -/

section Serve
variable {s u : State} {q op : Nat} {priv : Option Nat} {used : List (Nat × Nat)} {d : List Byte}
  {body : List Byte → State → State × Service}

/-- Whether the queue pair holds the privilege an operation needs (R352). -/
def State.privileged (s : State) (q : Nat) (priv : Option Nat) : Bool :=
  match priv with
  | some b => bitAt b (s.fget Reg.CTX_QP_A_PRIV [q])
  | none => true

/-- A descriptor whose turn has come comes to its checks, then to what its body makes of it (R10, R351). -/
theorem State.serve_eq (taken : s.takeDesc q = some (d, u)) (code : field d 0 1 = op) (turn : s.turn q op) :
    s.serve q op priv used body =
      if !(descClean d used && s.privileged q priv) then u.ends q d stAccess 0 0
      else if field d 4 4 ≠ 0 ∧ field d 4 4 ≠ (s.part (s.qpPart q)).routeCur.gen then u.ends q d stMapStale 0 0
      else (body d u).1.setService q d (body d u).2 := by
  have free : (decide (8 ≤ op) && decide (op ≤ 13) && s.registryBusy (s.qpPart q)) = false := by
    by_cases registry : 8 ≤ op ∧ op ≤ 13
    · rw [turn registry.1 registry.2, Bool.and_false]
    · rw [← Bool.decide_and, decide_eq_false registry, Bool.false_and]
  unfold State.serve
  rw [taken]
  dsimp only
  rw [if_neg (not_not_intro code), free]
  rfl

theorem State.serve_of_starts (starts : s.starts q op priv used d u) :
    s.serve q op priv used body = (body d u).1.setService q d (body d u).2 := by
  obtain ⟨taken, code, turn, clean, held, current⟩ := starts
  have may : s.privileged q priv = true := by
    cases priv with
    | none => rfl
    | some b => exact held b rfl
  rw [State.serve_eq taken code turn, clean, may, if_neg (by decide), if_neg]
  exact fun stale => current.elim stale.1 stale.2

variable {i : Instr}

/-- A descriptor that starts does what its body says. -/
theorem exec_of_starts {t : State} {v : Service} (command : exec i s = .next (s.serve q op priv used body))
    (starts : s.starts q op priv used d u) (result : body d u = (t, v)) : exec i s = .next (t.setService q d v) := by
  rw [command, State.serve_of_starts starts, result]

/-- A descriptor whose body ends it ends with that status. -/
theorem exec_of_ends {t : State} {st r0 r1 : Nat} (command : exec i s = .next (s.serve q op priv used body))
    (starts : s.starts q op priv used d u) (result : body d u = fin t st r0 r1) : exec i s = .next (t.ends q d st r0 r1) :=
  exec_of_starts command starts result

/-- The checks that end a descriptor at once. -/
theorem exec_of_checks {b : Nat} (command : exec i s = .next (s.serve q op (some b) used body))
    (taken : s.takeDesc q = some (d, u)) (code : field d 0 1 = op) (turn : s.turn q op) :
    ((descClean d used && bitAt b (s.fget Reg.CTX_QP_A_PRIV [q])) = false → exec i s = .next (u.ends q d stAccess 0 0)) ∧
    ((descClean d used && bitAt b (s.fget Reg.CTX_QP_A_PRIV [q])) = true → field d 4 4 ≠ 0 →
      field d 4 4 ≠ (s.part (s.qpPart q)).routeCur.gen → exec i s = .next (u.ends q d stMapStale 0 0)) := by
  rw [command, State.serve_eq taken code turn]
  constructor
  · intro refused
    rw [State.privileged, refused, if_pos (by decide)]
  · intro passed named stale
    rw [State.privileged, passed, if_neg (by decide), if_pos ⟨named, stale⟩]

end Serve

/-- Settles O22: each of the four commands serves its descriptor under one rule. -/
theorem descriptorChecks : Obligations.DescriptorChecks := by
  intro s u q d taken
  simp only [List.forall_mem_cons, List.not_mem_nil, false_implies, implies_true, and_true]
  exact ⟨fun code turn => exec_of_checks rfl taken code turn, fun code turn => exec_of_checks rfl taken code turn,
    fun code turn => exec_of_checks rfl taken code turn, fun code turn => exec_of_checks rfl taken code turn⟩

/-! ### Ownership (R368 to R371) -/

section Owning
variable {s u : State} {q : Nat} {d : List Byte} {o : Obj} {r : OwnRec} (object : u.qpObj q (field d 16 8) = some o)
include object

theorem State.owning_of_found (body : Nat → Nat → State × Service) : u.owning q d body = body (field d 16 8) (u.qpJob q) := by
  rw [State.owning, object]

theorem ownClaim_cases (starts : s.starts q 0x28 (some 4) [(16, 8)] d u) :
    (u.ownRec (field d 16 8) = none → u.own.length < 65536 → exec (.ownClaim q) s =
      .next (({ u with own := u.own ++ [⟨field d 16 8, u.qpJob q, 0, none, false⟩] } : State).ends q d stOk 0 0)) ∧
    (u.ownRec (field d 16 8) = some r →
      (r.owner = u.qpJob q → exec (.ownClaim q) s =
        .next ((u.modOwn (field d 16 8) (fun y => { y with orphan := false })).ends q d stOk r.epoch 0)) ∧
      (r.owner ≠ u.qpJob q → exec (.ownClaim q) s = .next (u.ends q d stNotOwner 0 0))) := by
  refine ⟨fun free room => ?_, fun held => ⟨fun owner => ?_, fun other => ?_⟩⟩
  all_goals
    refine exec_of_ends rfl starts ?_
    rw [State.owning_of_found object]
  · rw [free]
    exact if_neg (Nat.not_le.mpr room)
  · rw [held]
    exact if_pos owner
  · rw [held]
    exact if_neg other

variable (held : u.ownRec (field d 16 8) = some r)
include held

theorem ownOffer_cases (starts : s.starts q 0x29 (some 4) [(16, 20)] d u) :
    (r.owner = u.qpJob q ∧ r.epoch = field d 24 8 ∧ r.offer = none → exec (.ownOffer q) s =
      .next ((u.modOwn (field d 16 8) (fun y => { y with offer := some (field d 32 4, u.now), orphan := false })).ends q d stOk 0 0)) ∧
    (r.owner = u.qpJob q ∧ r.epoch = field d 24 8 ∧ r.offer ≠ none → exec (.ownOffer q) s = .next (u.ends q d stBusy 0 0)) ∧
    (r.owner ≠ u.qpJob q ∨ r.epoch ≠ field d 24 8 → exec (.ownOffer q) s = .next (u.ends q d stNotOwner 0 0)) := by
  refine ⟨?_, ?_, ?_⟩
  all_goals
    intro attempt
    refine exec_of_ends rfl starts ?_
    rw [State.owning_of_found object, held]
    dsimp only
  · obtain ⟨owner, epoch, free⟩ := attempt
    rw [if_neg (by simp [owner, epoch]), free]
    rfl
  · obtain ⟨owner, epoch, offered⟩ := attempt
    rw [if_neg (by simp [owner, epoch]), if_pos (Option.isSome_iff_ne_none.mpr offered)]
  · rw [if_pos attempt]

theorem ownAccept_cases (starts : s.starts q 0x2A (some 4) [(16, 16)] d u) :
    (∀ t, r.offer = some (u.qpJob q, t) → field d 24 8 = (r.epoch + 1) % 2 ^ 64 → exec (.ownAccept q) s =
      .next ((u.modOwn (field d 16 8) (fun y => { y with
        owner := u.qpJob q
        epoch := (r.epoch + 1) % 2 ^ 64
        offer := none
        orphan := false })).ends q d stOk 0 0)) ∧
    ((∀ t, r.offer ≠ some (u.qpJob q, t)) ∨ field d 24 8 ≠ (r.epoch + 1) % 2 ^ 64 →
      exec (.ownAccept q) s = .next (u.ends q d stNotOwner 0 0)) := by
  refine ⟨fun t offered epoch => ?_, fun refused => ?_⟩
  all_goals
    refine exec_of_ends rfl starts ?_
    rw [State.owning_of_found object, held]
    dsimp only
  · rw [offered]
    exact if_pos (by simp [epoch])
  · refine if_neg ?_
    cases h : r.offer with
    | none => simp
    | some offer =>
      obtain other | wrong := refused
      · have apart : offer.1 ≠ u.qpJob q := fun same => other offer.2 (by rw [h, ← same])
        simp [apart]
      · rw [Bool.and_eq_true]
        exact fun both => wrong (of_decide_eq_true both.2)

theorem ownDrop_cases (starts : s.starts q 0x2B (some 4) [(16, 16)] d u) :
    (r.owner = u.qpJob q ∧ r.epoch = field d 24 8 ∧ r.offer = none → exec (.ownDrop q) s =
      .next (({ u with own := u.own.filter (fun y => decide (y.ref ≠ field d 16 8)) } : State).ends q d stOk 0 0)) ∧
    (r.owner ≠ u.qpJob q ∨ r.epoch ≠ field d 24 8 → exec (.ownDrop q) s = .next (u.ends q d stNotOwner 0 0)) := by
  refine ⟨?_, ?_⟩
  all_goals
    intro attempt
    refine exec_of_ends rfl starts ?_
    rw [State.owning_of_found object, held]
    dsimp only
  · obtain ⟨owner, epoch, free⟩ := attempt
    rw [if_neg (by simp [owner, epoch]), free]
    rfl
  · rw [if_pos attempt]

end Owning

/-- An offer lapses once its time has passed, and not before (R371). -/
theorem offerLapse_cases {s : State} {a : Nat} {r : OwnRec} {t : Nat × Nat} (held : s.ownRec a = some r) (offered : r.offer = some t) :
    (t.2 + max 1 (s.fget Reg.CTX_CFG_OWN_T []) * 1700 ≤ s.now → exec (.offerLapse a) s = .next (s.lapseOffer r true)) ∧
    (s.now < t.2 + max 1 (s.fget Reg.CTX_CFG_OWN_T []) * 1700 → exec (.offerLapse a) s = .next s) := by
  have rule : exec (.offerLapse a) s = .next (if s.now < t.2 + max 1 (s.fget Reg.CTX_CFG_OWN_T []) * 1700 then s
      else s.lapseOffer r true) := by
    show execOfferLapse a s = _
    rw [execOfferLapse, held]
    dsimp only
    rw [offered]
  rw [rule]
  exact ⟨fun due => congrArg Host.Outcome.next (if_neg (Nat.not_lt.mpr due)), fun early => congrArg Host.Outcome.next (if_pos early)⟩

/-- Settles O26: the four operations by the record they find, and the lapse of an offer by its time. -/
theorem ownership : Obligations.Ownership := by
  intro s u q d o r ref job e object
  exact ⟨ownClaim_cases object, fun held => ⟨ownOffer_cases object held, ownAccept_cases object held, ownDrop_cases object held⟩,
    fun a t => offerLapse_cases⟩

end Sys2Proof.Machine
end

section
/-!
PROOFS. RUN, CTX_OPEN and CTX_CLOSE (R353 to R363, R372).
-/
namespace Sys2Proof.Machine

theorem State.qp_modQp_of_ne {s : State} {q : Nat} {f : Qp → Qp} (other : f (s.qp q) ≠ Qp.init) : (s.modQp q f).qp q = f (s.qp q) :=
  kvGet_kvPut_of_ne other s.qps q

/-- The descriptor put in service is the one in service. -/
theorem State.service_setService (s : State) (q : Nat) (d : List Byte) (v : Service) :
    ((s.setService q d v).qp q).service = some (d, v) := by
  have other : ({ s.qp q with service := some (d, v) } : Qp) ≠ Qp.init := fun same => Option.some_ne_none _ (congrArg Qp.service same)
  rw [State.setService, State.qp_modQp_of_ne other]

theorem State.beginRun_ends (s : State) (q : Nat) (d : List Byte) (st r0 r1 : Nat) :
    (s.ends q d st r0 r1).beginRun q = s.ends q d st r0 r1 := by
  have ended := State.service_setService s q d (.done st r0 r1)
  unfold State.beginRun State.ends
  rw [ended]

section Run
variable {s u : State} {q : Nat} {d : List Byte} (starts : s.starts q 0x01 none [(16, 48)] d u) (members : u.group q ≠ [])
  (idle : (s.qp q).service = none)
include starts members idle

/-- RUN of a group with members comes to whether its object passes (R353, R372). -/
theorem run_eq : exec (.run q) s = .next
    (if (decide (field d 16 8 = 0) || (match u.ownRec (field d 16 8) with
        | some r => decide (r.owner = u.qpJob q)
        | none => true)) = true then
      ((if field d 16 8 = 0 then u else u.modOwn (field d 16 8) (fun r => { r with orphan := false })).setService q d
        (.run (u.group q) [] false)).beginRun q
    else (u.ends q d stNotOwner 0 0).beginRun q) := by
  show execRun q s = _
  unfold execRun
  rw [State.serve_of_starts starts, idle]
  simp only [List.isEmpty_eq_false_iff.mpr members, Bool.false_eq_true, if_false, Option.isNone_none, if_true]
  by_cases passes : (decide (field d 16 8 = 0) || (match u.ownRec (field d 16 8) with
      | some r => decide (r.owner = u.qpJob q)
      | none => true)) = true
  · rw [if_pos passes]
    refine congrArg (fun v : State × Service => Host.Outcome.next ((v.1.setService q d v.2).beginRun q)) (if_neg ?_)
    rw [Bool.not_eq_true, Bool.not_eq_false']
    exact passes
  · rw [if_neg passes]
    refine congrArg (fun v : State × Service => Host.Outcome.next ((v.1.setService q d v.2).beginRun q)) (if_pos ?_)
    rw [Bool.not_eq_true']
    exact Bool.eq_false_iff.mpr passes

end Run

section Contexts
variable {s u : State} {q c : Nat} {d : List Byte}

/-- CTX_OPEN of operands in range, with every quota free, opens the lowest free context (R355 to R358). -/
theorem ctxOpen_does (starts : s.starts q 0x02 (some 1) [(16, 34)] d u) (fields : openFieldsOk d = true)
    (program : u.refOk (field d 16 8) (u.qpPart q) (u.qpTenant q) true false = true)
    (entry : ∀ o, u.objOfRef (field d 16 8) = some o → field d 24 8 + 16 ≤ o.size) (part : u.qpPart (field d 36 2) = u.qpPart q)
    (valid : u.qpValid (field d 36 2) = true) (few : (u.group (field d 36 2)).length < 512)
    (job : ∀ i ∈ u.group (field d 36 2), ∀ y, u.ctx? i = some y → y.job = field d 32 4)
    (ring : field d 48 2 = 0 ∨ u.pinnedRoom (u.qpPart q) (field d 48 2 * 4096) = true)
    (quota : (u.ctxsOf (u.qpPart q)).length < u.fget Reg.CTX_PART_CFG_CTX_QUOTA [u.qpPart q])
    (whole : u.carved (u.qpPart q) = false) (free : u.freeCtx = some c) :
    let g := if kvGet 0 u.ctxGens c = 65535 then 1 else kvGet 0 u.ctxGens c + 1
    let y := Ctx.opened d (u.qpPart q) g (u.qpTenant q) u.drawTag.1
    exec (.ctxOpen q) s =
      .next (({ u.drawTag.2.setCtx c y with ctxGens := kvSet u.drawTag.2.ctxGens c g } : State).ends q d stOk (y.ref c)
        (imageBytes (field d 40 4 * 1024) (field d 44 2) (field d 47 1))) := by
  intro g y
  have inside : (match u.objOfRef (field d 16 8) with
      | some o => decide (field d 24 8 + 16 ≤ o.size)
      | none => false) = true := by
    cases h : u.objOfRef (field d 16 8) with
    | none => rw [State.refOk, h] at program; exact nomatch program
    | some o => exact decide_eq_true (entry o h)
  have same : (u.group (field d 36 2)).all (fun i => match u.ctx? i with
      | some x => decide (x.job = field d 32 4)
      | none => true) = true := by
    refine List.all_eq_true.mpr fun i member => ?_
    cases h : u.ctx? i with
    | none => rfl
    | some y => exact decide_eq_true (job i member y h)
  have ringFits : (u.pinnedRoom (u.qpPart q) (field d 48 2 * 4096) || decide (field d 48 2 = 0)) = true := by
    obtain empty | room := ring
    · rw [decide_eq_true empty, Bool.or_true]
    · rw [room, Bool.true_or]
  refine exec_of_ends rfl starts ?_
  dsimp only
  refine (if_neg ?_).trans ?_
  · rw [fields, program, decide_eq_true part, valid, decide_eq_true few, ringFits, decide_eq_true quota, whole]
    simp only [Bool.and_true, Bool.true_and, Bool.not_false, Bool.true_or, Bool.not_eq_true', Bool.not_eq_false, Bool.and_eq_true]
    exact ⟨inside, same⟩
  · rw [free]
    dsimp only
    rw [whole, Bool.false_and]
    rfl

/-- CTX_CLOSE ends a parked or idle context at once; another it aborts, or waits for (R360, R363). -/
theorem ctxClose_cases {x : Ctx} (starts : s.starts q 0x03 (some 1) [(16, 5)] d u) (names : u.ctxOfRef (field d 16 4) = some c)
    (found : u.ctx? c = some x) (part : x.part = u.qpPart q) (tenant : x.tenant = u.qpTenant q) :
    ((field d 20 1 ≤ 1 ∧ x.phase = .parked) ∨ (field d 20 1 = 0 ∧ u.runOpen c x = false) →
      exec (.ctxClose q) s = .next (((u.endRun c x.qp none).removeCtx c).ends q d stOk 0 0)) ∧
    (x.phase ≠ .parked →
      (field d 20 1 = 1 → exec (.ctxClose q) s =
        .next ((u.modCtx c (fun y => { y with abortPending := true })).setService q d (.close c))) ∧
      (field d 20 1 = 0 → u.runOpen c x = true → exec (.ctxClose q) s =
        .next ((u.modCtx c (fun y => { y with closing := true })).setService q d (.close c)))) := by
  have admitted (mode : field d 20 1 ≤ 1) : (!(decide (x.part = u.qpPart q) && decide (x.tenant = u.qpTenant q) &&
      decide (field d 20 1 ≤ 1))) = false := by
    rw [decide_eq_true part, decide_eq_true tenant, decide_eq_true mode]
    rfl
  refine ⟨fun atOnce => ?_, fun open' => ⟨fun abort => ?_, fun orderly running => ?_⟩⟩
  · refine exec_of_ends rfl starts ?_
    rw [names]
    dsimp only
    rw [found]
    have mode : field d 20 1 ≤ 1 := by omega
    dsimp only
    rw [admitted mode, if_neg (by decide), if_pos (atOnce.imp (fun parked => parked.2) id)]
  · refine exec_of_starts rfl starts ?_
    rw [names]
    dsimp only
    rw [found]
    dsimp only
    rw [admitted (Nat.le_of_eq abort), if_neg (by decide), if_neg (by simp [open', abort]), if_pos abort]
  · refine exec_of_starts rfl starts ?_
    rw [names]
    dsimp only
    rw [found]
    dsimp only
    rw [admitted (by omega), if_neg (by decide), if_neg (by simp [open', running]), if_neg (by omega)]

end Contexts

/-- Settles O23: RUN by the owner of its object, CTX_OPEN by its checks, CTX_CLOSE by the state of its context. -/
theorem contextDescriptors : Obligations.ContextDescriptors := by
  intro s u q c d x
  refine ⟨fun starts members idle => ⟨fun none => ?_, fun r named held => ⟨fun owner => ?_, fun other => ?_⟩⟩,
    fun starts fields program entry part valid few job ring quota whole free =>
      ctxOpen_does starts fields program entry part valid few job ring quota whole free,
    fun starts names found part tenant => ctxClose_cases starts names found part tenant⟩
  · rw [run_eq starts members idle, if_pos (by rw [decide_eq_true none]; rfl), if_pos none]
  · rw [run_eq starts members idle, if_pos (by rw [held]; simp [owner]), if_neg named]
  · rw [run_eq starts members idle, if_neg (by rw [held]; simp [other, named]),
      State.beginRun_ends]

end Sys2Proof.Machine
end

section
/-!
PROOFS. Descriptors of the registry and of near-memory operations (R168, R237 to R248, R253, R265, R266, R284, R364 to R366).
-/
namespace Sys2Proof.Machine

/-! ### The registry -/

section Register
variable {s u v : State} {q i : Nat} {d : List Byte} (starts : s.starts q 0x08 (some 0) [(16, 20)] d u)
include starts

theorem register_refused (refused : u.mayRegister (u.qpPart q) (u.qpTenant q) d = false) :
    exec (.register q) s = .next (u.ends q d stAccess 0 0) := by
  refine exec_of_ends rfl starts ?_
  unfold State.registerObj
  rw [refused]
  rfl

/-- REGISTER of an image it may register comes to the room its object finds (R240, R241, R259). -/
theorem register_cases (may : u.mayRegister (u.qpPart q) (u.qpTenant q) d = true)
    (free : u.freeIndex (u.qpPart q) ((u.objsOf (u.qpPart q)).length + (u.part (u.qpPart q)).hgens.length + 1) 1 = some i) :
    let p := u.qpPart q
    let hgen := kvGet 0 (u.part p).hgens i
    let room := u.makeRoom p (if pinnedClass (field d 24 1) then field d 16 8 else 0) (u.extentCount p)
    let obj := Obj.registered d hgen (u.fget Reg.SEC_KS_A_GEN [field d 26 2]) v.draw.1 u.livePairs
    (room = (v, .made) → exec (.register q) s =
      .next (({ v.draw.2 with objs := kvSet v.draw.2.objs (p * 2 ^ 28 + i) obj } : State).ends q d stOk
        (mkRef (p * 2 ^ 28 + i) hgen) 0)) ∧
    (room = (v, .wait) → exec (.register q) s = .next (v.ends q d stBusy 0 0)) ∧
    (room = (v, .writing) → exec (.register q) s = .next (v.setService q d .register)) := by
  intro p hgen room obj
  refine ⟨fun made => exec_of_ends rfl starts ?_, fun wait => exec_of_ends rfl starts ?_, fun writing => exec_of_starts rfl starts ?_⟩
  all_goals
    unfold State.registerObj
    rw [may, if_neg (by decide), free]
    dsimp only
  · rw [show u.makeRoom _ _ _ = (v, .made) from made]
    rfl
  · rw [show u.makeRoom _ _ _ = (v, .wait) from wait]
    rfl
  · rw [show u.makeRoom _ _ _ = (v, .writing) from writing]

end Register

/-- What REGISTER asks of its operands (R237 to R241). -/
theorem State.mayRegister_of {u : State} {p ten : Nat} {d : List Byte} (size1 : 1 ≤ field d 16 8) (size48 : field d 16 8 ≤ 2 ^ 48)
    (cls : field d 24 1 ≤ 5) (rights1 : 1 ≤ field d 25 1) (rights3 : field d 25 1 ≤ 3) (slot : field d 26 2 < 2048)
    (slotPart : u.slotPart (field d 26 2) = some p) (live : u.slotState (field d 26 2) = 1)
    (tenant : u.fget Reg.SEC_KS_A_TENANT [field d 26 2] = field d 28 4) (own : field d 28 4 = ten) (few : u.objs.length < 4194304)
    (quota : (u.objsOf p).length < u.fget Reg.PART_CFG_A_OBJ_QUOTA [p]) (undeclared : u.objOfDecl p (field d 32 4) = none)
    (room : (if pinnedClass (field d 24 1) then u.pinnedRoom p (field d 16 8) else u.trayRoom p (field d 16 8)) = true) :
    u.mayRegister p ten d = true := by
  simp only [State.mayRegister, size1, size48, cls, rights1, rights3, slot, slotPart, live, tenant, own, few, quota, undeclared, room,
    decide_true, beq_self_eq_true, Option.isNone_none, Bool.and_true]

section Objects
variable {s u : State} {q : Nat} {d : List Byte} {o : Obj}

theorem validate_does (starts : s.starts q 0x09 (some 0) [(16, 8)] d u) (object : u.qpObj q (field d 16 8) = some o) :
    exec (.validate q) s = .next ((u.modObj (refHandle (field d 16 8)) (fun r => { r with wr := false, validating := true })).setService
      q d (.validate (refHandle (field d 16 8)))) := by
  refine exec_of_starts rfl starts ?_
  rw [object]

theorem validate_refused (starts : s.starts q 0x09 (some 0) [(16, 8)] d u) (none : u.qpObj q (field d 16 8) = none) :
    exec (.validate q) s = .next (u.ends q d stAccess 0 0) := by
  refine exec_of_ends rfl starts ?_
  rw [none]

theorem release_does (starts : s.starts q 0x0A (some 0) [(16, 8)] d u) (object : u.qpObj q (field d 16 8) = some o) :
    exec (.release q) s = .next ((u.modObj (refHandle (field d 16 8)) (fun r => { r with releasing := true })).setService q d
      (.release (refHandle (field d 16 8)))) := by
  refine exec_of_starts rfl starts ?_
  rw [object]

theorem reclass_does (starts : s.starts q 0x0B (some 0) [(16, 9)] d u) (object : u.qpObj q (field d 16 8) = some o)
    (cls : field d 24 1 ≤ 5)
    (room : pinnedClass (field d 24 1) = pinnedClass o.cls ∨
      (if pinnedClass (field d 24 1) then u.pinnedRoom (u.qpPart q) o.size else u.trayRoom (u.qpPart q) o.size) = true) :
    exec (.reclass q) s = .next ((u.stageMove (refHandle (field d 16 8)) (field d 24 1) u.livePairs).ends q d stOk 0 0) := by
  refine exec_of_ends rfl starts ?_
  rw [object]
  refine if_neg ?_
  rw [decide_eq_false (Nat.not_lt.mpr cls), Bool.false_or]
  obtain same | fits := room
  · simp [same]
  · simp [fits]

theorem query_does (starts : s.starts q 0x0D (some 0) [(16, 8)] d u) (object : u.qpObj q (field d 16 8) = some o) :
    exec (.query q) s = .next (u.ends q d stOk o.size (o.cls + (if o.move.isSome then 256 else 0) + 65536 * o.tier1Granules)) := by
  have flag : 256 * bit01 o.move.isSome = if o.move.isSome then 256 else 0 := by cases o.move <;> rfl
  refine exec_of_ends rfl starts ?_
  rw [object, ← flag]

section Steep
variable {c : Nat} (starts : s.starts q 0x0C (some 0) [(16, 16)] d u) (names : u.ctxOfRef (field d 16 4) = some c)
  (object : u.qpObj q (field d 24 8) = some o)
include starts names object

theorem steep_does {x : Ctx} (found : u.ctx? c = some x) (part : x.part = u.qpPart q) (cls : o.cls = 5) :
    exec (.steep q) s = .next ((u.modObj (refHandle (field d 24 8)) (fun r => { r with wr := false })).setService q d
      (.steep c (refHandle (field d 24 8)) (field d 20 4))) := by
  refine exec_of_starts rfl starts ?_
  rw [names, object]
  dsimp only
  rw [found]
  exact if_pos (by simp [part, cls])

theorem steep_refused (cls : o.cls ≠ 5) : exec (.steep q) s = .next (u.ends q d stAccess 0 0) := by
  refine exec_of_ends rfl starts ?_
  rw [names, object]
  exact if_neg (by simp [cls])

end Steep
end Objects

/-- Settles O24: REGISTER by the room it finds, the others by the object of their reference. -/
theorem objectDescriptors : Obligations.ObjectDescriptors := by
  intro s u v q i d o h
  refine ⟨fun starts => ⟨register_refused starts, fun size1 size48 cls rights1 rights3 slot slotPart live tenant own few quota undeclared
      room free => ?_⟩,
    fun object => ⟨fun starts => validate_does starts object, fun starts => release_does starts object,
      fun starts cls room => reclass_does starts object cls room, fun starts => query_does starts object⟩,
    fun c x starts names found part object cls => steep_does starts names object found part cls,
    fun c => ⟨validate_refused, fun starts names object cls => steep_refused starts names object cls⟩⟩
  exact register_cases starts (State.mayRegister_of size1 size48 cls rights1 rights3 slot slotPart live tenant own few quota undeclared
    room) free

/-! ### Near-memory operations and route maps -/

section Operations
variable {s u : State} {q : Nat} {d : List Byte}

theorem fill_does (starts : s.starts q 0x10 (some 2) [(16, 32)] d u) (len : nmeLen (field d 32 8) = true)
    (range : u.rangeOk q (field d 16 8) (field d 24 8) (field d 32 8) false true = true) :
    exec (.fill q) s = .next ((u.startNme q (.fill (refHandle (field d 16 8)) (field d 24 8) (field d 32 8) (field d 40 8))).1.setService
      q d (u.startNme q (.fill (refHandle (field d 16 8)) (field d 24 8) (field d 32 8) (field d 40 8))).2) :=
  exec_of_starts rfl starts (if_pos (by rw [len, range]; rfl))

section Pair
variable (len : nmeLen (field d 48 8) = true) (source : u.rangeOk q (field d 16 8) (field d 24 8) (field d 48 8) true false = true)
include len source

theorem copy_does (starts : s.starts q 0x11 (some 2) [(16, 40)] d u)
    (dest : u.rangeOk q (field d 32 8) (field d 40 8) (field d 48 8) false true = true) :
    let a := NmeArg.copy (refHandle (field d 16 8)) (field d 24 8) (refHandle (field d 32 8)) (field d 40 8) (field d 48 8)
    exec (.copy q) s = .next ((u.startNme q a).1.setService q d (u.startNme q a).2) :=
  exec_of_starts rfl starts (if_pos (by rw [len, source, dest]; rfl))

theorem compare_does (starts : s.starts q 0x12 (some 2) [(16, 40)] d u)
    (other : u.rangeOk q (field d 32 8) (field d 40 8) (field d 48 8) true false = true) :
    let a := NmeArg.compare (refHandle (field d 16 8)) (field d 24 8) (refHandle (field d 32 8)) (field d 40 8) (field d 48 8)
    exec (.compare q) s = .next ((u.startNme q a).1.setService q d (u.startNme q a).2) :=
  exec_of_starts rfl starts (if_pos (by rw [len, source, other]; rfl))

end Pair

theorem publish_does (starts : s.starts q 0x18 none [(16, 32)] d u) (aligned : field d 24 8 % 8 = 0)
    (range : u.rangeOk q (field d 16 8) (field d 24 8) 8 true true = true) :
    let a := NmeArg.publish (refHandle (field d 16 8)) (field d 24 8) (field d 32 8) (field d 40 8)
    exec (.publish q) s = .next ((u.startNme q a).1.setService q d (u.startNme q a).2) :=
  exec_of_starts rfl starts (if_pos (by rw [decide_eq_true aligned, range]; rfl))

/-- The list of REDUCE: its first `k` pairs, and the last. -/
theorem range_succ_take_getD {α : Type} (f : Nat → α) (k : Nat) (x : α) :
    ((List.range (k + 1)).map f).take k = (List.range k).map f ∧ ((List.range (k + 1)).map f).getD k x = f k := by
  constructor
  · rw [List.range_succ, List.map_append, List.take_left' (by simp)]
  · simp [List.getD_eq_getElem?_getD]

theorem reduce_does (starts : s.starts q 0x13 (some 2) [(16, 19), (40, 8)] d u) :
    let lh := refHandle (field d 16 8)
    let k := field d 32 1
    let len := field d 40 8
    let src := fun (i : Nat) => (u.wordAt lh (field d 24 8 + 16 * i), u.wordAt lh (field d 24 8 + 16 * i + 8))
    2 ≤ k → k ≤ 16 → field d 33 1 ∈ reduceFormats (field d 34 1) → nmeLen len = true →
    (∀ f, Fmt.ofCode (field d 33 1) = some f → len % f.bytes = 0) → (Fmt.ofCode (field d 33 1)).isSome = true →
    u.rangeOk q (field d 16 8) (field d 24 8) (16 * (k + 1)) true false = true →
    u.scanStatus lh [(field d 24 8, 16 * (k + 1))] = none →
    (∀ i, i < k → u.rangeOk q (src i).1 (src i).2 len true false = true) →
    u.rangeOk q (src k).1 (src k).2 len false true = true →
    let a := NmeArg.reduce ((List.range k).map (fun i => (refHandle (src i).1, (src i).2))) (refHandle (src k).1) (src k).2
      (field d 33 1) (field d 34 1) len
    exec (.reduce q) s = .next ((u.startNme q a).1.setService q d (u.startNme q a).2) := by
  intro lh k len src two sixteen format limit whole known list read sources dest a
  refine exec_of_starts rfl starts ?_
  obtain ⟨take, last⟩ := range_succ_take_getD src k (0, 0)
  obtain ⟨f, code⟩ := Option.isSome_iff_exists.mp known
  have formats : (reduceFormats (field d 34 1)).contains (field d 33 1) = true := List.contains_iff_mem.mpr format
  dsimp only
  refine (if_neg ?_).trans ?_
  · rw [decide_eq_true (show 2 ≤ field d 32 1 from two), decide_eq_true (show field d 32 1 ≤ 16 from sixteen), formats, limit, code,
      Option.getD_some, decide_eq_true (whole f code), list]
    decide
  · rw [show u.scanStatus _ _ = none from read]
    dsimp only
    rw [show ((List.range (field d 32 1 + 1)).map fun i => _).take (field d 32 1) = _ from take,
      show ((List.range (field d 32 1 + 1)).map fun i => _).getD (field d 32 1) (0, 0) = _ from last, List.map_map]
    refine if_pos ?_
    rw [List.all_map, dest, Bool.and_true]
    exact List.all_eq_true.mpr fun i member => sources i (List.mem_range.mp member)

theorem mapStage_does (starts : s.starts q 0x20 (some 3) [(16, 12)] d u) :
    let p := u.qpPart q
    let m := field d 24 4
    let es := (List.range m).map (fun i => u.bytesAt (refHandle (field d 16 8)) (32 * i) 32)
    let map := es.zipIdx.foldl (fun (a : KV (List Byte)) e => if reKind e.1 = 0 then a else kvSet a e.2 e.1) []
    1 ≤ m → m ≤ 8192 → u.rangeOk q (field d 16 8) 0 (32 * m) true false = true →
    u.scanStatus (refHandle (field d 16 8)) [(0, 32 * m)] = none → (∀ e ∈ es, u.entryOk p e = true) → noOverlap es = true →
    exec (.mapStage q) s = .next ((u.modPart p (fun x => { x with
        routeStaged := if map = (u.part p).routeCur.entries ∧ u.routeClosing p = false then none else some map })).ends q d stOk
          ((u.part p).routeCur.gen + 1) 0) := by
  intro p m es map one most range read entries apart
  refine exec_of_ends rfl starts ?_
  dsimp only
  refine (if_neg ?_).trans ?_
  · rw [decide_eq_true (show 1 ≤ field d 24 4 from one), decide_eq_true (show field d 24 4 ≤ 8192 from most), range]
    decide
  · rw [show u.scanStatus _ _ = none from read]
    refine (if_neg ?_).trans rfl
    rw [show es.all (u.entryOk p) = true from List.all_eq_true.mpr entries, apart]
    decide

end Operations

/-- Settles O25: each operation by the checks of its ranges. -/
theorem operationDescriptors : Obligations.OperationDescriptors := by
  intro s u q d at16 at32 n begin'
  exact ⟨fun starts len range => fill_does starts len range, fun len source => ⟨fun starts dest => copy_does len source starts dest,
      fun starts other => compare_does len source starts other⟩, reduce_does, fun starts aligned range => publish_does starts aligned range,
    mapStage_does⟩

end Sys2Proof.Machine
end

section
/-!
PROOFS. The completion of a descriptor is written to its ring (R349, R350).
-/
namespace Sys2Proof.Machine

section Completion
variable {s : State} {q st r0 r1 : Nat} {d : List Byte} (ended : (s.qp q).service = some (d, .done st r0 r1))
include ended

/-- A queue pair whose descriptor has ended starts nothing and waits for nothing. -/
theorem State.progress_startUnknown_of_done : (s.startUnknown q).progress q = s := by
  have none : s.takeDesc q = none := by
    rw [State.takeDesc, ended]
    exact if_neg (by simp)
  rw [State.startUnknown, none]
  unfold State.progress
  rw [ended]

/-- The completion is written where the ring's next entry is free and can be reached. -/
theorem completionWrite_of_room (hc : Nat) {t : State} (room : (s.qp q).written < (s.qp q).consumed + s.cqSize q)
    (reach : (!s.cqHost q && !s.ringOk q (64 + 32 * ((s.qp q).written % s.cqSize q) + 32)) = false)
    (free : (!s.cqHost q && (blocksOf 64 (64 + 32 * ((s.qp q).written % s.cqSize q)) 32).any (fun l =>
      s.snooping (refHandle (s.fget Reg.CTX_QP_B_CQ_BASE [q])) l ||
        (match s.dirEntry (refHandle (s.fget Reg.CTX_QP_B_CQ_BASE [q])) l with
          | some e => e.conflicts true
          | none => false))) = false)
    (stored : (if s.cqHost q then
        (if s.suppressed (s.qpPart q) then s.modQp q (fun y => { y with consumed := (s.qp q).consumed })
        else (s.modQp q (fun y => { y with consumed := (s.qp q).consumed })).emit
          (.hostWrite (s.fget Reg.CTX_QP_B_CQ_BASE [q] + (64 + 32 * ((s.qp q).written % s.cqSize q)))
            (completionEntry (field d 8 8) st ((s.qp q).written / s.cqSize q % 2) ((s.qp q).taken % 2 ^ 16) r0 r1)))
      else (s.modQp q (fun y => { y with consumed := (s.qp q).consumed })).storeObj (refHandle (s.fget Reg.CTX_QP_B_CQ_BASE [q]))
        (64 + 32 * ((s.qp q).written % s.cqSize q))
        (completionEntry (field d 8 8) st ((s.qp q).written / s.cqSize q % 2) ((s.qp q).taken % 2 ^ 16) r0 r1)) = t) :
    exec (.completionWrite q hc) s = .next ((t.digestAdd (s.qpPart q) [5, q, field d 8 8, st, r0, r1]).modQp q (fun y => { y with
      service := none
      written := y.written + 1
      reported := false })) := by
  have room' : ¬ (s.qp q).consumed + s.cqSize q ≤ (s.qp q).written := Nat.not_le.mpr room
  subst stored
  show execCompletionWrite q hc s = _
  unfold execCompletionWrite
  rw [State.progress_startUnknown_of_done ended]
  dsimp only
  rw [ended]
  dsimp only
  refine congrArg Host.Outcome.next ((if_neg (Bool.eq_false_iff.mp reach)).trans ?_)
  rw [if_neg room', if_neg room']
  exact if_neg (Bool.eq_false_iff.mp free)

end Completion

/-- Settles O27: a ring in host memory, then one in an object. -/
theorem completionsWritten : Obligations.CompletionsWritten := by
  intro s q hc st r0 r1 d valid ended p n size off ref entry done room
  refine ⟨fun host loud => ?_, fun object reach clear => ?_⟩
  · refine completionWrite_of_room ended hc room (by rw [host]; rfl) (by rw [host]; rfl) ?_
    rw [if_pos host, if_neg (Bool.eq_false_iff.mp loud)]
  · refine completionWrite_of_room ended hc room ?_ ?_ (if_neg (Bool.eq_false_iff.mp object))
    · rw [show s.ringOk q _ = true from reach, Bool.not_true, Bool.and_false]
    · refine Bool.and_eq_false_iff.mpr (.inr (List.any_eq_false.mpr fun l block => ?_))
      obtain ⟨quiet, permitted⟩ := clear l block
      rw [show s.snooping _ l = false from quiet, Bool.false_or]
      cases h : s.dirEntry (refHandle (s.fget Reg.CTX_QP_B_CQ_BASE [q])) l with
      | none => decide
      | some e => exact Bool.eq_false_iff.mp (permitted e h)

end Sys2Proof.Machine
end

section
/-!
PROOFS. The events of the placement engine (R246 to R250, R259, R262, R263, R268). The end of an imbalance window may evict
extents and stage moves; what it must leave alone are the contexts and the bytes of the objects, and each operation it uses is
shown to.
-/
namespace Sys2Proof.Machine

/-! ### What leaves the contexts and the bytes of the objects -/

/-- The bytes of the object of a handle. -/
def State.contents (s : State) (h : Nat) : Option Memory := (s.obj? h).map (fun o => o.data)

/-- The contexts and the bytes of every object are those of another state. -/
def State.SameContent (t s : State) : Prop := t.ctxs = s.ctxs ∧ ∀ h, t.contents h = s.contents h

theorem State.SameContent.refl (s : State) : s.SameContent s := ⟨rfl, fun _ => rfl⟩

theorem State.SameContent.trans {u t s : State} (second : u.SameContent t) (first : t.SameContent s) : u.SameContent s :=
  ⟨second.1.trans first.1, fun h => (second.2 h).trans (first.2 h)⟩

/-- Operations that touch neither contexts nor objects. -/
theorem State.SameContent.of_eq {t s : State} (ctxs : t.ctxs = s.ctxs) (objs : t.objs = s.objs) : t.SameContent s :=
  ⟨ctxs, fun h => by rw [State.contents, State.contents, State.obj?, State.obj?, objs]⟩

theorem State.SameContent.ite {c : Prop} [Decidable c] {a b s : State} (yes : a.SameContent s) (no : b.SameContent s) :
    (if c then a else b).SameContent s := by
  split
  · exact yes
  · exact no

theorem State.SameContent.foldl {α : Type} (f : State → α → State) (step : ∀ t a, (f t a).SameContent t) (l : List α)
    (s : State) : (l.foldl f s).SameContent s := by
  induction l generalizing s with
  | nil => exact .refl s
  | cons a r ih => exact (ih (f s a)).trans (step s a)

/-- A change of an object that leaves its bytes. -/
theorem State.modObj_sameContent (s : State) (h : Nat) (f : Obj → Obj) (kept : ∀ o, (f o).data = o.data) :
    (s.modObj h f).SameContent s := by
  refine ⟨rfl, fun k => ?_⟩
  by_cases same : k = h
  · rw [State.contents, State.contents, same, State.obj?_modObj_self]
    cases s.obj? h with
    | none => rfl
    | some o => exact congrArg Option.some (kept o)
  · rw [State.contents, State.contents, State.obj?_modObj_other _ same]

theorem State.fset_sameContent (s : State) (f : RField) (ix : List Nat) (n : Nat) : (s.fset f ix n).SameContent s :=
  .of_eq (s.fset_ctxs ..) (s.fset_objs ..)

theorem State.fsat_sameContent (s : State) (f : RField) (ix : List Nat) (n : Nat) : (s.fsat f ix n).SameContent s :=
  .of_eq (s.fsat_ctxs ..) (s.fsat_objs ..)

theorem State.newReq_sameContent (s : State) (ow : ReqOwner) (p h l : Nat) (wr : Bool) (tier tray port out : Nat) :
    (s.newReq ow p h l wr tier tray port out).SameContent s := by
  refine .of_eq ?_ ?_ <;> unfold State.newReq State.wake State.modShare <;> dsimp only <;> split <;> rfl

theorem State.addReq_sameContent (s : State) (ow : ReqOwner) (p h l : Nat) (wr : Bool) (tray : Nat) :
    (s.addReq ow p h l wr tray).SameContent s :=
  State.SameContent.trans (.of_eq rfl rfl) (s.newReq_sameContent ow p h l wr 2 tray ((s.portOfTray tray).getD 271) ((s.portOfTray tray).getD 271))

theorem State.addStackReq_sameContent (s : State) (ow : ReqOwner) (p h l : Nat) (wr : Bool) (c : Nat) :
    (s.addStackReq ow p h l wr c).SameContent s := by
  refine State.SameContent.trans ?_ (s.newReq_sameContent ow p h l wr 1 (stackOfChannel c) 256 (262 + stackOfChannel c))
  refine .of_eq ?_ ?_ <;> unfold State.addStackReq State.chargeTags State.modShare <;> dsimp only <;> split <;> rfl

theorem State.writeBackGranule_sameContent (s : State) (o : Obj) (h e g : Nat) :
    (s.writeBackGranule o h e g).SameContent s := by
  unfold State.writeBackGranule
  split
  · refine State.SameContent.foldl _ (fun t l => ?_) _ s
    exact State.SameContent.foldl _ (fun u y => u.addReq_sameContent ..) _ t
  · exact .refl s

theorem State.evictExtent_sameContent (s : State) (h e : Nat) : (s.evictExtent h e).1.SameContent s := by
  unfold State.evictExtent
  split
  · exact .refl s
  · split
    · exact .refl s
    · split
      · exact s.modObj_sameContent h _ (by intro; rfl)
      · split
        · exact s.fsat_sameContent ..
        · exact (State.SameContent.foldl _ (fun t g => t.writeBackGranule_sameContent ..) _ _).trans
            (s.modObj_sameContent h _ (by intro; rfl))

theorem State.makeRoom_sameContent (s : State) (p n k : Nat) : (s.makeRoom p n k).1.SameContent s := by
  induction k generalizing s with
  | zero => exact .refl s
  | succ k ih =>
    unfold State.makeRoom
    split
    · exact .refl s
    · split
      · exact .refl s
      · split
        · exact .refl s
        · next h e _ =>
          have evicted := s.evictExtent_sameContent h e
          split
          · next t found => rw [found] at evicted; exact (ih t).trans evicted
          · exact evicted

theorem State.requestMove_sameContent (s : State) (ow : ReqOwner) (o : Obj) (h l : Nat) :
    (s.requestMove ow o h l).SameContent s := by
  unfold State.requestMove
  split
  · exact .refl s
  · dsimp only
    split
    · split
      · exact s.addStackReq_sameContent ..
      · exact .refl s
    · split
      · exact .foldl _ (fun t y => t.addReq_sameContent ..) _ s
      · exact .refl s

/-- The copy of a move reads a line at its home and brings nothing into tier 1. -/
theorem State.requestLine_move_sameContent (s : State) (h l : Nat) :
    (s.requestLine (.move h) h l false).SameContent s := by
  unfold State.requestLine
  simp only [Bool.false_eq_true, if_false, Bool.false_and, ReqOwner.demands, Bool.and_false]
  split
  · exact .refl s
  · split
    · exact .refl s
    · split
      · exact .refl s
      · split
        · exact s.addStackReq_sameContent ..
        · exact .refl s
      · split
        · exact .refl s
        · split
          · exact s.addReq_sameContent ..
          · exact .refl s

theorem State.startMove_sameContent (s : State) (h : Nat) : (s.startMove h).SameContent s := by
  unfold State.startMove
  split
  · exact .refl s
  · exact .foldl _ (fun t l => (State.requestMove_sameContent ..).trans (t.requestLine_move_sameContent h l)) _ s

theorem State.beginMove_sameContent (s : State) (h : Nat) (m : Move) : (s.beginMove h m).SameContent s := by
  unfold State.beginMove
  split
  · exact .refl s
  · next o _ =>
    have room := s.makeRoom_sameContent (handlePart h) (moveBytes o m.cls) (s.extentCount (handlePart h))
    dsimp only
    split
    · next t found =>
      rw [found] at room
      exact ((State.startMove_sameContent ..).trans (t.modObj_sameContent h _ (by intro; rfl))).trans room
    · next t _ _ found =>
      rw [found] at room
      exact (t.modObj_sameContent h _ (by intro; rfl)).trans room

theorem State.stageMove_sameContent (s : State) (h cls : Nat) (pairs : List Nat) :
    (s.stageMove h cls pairs).SameContent s := by
  unfold State.stageMove
  split
  · exact .refl s
  · split
    · exact s.fsat_sameContent ..
    · exact (State.beginMove_sameContent ..).trans (.of_eq rfl rfl)

/-- One side of the imbalance procedure leaves the contexts and the bytes of the objects (R250). -/
theorem State.imbalEnd_sameContent (s : State) (n : Nat) (tier1 : Bool) (loads : KV Nat) (i : Imbal) (run req : RField) :
    (s.imbalEnd n tier1 loads i run req).1.SameContent s := by
  have runs : (s.runWindow n tier1 loads run req).SameContent s :=
    State.SameContent.foldl _ (fun t c => (State.fset_sameContent ..).trans (State.fset_sameContent ..)) _ s
  unfold State.imbalEnd
  dsimp only
  generalize made : (if i.hot.isEmpty = true then _ else _ : State) = s2
  have judged : s2.SameContent s := by
    rw [← made]
    refine .ite runs ((State.SameContent.foldl _ (fun t c => State.fset_sameContent ..) _ _).trans (.trans ?_ runs))
    refine State.SameContent.foldl _ (fun t e => ?_) _ _
    split
    · exact .refl t
    · exact .ite (.refl t) (.ite (t.fsat_sameContent ..) (t.stageMove_sameContent ..))
  split
  · exact (s2.fsat_sameContent ..).trans judged
  · exact judged

/-! ### Fills -/

theorem State.fillOf_key {s : State} {h g : Nat} {f : Fill}
    (found : s.fills.find? (fun e => decide (e.handle = h) && decide (e.granule = g) && !e.waiting) = some f) :
    f.handle = h ∧ f.granule = g := by
  have key := List.find?_some found
  simp only [Bool.and_eq_true, decide_eq_true_eq] at key
  exact key.1

/-- The copy of a fill makes its granule present and touches its extent; the bytes of the object stay. -/
theorem State.fillCopy_present {s : State} {f : Fill} {o o' : Obj} {k : Extent}
    (after : (s.fillCopy f).obj? f.handle = some o') (before : s.obj? f.handle = some o)
    (extent : kvGet? o.extents (extentOf f.granule) = some k) :
    o'.data = o.data ∧ kvGet? o'.extents (extentOf f.granule) = some { k with
      touch := (s.part (handlePart f.handle)).orbit
      present := setIns k.present f.granule } := by
  unfold State.fillCopy at after
  rw [before] at after
  dsimp only at after
  rw [State.obj?_modObj_self, show (s.chargeTags (1024 + s.channelOf o f.handle f.granule) f.charge 4096).obj? f.handle
    = some o from before] at after
  cases after
  refine ⟨rfl, ?_⟩
  dsimp only
  rw [kvGet?_kvMod_self, extent]
  rfl

/-! ### The events -/

theorem exec_requestLate {s : State} {id : Nat} {r : Req} (found : s.req? id = some r) (fresh : r.late = false)
    (sound : r.failing = false) (waits : r.state ≠ .answered)
    (old : r.since + s.fget (if r.tier = 1 then Reg.PLACE_TIER1_T_LATE_T else Reg.PLACE_TIER2_T_LATE_T) [] < s.now) :
    exec (.requestLate id) s =
      .next ((s.modReq id (fun q => { q with late := true })).fsat Reg.PLACE_EVT_LATE [r.part] 1) := by
  show execRequestLate id s = _
  unfold execRequestLate
  rw [found]
  refine congrArg Host.Outcome.next (if_neg ?_)
  rw [← apply_ite (fun f => s.fget f []), fresh, sound, decide_eq_false waits, decide_eq_false (Nat.not_le.mpr old)]
  decide

theorem exec_requestFailTimeout {s : State} {id : Nat} {r : Req} (found : s.req? id = some r) (sent : r.state = .sent)
    (old : r.since + s.fget (if r.tier = 1 then Reg.PLACE_TIER1_T_FAIL_T else Reg.PLACE_TIER2_T_FAIL_T) [] < s.now) :
    exec (.requestFailTimeout id) s = .next (if r.tier = 1 then (s.fsat Reg.PLACE_EVT_FAIL [r.part] 1).loseStack r.tray
      else (s.failReq id false).finishAccs) := by
  show execRequestFailTimeout id s = _
  unfold execRequestFailTimeout
  rw [found]
  refine congrArg Host.Outcome.next (if_neg ?_)
  rw [← apply_ite (fun f => s.fget f []), sent, decide_eq_false (Nat.not_le.mpr old)]
  decide

theorem exec_granuleFillDone {s : State} {h g : Nat} {f : Fill}
    (found : s.fills.find? (fun e => decide (e.handle = h) && decide (e.granule = g) && !e.waiting) = some f)
    (answered : ∀ q ∈ s.reqs, q.owner = .fill h g → q.state = .answered)
    (cold : ∀ d ∈ s.hot, ¬(d.handle = h ∧ granuleOfLine d.line = g)) (good : worst (s.reqFinals (.fill h g)) = none) :
    exec (.granuleFillDone h g) s = .next (((s.fillCopy f).endFill h g none).finishAccs) := by
  show execGranuleFillDone h g s = _
  unfold execGranuleFillDone
  rw [found]
  dsimp only
  rw [good]
  refine congrArg Host.Outcome.next (if_neg ?_)
  simp only [Bool.or_eq_true, List.any_eq_true, Bool.and_eq_true, decide_eq_true_eq, not_or, not_exists, not_and]
  exact ⟨fun q member owner open' => open' (answered q member owner), fun d member h' g' => cold d member ⟨h', g'⟩⟩

theorem exec_moveCopyDone {s : State} {h : Nat} {o : Obj} {m : Move} (found : s.obj? h = some o) (staged : o.move = some m)
    (copying : m.copied = false) (room : m.room = true) (rate : s.fget Reg.PLACE_MOVE_CTRL_MOVE_RATE [] ≠ 0)
    (answered : s.reqsAnswered (.move h) = true) :
    exec (.moveCopyDone h) s =
      .next (((s.dropReqs (.move h)).modObj h (fun q => { q with move := some { m with copied := true } })).raiseDev
        (handlePart h)) := by
  show execMoveCopyDone h s = _
  unfold execMoveCopyDone
  rw [found]
  dsimp only
  rw [staged]
  refine congrArg Host.Outcome.next (if_neg ?_)
  rw [copying, room, answered, beq_false_of_ne rate]
  decide

theorem exec_oldLayoutFree {s : State} {h : Nat} {o : Obj} {old : Nat × Nat × Nat} (found : s.obj? h = some o)
    (kept : o.old = some old) (unused : ∀ q ∈ s.reqs, q.handle = h → old.2.2 ≤ q.id) :
    exec (.oldLayoutFree h) s = .next (s.modObj h (fun q => { q with old := none })) := by
  show execOldLayoutFree h s = _
  unfold execOldLayoutFree
  rw [found]
  dsimp only
  rw [kept]
  refine congrArg Host.Outcome.next (if_neg ?_)
  simp only [List.any_eq_true, Bool.and_eq_true, decide_eq_true_eq, not_exists, not_and, Nat.not_lt]
  exact unused

theorem exec_imbalWindowEnd {s : State} (due : s.winStart + s.windowCycles ≤ s.now) :
    ∃ t, exec .imbalWindowEnd s = .next t ∧ t.chanLoad = [] ∧ t.trayLoad = [] ∧ t.winStart = s.now ∧
      t.imbC = (s.imbalEnd 512 true s.chanLoad s.imbC Reg.PLACE_CHAN_LOAD_HOT_RUN Reg.PLACE_CHAN_LOAD_REQUESTS).2 ∧
      t.SameContent s := by
  show ∃ t, execImbalWindowEnd s = .next t ∧ _
  unfold execImbalWindowEnd
  have chans := s.imbalEnd_sameContent 512 true s.chanLoad s.imbC Reg.PLACE_CHAN_LOAD_HOT_RUN Reg.PLACE_CHAN_LOAD_REQUESTS
  generalize s.imbalEnd 512 true s.chanLoad s.imbC Reg.PLACE_CHAN_LOAD_HOT_RUN Reg.PLACE_CHAN_LOAD_REQUESTS = c at chans ⊢
  have trays := c.1.imbalEnd_sameContent 24 false s.trayLoad s.imbT Reg.PLACE_TRAY_LOAD_HOT_RUN Reg.PLACE_TRAY_LOAD_REQUESTS
  dsimp only
  generalize c.1.imbalEnd 24 false s.trayLoad s.imbT Reg.PLACE_TRAY_LOAD_HOT_RUN Reg.PLACE_TRAY_LOAD_REQUESTS = d at trays ⊢
  rw [if_neg (Nat.not_lt.mpr due)]
  generalize ((List.range 512).filter (fun c => s.wasHot s.chanLoad (s.peersOf c) c)).length = n
  have counted := (d.1.fset_sameContent Reg.PLACE_IMBAL_STAT_HOT_CHANS [] n).trans (trays.trans chans)
  generalize d.1.fset Reg.PLACE_IMBAL_STAT_HOT_CHANS [] n = e at counted ⊢
  exact ⟨_, rfl, rfl, rfl, rfl, rfl, counted.1, counted.2⟩

theorem State.retryFill_of_made {s u : State} {f : Fill} (room : s.roomForExtent f.handle (extentOf f.granule) = (u, .made)) :
    let v : State := { u with fills := u.fills.map (fun q =>
      if q.handle = f.handle ∧ q.granule = f.granule then { q with waiting := false } else q) }
    s.retryFill f = (v.fillRead f.handle f.granule).getD (v.endFill f.handle f.granule (some stPoison)) := by
  unfold State.retryFill
  rw [room]

/-- Settles O20: each event of the placement engine by what it finds; an imbalance round keeps contexts and bytes (`SameContent`). -/
theorem placementEventsAndRounds : Obligations.PlacementEventsAndRounds := by
  refine ⟨fun s id h g r o m old f => ⟨fun found => ⟨exec_requestLate found, exec_requestFailTimeout found⟩,
    fun found answered cold good => ⟨exec_granuleFillDone found answered cold good, ?_⟩,
    fun found => ⟨exec_moveCopyDone found, exec_oldLayoutFree found⟩⟩,
    fun s p n bad shared maps => ⟨fun due => ?_, rfl, fun f u => State.retryFill_of_made, fun runs => ?_, fun stopped => ?_⟩⟩
  · obtain ⟨rfl, rfl⟩ := State.fillOf_key found
    exact fun k o' after before extent => State.fillCopy_present after before extent
  · obtain ⟨t, done, chan, tray, start, imb, ctxs, data⟩ := exec_imbalWindowEnd due
    exact ⟨t, done, chan, tray, start, imb, ctxs, data⟩
  · exact congrArg Host.Outcome.next (if_neg runs)
  · exact congrArg Host.Outcome.next (if_pos stopped)

end Sys2Proof.Machine
end

section
/-!
PROOFS. The end of near-memory operations (R265 to R267, R284, R285) and the combiners of a home (R287).
-/
namespace Sys2Proof.Machine

/-! ### Near-memory operations -/

/-- The end of an operation: its requests and itself leave, and its descriptor is done with a status and two results. -/
def State.finishNme (t : State) (n : NmeOp) (id st r0 r1 : Nat) : State :=
  ({ t.dropReqs (.nme id) with nmes := t.nmes.filter (fun e => decide (e.id ≠ id)) } : State).modQp n.qp (fun q =>
    { q with service := q.service.map (fun v => if v.2 = .nme id then (v.1, .done st r0 r1) else v) })

theorem exec_nmeOperationEnd_whole {s : State} {id : Nat} {n : NmeOp}
    (found : s.nmes.find? (fun e => decide (e.id = id)) = some n) (ready : s.opReady id n.arg = true)
    (other : ∀ h off e new, n.arg ≠ .publish h off e new) (good : ∀ r ∈ n.arg.ranges, s.rangeFails (.nme id) r = []) :
    exec (.nmeOperationEnd id none) s =
      .next ((s.nmeEffect n.arg n.arg.len).1.finishNme n id stOk (s.nmeEffect n.arg n.arg.len).2.1
        (s.nmeEffect n.arg n.arg.len).2.2) := by
  show execNmeOperationEnd id none s = _
  unfold execNmeOperationEnd
  rw [found]
  refine congrArg Host.Outcome.next ((if_neg (by rw [ready]; decide)).trans ?_)
  dsimp only
  split
  · next h off e new arg => exact absurd arg (other h off e new)
  · rw [List.flatMap_eq_nil_iff.mpr good]
    rfl

theorem worst_append_none {l : List (Option Nat)} (good : worst l = none) : worst (l ++ [none]) = none := by
  rw [worst, List.foldl_append, ← worst, good]
  rfl

theorem exec_nmeOperationEnd_publish {s : State} {id h off e new : Nat} {n : NmeOp} {o : Obj}
    (found : s.nmes.find? (fun e => decide (e.id = id)) = some n) (ready : s.opReady id n.arg = true)
    (arg : n.arg = .publish h off e new) (asked : n.found = none) (obj : s.obj? h = some o) (plain : o.decl = 0)
    (answered : worst (s.reqFinals (.nme id)) = none)
    (good : s.readStatus o h (off / 64) (s.sentLine (.nme id) h (off / 64)) = none) :
    exec (.nmeOperationEnd id none) s =
      .next ((s.doPublish h off e new).1.finishNme n id (if (s.doPublish h off e new).2 = e then stOk else stConflict)
        (s.doPublish h off e new).2 0) := by
  show execNmeOperationEnd id none s = _
  unfold execNmeOperationEnd
  rw [found]
  refine congrArg Host.Outcome.next ((if_neg (by rw [ready]; decide)).trans ?_)
  dsimp only
  rw [arg]
  dsimp only
  rw [obj, asked]
  dsimp only
  rw [if_neg (by decide), good, worst_append_none answered]
  dsimp only
  rw [if_pos plain, ite_self]
  rfl

/-! ### Combiners -/

theorem exec_combinerLineEnter {s : State} {h l k : Nat} (home : s.combinerOf h l = some k)
    (enabled : s.fget Reg.XBAR_FAB_CTRL_ENTER [] ≠ 0)
    (many : s.fget Reg.XBAR_FAB_CTRL_ENTER [] ≤ (s.waitingAt h l).length) (cold : s.hotLine h l = none)
    (unheld : s.dirEntry h l = none) (settled : s.coherentWaits h l = false) :
    exec (.combinerLineEnter h l) s = .next
      (if 32 ≤ (s.hot.filter (fun d => decide (d.home = k))).length then s.fsat Reg.XBAR_COMB_STAT_FULL_EVT [] 1
      else { s.dropLineReqs h l ((s.waitingAt h l).take 64) with
        hot := s.hot ++ [⟨k, h, l, (s.waitingAt h l).take 64, s.now⟩] }) := by
  show execCombinerLineEnter h l s = _
  unfold execCombinerLineEnter
  rw [home]
  refine congrArg Host.Outcome.next (if_neg ?_)
  rw [cold, unheld, settled]
  simp [enabled, many]

theorem exec_combinerApply {s : State} {h l : Nat} {d : HotLine} {ow : ReqOwner} {r : List ReqOwner}
    (hot : s.hotLine h l = some d) (queue : d.queue = ow :: r) (turn : s.hotTurn ow = true) :
    exec (.combinerApply h l) s = .next (((({ s with hot := s.hot.map (fun e =>
      if e = d then { e with queue := r, last := s.now } else e) } : State).applyHot ow l).fwrap
        Reg.XBAR_COMB_STAT_APPLIED [] 1).finishAccs) := by
  show execCombinerApply h l s = _
  unfold execCombinerApply
  rw [hot]
  dsimp only
  rw [queue]
  exact congrArg Host.Outcome.next (if_neg (by rw [turn]; decide))

theorem exec_combinerLineLeave {s : State} {h l : Nat} {d : HotLine} (hot : s.hotLine h l = some d) (empty : d.queue = [])
    (idle : d.last + max 1 (s.fget Reg.XBAR_FAB_CTRL_COOL []) ≤ s.now) :
    exec (.combinerLineLeave h l) s = .next { s with hot := s.hot.filter (fun e => decide (e ≠ d)) } := by
  show execCombinerLineLeave h l s = _
  unfold execCombinerLineLeave
  rw [hot]
  exact congrArg Host.Outcome.next (if_pos (by rw [empty, decide_eq_true idle]; rfl))

/-- Settles O21: the ends of near-memory operations, then entering, applying and leaving of a combiner. -/
theorem nearMemoryAndCombiners : Obligations.NearMemoryAndCombiners := by
  refine ⟨fun s id n found ready => ⟨exec_nmeOperationEnd_whole found ready, fun h off e new o arg asked obj plain answered
    good => exec_nmeOperationEnd_publish found ready arg asked obj plain answered good⟩,
    fun s h l k d ow r => ⟨fun home enabled many cold unheld settled => ?_,
      fun hot => ⟨exec_combinerApply hot, exec_combinerLineLeave hot⟩⟩⟩
  rw [exec_combinerLineEnter home enabled many cold unheld settled]
  exact ⟨fun room => congrArg Host.Outcome.next (if_neg (Nat.not_le.mpr room)), fun full => congrArg Host.Outcome.next (if_pos full)⟩

end Sys2Proof.Machine
end

section
/-!
PROOFS. The accesses of the pilot function to its registers (R5 to R7, R31, R46, R402, R405, R562): what each does, and that none
changes an SL field after seal (R454).
-/
namespace Sys2Proof.Machine

/-! ### One access -/

theorem exec_bar0UnalignedAccess_write {s : State} {off n : Nat} (opened : s.bar0Open = true) (bad : n ≠ 8 ∨ off % 8 ≠ 0) :
    exec (.bar0UnalignedAccess off ⟨true, n⟩) s = .next (s.refuseAccess off) := by
  have odd : (!(decide (n = 8) && decide (off % 8 = 0))) = true := by
    rw [← Bool.decide_and, ← decide_not, decide_eq_true_eq, Decidable.not_and_iff_not_or_not]
    exact bad
  show execBar0UnalignedAccess off ⟨true, n⟩ s = _
  unfold execBar0UnalignedAccess
  dsimp only
  simp only [odd, opened, Bool.and_self, if_true, Bool.not_true, Bool.and_false, Bool.not_false]

/-- An open BAR0 is not in D3hot. -/
theorem State.not_d3hot_of_open {s : State} (opened : s.bar0Open = true) : s.pilot.d3hot = false := by
  simp only [State.bar0Open, Bool.and_eq_true, Bool.not_eq_true'] at opened
  exact opened.1.2

theorem exec_bar0UnalignedAccess_read {s : State} {off n : Nat} (opened : s.bar0Open = true) (bad : n ≠ 8 ∨ off % 8 ≠ 0) :
    exec (.bar0UnalignedAccess off ⟨false, n⟩) s = .next ((s.refuseAccess off).emit (.bar0 off 0)) := by
  have odd : (!(decide (n = 8) && decide (off % 8 = 0))) = true := by
    rw [← Bool.decide_and, ← decide_not, decide_eq_true_eq, Decidable.not_and_iff_not_or_not]
    exact bad
  show execBar0UnalignedAccess off ⟨false, n⟩ s = _
  unfold execBar0UnalignedAccess
  dsimp only
  simp only [odd, opened, State.not_d3hot_of_open opened, Bool.and_self, Bool.not_false, Bool.not_true, if_true,
    Bool.and_false, Bool.false_eq_true, if_false]

theorem State.bar0Write_closed {s : State} (closed : s.bar0Open = false) (off : Nat) (v : Word) : s.bar0Write off v = s := by
  unfold State.bar0Write
  exact if_pos (by rw [closed]; rfl)

/-- An open BAR0 takes a write of a register from a host that may make it. -/
theorem State.bar0Write_open {s : State} {off : Nat} {r : RegName} {ix : List Nat} (opened : s.bar0Open = true)
    (at' : regAt off = some (r, ix)) (v : Word) :
    s.bar0Write off v =
      if decide (r.desc.owner = .first) && !s.partValid (ix.headD 0) then s.refuseAccess off
      else if !s.holdsPriv r.desc.wpriv (s.regPart r ix) then s.refuseAccess off
      else (s.writeSpecial r ix v).getD
        (if (s.writeFields r ix v).2 then (s.writeFields r ix v).1.refuseAccess off else (s.writeFields r ix v).1) := by
  unfold State.bar0Write
  rw [if_neg (by rw [opened]; decide), at']
  dsimp only
  cases s.writeSpecial r ix v with
  | none => rfl
  | some t => rfl

theorem State.bar0Write_invalid {s : State} {off : Nat} {r : RegName} {ix : List Nat} (opened : s.bar0Open = true)
    (at' : regAt off = some (r, ix)) (owner : r.desc.owner = .first) (invalid : s.partValid (ix.headD 0) = false) (v : Word) :
    s.bar0Write off v = s.refuseAccess off := by
  rw [State.bar0Write_open opened at']
  exact if_pos (by rw [decide_eq_true owner, invalid]; rfl)

theorem State.bar0Write_unprivileged {s : State} {off : Nat} {r : RegName} {ix : List Nat} (opened : s.bar0Open = true)
    (at' : regAt off = some (r, ix)) (lacks : s.holdsPriv r.desc.wpriv (s.regPart r ix) = false) (v : Word) :
    s.bar0Write off v = s.refuseAccess off := by
  rw [State.bar0Write_open opened at']
  split
  · rfl
  · exact if_pos (by rw [lacks]; rfl)

theorem State.bar0Write_may {s : State} {off : Nat} {r : RegName} {ix : List Nat} (may : s.mayWrite r ix)
    (at' : regAt off = some (r, ix)) (v : Word) :
    s.bar0Write off v = (s.writeSpecial r ix v).getD
      (if (s.writeFields r ix v).2 then (s.writeFields r ix v).1.refuseAccess off else (s.writeFields r ix v).1) := by
  obtain ⟨opened, valid, priv⟩ := may
  have owned : ¬((decide (r.desc.owner = .first) && !s.partValid (ix.headD 0)) = true) := by
    rw [Bool.and_eq_true, decide_eq_true_eq, Bool.not_eq_true', not_and, Bool.not_eq_false]
    exact valid
  rw [State.bar0Write_open opened at', if_neg owned, if_neg (by rw [priv]; decide)]

/-- A write that only access codes govern, where SL fields are left or not sealed (R7). -/
theorem State.bar0Write_plain {s : State} {off : Nat} {r : RegName} {ix : List Nat} (may : s.mayWrite r ix)
    (at' : regAt off = some (r, ix)) {v : Word} (plain : s.writeSpecial r ix v = none) :
    s.bar0Write off v =
      if (s.writeFields r ix v).2 then (s.writeFields r ix v).1.refuseAccess off else (s.writeFields r ix v).1 := by
  rw [State.bar0Write_may may at', plain, Option.getD_none]

/-- What a write leaves in the RW, W1C and ST fields of a register (R7). -/
def State.writeCodes (s : State) (r : RegName) (ix : List Nat) (v : Word) : State :=
  let t := s.setRegW r ix (takeBits (r.mask .rw) (s.regW r ix) v &&& ~~~ (v &&& r.mask .w1c))
  if r.mask .st = 0 then t else t.setStagedW r ix v

theorem State.writeFields_eq (s : State) (r : RegName) (ix : List Nat) (v : Word) :
    s.writeFields r ix v =
      if (v ^^^ s.regW r ix) &&& r.mask .sl = 0 then (s.writeCodes r ix v, false)
      else if s.fget Reg.PART_SEAL_SEALED [] = 1 then (s.writeCodes r ix v, true)
      else ((s.writeCodes r ix v).setSlW r ix v, false) := by
  unfold State.writeFields State.writeCodes
  rfl

theorem State.bar0Write_of_sl_same {s : State} {off : Nat} {r : RegName} {ix : List Nat} (may : s.mayWrite r ix)
    (at' : regAt off = some (r, ix)) {v : Word} (plain : s.writeSpecial r ix v = none)
    (same : (v ^^^ s.regW r ix) &&& r.mask .sl = 0) : s.bar0Write off v = s.writeCodes r ix v := by
  rw [State.bar0Write_plain may at' plain, State.writeFields_eq, if_pos same]
  exact if_neg Bool.false_ne_true

theorem State.bar0Write_of_sealed {s : State} {off : Nat} {r : RegName} {ix : List Nat} (may : s.mayWrite r ix)
    (at' : regAt off = some (r, ix)) {v : Word} (plain : s.writeSpecial r ix v = none)
    (differs : (v ^^^ s.regW r ix) &&& r.mask .sl ≠ 0) (sealed : s.fget Reg.PART_SEAL_SEALED [] = 1) :
    s.bar0Write off v = (s.writeCodes r ix v).refuseAccess off := by
  rw [State.bar0Write_plain may at' plain, State.writeFields_eq, if_neg differs, if_pos sealed]
  exact if_pos rfl

theorem State.readOut_open {s : State} {off : Nat} {r : RegName} {ix : List Nat} (opened : s.bar0Open = true)
    (at' : regAt off = some (r, ix)) :
    s.readOut off = if s.holdsPriv r.desc.rpriv (s.regPart r ix) then s.emit (.bar0 off (s.readReg r ix))
      else (s.refuseAccess off).emit (.bar0 off 0) := by
  unfold State.readOut State.bar0Read
  rw [if_neg (by rw [State.not_d3hot_of_open opened, Bool.and_false]; decide), at']
  dsimp only
  rw [if_neg (by rw [opened]; decide)]
  split
  · rfl
  · rfl

theorem State.stageHealth_of_part {s : State} {off p : Nat} {r : RegName} {ix : List Nat} (ready : s.pwr.phase = .ready)
    (at' : regAt off = some (r, ix)) (part : s.regPart r ix = some p) (v : Word) :
    s.stageHealth off v =
      if r.mask .st = 0 ∨ s.partValid p = false then s.refuseAccess off else (s.setStagedW r ix v).raiseDev p := by
  unfold State.stageHealth
  rw [if_neg (not_not_intro ready), at']
  dsimp only
  rw [part]

theorem exec_registerWrite_write (s : State) (off : Nat) (v : Word) :
    exec (.registerWrite off (.write v)) s = .next (s.bar0Write off v) := rfl

theorem exec_registerWrite_read (s : State) (off : Nat) : exec (.registerWrite off .read) s = .next (s.readOut off) := rfl

theorem exec_registerWrite_health (s : State) (off : Nat) (v : Word) :
    exec (.registerWrite off (.health v)) s = .next (s.stageHealth off v) := rfl

theorem exec_registerWrite_config (s : State) (off : Nat) (i : ConfigItem) :
    exec (.registerWrite off (.config i)) s = .next (s.configOut i) := rfl

/-- Settles O29: a write and a read by the first check of `bar0Write` and `readOut` that decides them. -/
theorem registerWrites : Obligations.RegisterWrites := by
  intro s off n p v r ix i
  rw [exec_registerWrite_write, exec_registerWrite_read, exec_registerWrite_health, exec_registerWrite_config]
  refine ⟨fun opened bad => ⟨exec_bar0UnalignedAccess_write opened bad, exec_bar0UnalignedAccess_read opened bad⟩,
    fun closed => congrArg Host.Outcome.next (State.bar0Write_closed closed off v), fun opened at' => ⟨fun owner invalid =>
      congrArg Host.Outcome.next (State.bar0Write_invalid opened at' owner invalid v), fun lacks =>
      congrArg Host.Outcome.next (State.bar0Write_unprivileged opened at' lacks v), fun may plain => ?_, fun priv =>
      congrArg Host.Outcome.next ((State.readOut_open opened at').trans (if_pos priv)), fun lacks =>
      congrArg Host.Outcome.next ((State.readOut_open opened at').trans (if_neg (Bool.eq_false_iff.mp lacks)))⟩,
    fun ready at' part => ⟨fun staged valid => ?_, fun unstaged => ?_⟩, fun up => ⟨fun ready => ?_, fun waits => ?_⟩⟩
  · exact ⟨fun same => congrArg Host.Outcome.next (State.bar0Write_of_sl_same may at' plain same),
      fun differs sealed => congrArg Host.Outcome.next (State.bar0Write_of_sealed may at' plain differs sealed)⟩
  · refine congrArg Host.Outcome.next ((State.stageHealth_of_part ready at' part v).trans (if_neg ?_))
    rw [valid, not_or]
    exact ⟨staged, by decide⟩
  · exact congrArg Host.Outcome.next ((State.stageHealth_of_part ready at' part v).trans (if_pos (.inl unstaged)))
  · unfold State.configOut
    rw [if_neg up, if_pos ready]
  · unfold State.configOut
    rw [if_neg up, if_neg (Bool.eq_false_iff.mp waits)]

end Sys2Proof.Machine
end

section
/-!
PROOFS. No access of a register changes an SL field after seal (R7, R454): the SL fields stand in a map of their own, which only a
write that its access code allows before seal changes.
-/
namespace Sys2Proof.Machine

/-- The SL fields of a state (R7). -/
def State.SlIs (s : State) (z : KV Word) : Prop := s.sl = z

theorem State.slIs_devq (s : State) (x : ErrQ) (z : KV Word) : ({ s with devq := x } : State).SlIs z ↔ s.SlIs z := Iff.rfl

theorem State.slIs_teardowns (s : State) (x : List (Nat × Nat × Nat × Nat)) (z : KV Word) :
    ({ s with teardowns := x } : State).SlIs z ↔ s.SlIs z := Iff.rfl

theorem State.slIs_reqs (s : State) (x : List Req) (z : KV Word) : ({ s with reqs := x } : State).SlIs z ↔ s.SlIs z := Iff.rfl

theorem State.slIs_kdRec (s : State) (x : Option (List Byte)) (z : KV Word) : ({ s with kdRec := x } : State).SlIs z ↔ s.SlIs z := Iff.rfl

theorem State.slIs_nv (s : State) (x : Nv) (z : KV Word) : ({ s with nv := x } : State).SlIs z ↔ s.SlIs z := Iff.rfl

theorem State.slIs_devResetDue (s : State) (x : Bool) (z : KV Word) : ({ s with devResetDue := x } : State).SlIs z ↔ s.SlIs z := Iff.rfl

theorem State.slIs_views (s : State) (x : KV View) (z : KV Word) : ({ s with views := x } : State).SlIs z ↔ s.SlIs z := Iff.rfl

@[simp] theorem State.setRegW_slIs (s : State) (r : RegName) (ix : List Nat) (v : Word) (z : KV Word) : (s.setRegW r ix v).SlIs z ↔ s.SlIs z := Iff.rfl

@[simp] theorem State.fset_slIs (s : State) (f : RField) (ix : List Nat) (n : Nat) (z : KV Word) : (s.fset f ix n).SlIs z ↔ s.SlIs z := Iff.rfl

@[simp] theorem State.fsat_slIs (s : State) (f : RField) (ix : List Nat) (n : Nat) (z : KV Word) : (s.fsat f ix n).SlIs z ↔ s.SlIs z := Iff.rfl

@[simp] theorem State.fwrap_slIs (s : State) (f : RField) (ix : List Nat) (n : Nat) (z : KV Word) : (s.fwrap f ix n).SlIs z ↔ s.SlIs z := Iff.rfl

@[simp] theorem State.setStagedW_slIs (s : State) (r : RegName) (ix : List Nat) (v : Word) (z : KV Word) : (s.setStagedW r ix v).SlIs z ↔ s.SlIs z := Iff.rfl

@[simp] theorem State.modPart_slIs (s : State) (p : Nat) (f : Part → Part) (z : KV Word) : (s.modPart p f).SlIs z ↔ s.SlIs z := Iff.rfl

@[simp] theorem State.modQp_slIs (s : State) (q : Nat) (f : Qp → Qp) (z : KV Word) : (s.modQp q f).SlIs z ↔ s.SlIs z := Iff.rfl

@[simp] theorem State.modMoon_slIs (s : State) (m : Nat) (f : Moon → Moon) (z : KV Word) : (s.modMoon m f).SlIs z ↔ s.SlIs z := Iff.rfl

@[simp] theorem State.setCtx_slIs (s : State) (c : Nat) (x : Ctx) (z : KV Word) : (s.setCtx c x).SlIs z ↔ s.SlIs z := Iff.rfl

@[simp] theorem State.modCtx_slIs (s : State) (c : Nat) (f : Ctx → Ctx) (z : KV Word) : (s.modCtx c f).SlIs z ↔ s.SlIs z := Iff.rfl

@[simp] theorem State.modObj_slIs (s : State) (h : Nat) (f : Obj → Obj) (z : KV Word) : (s.modObj h f).SlIs z ↔ s.SlIs z := Iff.rfl

@[simp] theorem State.emit_slIs (s : State) (o : Out) (z : KV Word) : (s.emit o).SlIs z ↔ s.SlIs z := Iff.rfl

@[simp] theorem State.modClk_slIs (s : State) (f : Clocks → Clocks) (z : KV Word) : (s.modClk f).SlIs z ↔ s.SlIs z := Iff.rfl

@[simp] theorem State.modLink_slIs (s : State) (f : Links → Links) (z : KV Word) : (s.modLink f).SlIs z ↔ s.SlIs z := Iff.rfl

@[simp] theorem State.modMir_slIs (s : State) (f : Mirror → Mirror) (z : KV Word) : (s.modMir f).SlIs z ↔ s.SlIs z := Iff.rfl

theorem ite_slIs {c : Prop} [Decidable c] {a b s : State} {z : KV Word} (yes : a.SlIs z ↔ s.SlIs z)
    (no : b.SlIs z ↔ s.SlIs z) : (if c then a else b).SlIs z ↔ s.SlIs z := by
  split
  · exact yes
  · exact no

@[simp] theorem foldl_slIs {α : Type} (f : State → α → State) (z : KV Word) (step : ∀ t a, (f t a).SlIs z ↔ t.SlIs z)
    (l : List α) (s : State) : (l.foldl f s).SlIs z ↔ s.SlIs z := by
  induction l generalizing s with
  | nil => exact Iff.rfl
  | cons a r ih => exact (ih (f s a)).trans (step s a)

/-! ### Records, resets and flags -/

@[simp] theorem State.pushDev_slIs (s : State) (r : Rec) (z : KV Word) :
    (s.pushDev r).SlIs z ↔ s.SlIs z := by
  unfold State.pushDev
  dsimp only
  split
  · exact (State.emit_slIs _ _ z).trans (s.slIs_devq _ z)
  · exact s.slIs_devq _ z

@[simp] theorem State.appendDev_slIs (s : State) (r : Rec) (z : KV Word) :
    (s.appendDev r).SlIs z ↔ s.SlIs z := by
  simp only [State.appendDev]
  (repeat' split) <;> simp

@[simp] theorem State.triggerReset_slIs (s : State) (p code : Nat) (z : KV Word) :
    (s.triggerReset p code).SlIs z ↔ s.SlIs z := by
  simp only [State.triggerReset]
  (repeat' split) <;> simp

@[simp] theorem State.pushPart_slIs (s : State) (r : Rec) (z : KV Word) :
    (s.pushPart r).SlIs z ↔ s.SlIs z := by
  simp only [State.pushPart]
  (repeat' split) <;> simp

@[simp] theorem State.escalation_slIs (s t : State) (r : Rec) (z : KV Word) :
    (s.escalation t r).SlIs z ↔ t.SlIs z := by
  simp only [State.escalation]
  (repeat' split) <;> simp

@[simp] theorem State.appendPart_slIs (s : State) (r : Rec) (z : KV Word) :
    (s.appendPart r).SlIs z ↔ s.SlIs z := by
  simp only [State.appendPart]
  (repeat' split) <;> simp

@[simp] theorem State.appendBoth_slIs (s : State) (r : Rec) (z : KV Word) :
    (s.appendBoth r).SlIs z ↔ s.SlIs z := by
  simp only [State.appendBoth]
  (repeat' split) <;> simp

@[simp] theorem State.refuseAccess_slIs (s : State) (off : Nat) (z : KV Word) :
    (s.refuseAccess off).SlIs z ↔ s.SlIs z := by
  simp only [State.refuseAccess]
  (repeat' split) <;> simp

@[simp] theorem State.idleEvent_slIs (s : State) (p : Nat) (z : KV Word) :
    (s.idleEvent p).SlIs z ↔ s.SlIs z := by
  simp only [State.idleEvent]
  (repeat' split) <;> simp

@[simp] theorem State.raiseHost_slIs (s : State) (p : Nat) (z : KV Word) :
    (s.raiseHost p).SlIs z ↔ s.SlIs z := by
  simp only [State.raiseHost]
  (repeat' split) <;> simp

@[simp] theorem State.raiseDev_slIs (s : State) (p : Nat) (z : KV Word) :
    (s.raiseDev p).SlIs z ↔ s.SlIs z := by
  simp only [State.raiseDev]
  (repeat' split) <;> simp

@[simp] theorem State.triggerTeardown_slIs (s : State) (p job code b : Nat) (z : KV Word) :
    (s.triggerTeardown p job code b).SlIs z ↔ s.SlIs z := by
  unfold State.triggerTeardown
  dsimp only
  split
  · exact Iff.rfl
  · split
    · exact Iff.rfl
    · exact s.slIs_teardowns _ z

@[simp] theorem State.markAbort_slIs (s : State) (c : Nat) (z : KV Word) :
    (s.markAbort c).SlIs z ↔ s.SlIs z := by
  simp only [State.markAbort]
  (repeat' split) <;> simp

/-! ### Snapshots and doorbells -/

@[simp] theorem State.latch_slIs (s : State) (d : Nat) (z : KV Word) :
    (s.latch d).SlIs z ↔ s.SlIs z := by
  simp only [State.latch]
  (repeat' split) <;> simp

@[simp] theorem State.latchDone_slIs (s : State) (z : KV Word) :
    (s.latchDone).SlIs z ↔ s.SlIs z := by
  simp only [State.latchDone]
  (repeat' split) <;> simp

@[simp] theorem State.writeSnap_slIs (s : State) (v : Word) (z : KV Word) :
    (s.writeSnap v).SlIs z ↔ s.SlIs z := by
  unfold State.writeSnap
  split
  · refine (State.latchDone_slIs _ z).trans (foldl_slIs _ z (fun t d => ?_) _ s)
    split <;> simp
  · exact Iff.rfl

@[simp] theorem State.pushDesc_slIs (s : State) (q : Nat) (d : List Byte) (z : KV Word) :
    (s.pushDesc q d).SlIs z ↔ s.SlIs z := by
  simp only [State.pushDesc]
  (repeat' split) <;> simp

@[simp] theorem State.ringBell_slIs (s : State) (q w : Nat) (v : Word) (z : KV Word) :
    (s.ringBell q w v).SlIs z ↔ s.SlIs z := by
  simp only [State.ringBell]
  (repeat' split) <;> simp

/-! ### Mirrors -/

@[simp] theorem State.countSpares_slIs (s : State) (z : KV Word) :
    (s.countSpares).SlIs z ↔ s.SlIs z := by
  simp only [State.countSpares]
  (repeat' split) <;> simp

@[simp] theorem State.setTray_slIs (s : State) (t st k : Nat) (z : KV Word) :
    (s.setTray t st k).SlIs z ↔ s.SlIs z := by
  simp only [State.setTray]
  (repeat' split) <;> simp

@[simp] theorem State.setPair_slIs (s : State) (k st a b n : Nat) (z : KV Word) :
    (s.setPair k st a b n).SlIs z ↔ s.SlIs z := by
  simp only [State.setPair]
  (repeat' split) <;> simp

@[simp] theorem State.mirrorRec_slIs (s : State) (status code unit a b : Nat) (z : KV Word) :
    (s.mirrorRec status code unit a b).SlIs z ↔ s.SlIs z := by
  simp only [State.mirrorRec]
  (repeat' split) <;> simp

@[simp] theorem State.startRebuild_slIs (s : State) (k : Nat) (z : KV Word) :
    (s.startRebuild k).SlIs z ↔ s.SlIs z := by
  simp only [State.startRebuild]
  (repeat' split) <;> simp

@[simp] theorem State.startRebuilds_slIs (s : State) (z : KV Word) :
    (s.startRebuilds).SlIs z ↔ s.SlIs z := by
  simp only [State.startRebuilds]
  (repeat' split) <;> simp

@[simp] theorem State.updateHold_slIs (s : State) (z : KV Word) :
    (s.updateHold).SlIs z ↔ s.SlIs z := by
  simp only [State.updateHold]
  (repeat' split) <;> simp

@[simp] theorem State.flushLostOne_slIs (t : State) (r : Nat × Nat) (z : KV Word) :
    (t.flushLostOne r).SlIs z ↔ t.SlIs z := by
  simp only [State.flushLostOne]
  (repeat' split) <;> simp

@[simp] theorem State.flushLost_slIs (s : State) (z : KV Word) :
    (s.flushLost).SlIs z ↔ s.SlIs z := by
  simp only [State.flushLost]
  (repeat' split) <;> simp

@[simp] theorem State.settleMirrors_slIs (s : State) (z : KV Word) :
    (s.settleMirrors).SlIs z ↔ s.SlIs z := by
  simp only [State.settleMirrors]
  (repeat' split) <;> simp

@[simp] theorem State.markLost_slIs (s : State) (h : Nat) (gs : List Nat) (z : KV Word) :
    (s.markLost h gs).SlIs z ↔ s.SlIs z := by
  unfold State.markLost
  split
  · exact Iff.rfl
  · refine (foldl_slIs _ z (fun t j => t.triggerTeardown_slIs .. ) _ _).trans ((State.modMir_slIs _ _ z).trans ?_)
    exact (State.slIs_reqs _ _ z).trans ((State.fsat_slIs _ _ _ _ z).trans (s.modObj_slIs _ _ z))

@[simp] theorem State.markAllLost_slIs (s : State) (l : List (Nat × Nat)) (z : KV Word) :
    (s.markAllLost l).SlIs z ↔ s.SlIs z := by
  simp only [State.markAllLost]
  (repeat' split) <;> simp

@[simp] theorem State.endRebuild_slIs (s : State) (k : Nat) (z : KV Word) :
    (s.endRebuild k).SlIs z ↔ s.SlIs z := by
  unfold State.endRebuild
  exact (State.slIs_reqs _ _ z).trans (s.modMir_slIs _ z)

@[simp] theorem State.pairAfter_slIs (s : State) (t k : Nat) (z : KV Word) :
    (s.pairAfter t k).SlIs z ↔ s.SlIs z := by
  simp only [State.pairAfter]
  (repeat' split) <;> simp

@[simp] theorem State.failOut_slIs (s : State) (t : Nat) (z : KV Word) :
    (s.failOut t).SlIs z ↔ s.SlIs z := by
  unfold State.failOut
  dsimp only
  split
  · exact Iff.rfl
  · refine (State.settleMirrors_slIs _ z).trans ((State.slIs_reqs _ _ z).trans ?_)
    split <;> simp

@[simp] theorem State.checkTarget_slIs (s : State) (t : Nat) (z : KV Word) :
    (s.checkTarget t).SlIs z ↔ s.SlIs z := by
  simp only [State.checkTarget]
  (repeat' split) <;> simp

@[simp] theorem State.linkEvent_slIs (s : State) (n k : Nat) (z : KV Word) :
    (s.linkEvent n k).SlIs z ↔ s.SlIs z := by
  simp only [State.linkEvent]
  (repeat' split) <;> simp

@[simp] theorem State.formPair_slIs (s : State) (t u off : Nat) (z : KV Word) :
    (s.formPair t u off).SlIs z ↔ s.SlIs z := by
  simp only [State.formPair]
  (repeat' split) <;> simp

@[simp] theorem State.writeTrayCtrl_slIs (s : State) (t : Nat) (v : Word) (z : KV Word) :
    (s.writeTrayCtrl t v).SlIs z ↔ s.SlIs z := by
  simp only [State.writeTrayCtrl]
  (repeat' split) <;> simp

/-! ### Ports -/

@[simp] theorem State.setPort_slIs (s : State) (n st : Nat) (z : KV Word) :
    (s.setPort n st).SlIs z ↔ s.SlIs z := by
  simp only [State.setPort]
  (repeat' split) <;> simp

@[simp] theorem State.noteCause_slIs (s : State) (n : Nat) (c : Cause) (z : KV Word) :
    (s.noteCause n c).SlIs z ↔ s.SlIs z := by
  simp only [State.noteCause]
  (repeat' split) <;> simp

@[simp] theorem State.leaveActive_slIs (s : State) (n st : Nat) (c : Cause) (z : KV Word) :
    (s.leaveActive n st c).SlIs z ↔ s.SlIs z := by
  simp only [State.leaveActive]
  (repeat' split) <;> simp

@[simp] theorem State.goDark_slIs (s : State) (n : Nat) (z : KV Word) :
    (s.goDark n).SlIs z ↔ s.SlIs z := by
  simp only [State.goDark]
  (repeat' split) <;> simp

@[simp] theorem State.trigger_slIs (s : State) (n st : Nat) (c : Cause) (z : KV Word) :
    (s.trigger n st c).SlIs z ↔ s.SlIs z := by
  simp only [State.trigger]
  (repeat' split) <;> simp

@[simp] theorem State.writePstate_slIs (s : State) (n q : Nat) (z : KV Word) :
    (s.writePstate n q).SlIs z ↔ s.SlIs z := by
  simp only [State.writePstate]
  (repeat' split) <;> simp

@[simp] theorem State.writePortCtrl_slIs (s : State) (n : Nat) (v : Word) (z : KV Word) :
    (s.writePortCtrl n v).SlIs z ↔ s.SlIs z := by
  simp only [State.writePortCtrl]
  (repeat' split) <;> simp

/-! ### Key delivery, error queues, resets -/

@[simp] theorem State.kdClear_slIs (s : State) (z : KV Word) :
    (s.kdClear).SlIs z ↔ s.SlIs z := by
  simp only [State.kdClear]
  (repeat' split) <;> simp

@[simp] theorem State.kdEnd_slIs (s : State) (st : Nat) (z : KV Word) :
    (s.kdEnd st).SlIs z ↔ s.SlIs z := by
  unfold State.kdEnd
  rw [State.kdClear_slIs, State.fset_slIs, State.fset_slIs, State.fset_slIs]
  exact s.slIs_kdRec _ z

@[simp] theorem State.submitKey_slIs (s : State) (z : KV Word) :
    (s.submitKey).SlIs z ↔ s.SlIs z := by
  unfold State.submitKey
  dsimp only
  split
  · exact Iff.rfl
  · split
    · rw [State.kdEnd_slIs, State.appendDev_slIs, State.fset_slIs]
    · split
      · rw [State.kdEnd_slIs, State.fset_slIs]
      · split
        · rw [State.kdEnd_slIs, State.fset_slIs]
        · exact (State.slIs_kdRec _ _ z).trans ((State.fset_slIs _ _ _ _ z).trans (State.fset_slIs s _ _ _ z))

@[simp] theorem State.setErrHead_slIs (s : State) (p h : Nat) (z : KV Word) :
    (s.setErrHead p h).SlIs z ↔ s.SlIs z := by
  unfold State.setErrHead
  split
  · exact s.slIs_devq _ z
  · simp

@[simp] theorem State.endFence_slIs (s : State) (p : Nat) (z : KV Word) :
    (s.endFence p).SlIs z ↔ s.SlIs z := by
  simp only [State.endFence]
  (repeat' split) <;> simp

@[simp] theorem State.writeCtxAbort_slIs (s : State) (ref : Nat) (z : KV Word) :
    (s.writeCtxAbort ref).SlIs z ↔ s.SlIs z := by
  simp only [State.writeCtxAbort]
  (repeat' split) <;> simp

@[simp] theorem State.writePartReset_slIs (s : State) (bits : Nat) (z : KV Word) :
    (s.writePartReset bits).SlIs z ↔ s.SlIs z := by
  simp only [State.writePartReset]
  (repeat' split) <;> simp

@[simp] theorem State.writeDevReset_slIs (s : State) (key : Nat) (z : KV Word) :
    (s.writeDevReset key).SlIs z ↔ s.SlIs z := by
  unfold State.writeDevReset
  split
  · exact s.slIs_devResetDue _ z
  · simp

@[simp] theorem State.writeRaise_slIs (s : State) (bits : Nat) (z : KV Word) :
    (s.writeRaise bits).SlIs z ↔ s.SlIs z := by
  simp only [State.writeRaise]
  (repeat' split) <;> simp

/-! ### Services -/

@[simp] theorem State.setFlash_slIs (s : State) (k : Nat) (f : FlashSlot) (z : KV Word) :
    (s.setFlash k f).SlIs z ↔ s.SlIs z := by
  exact s.slIs_nv _ z

theorem State.flashWrite_slIs (s : State) (tr k off : Nat) (bs : List Byte) (z : KV Word) :
    (s.flashWrite tr k off bs).1.SlIs z ↔ s.SlIs z := by
  unfold State.flashWrite
  split
  · exact Iff.rfl
  · split
    · exact Iff.rfl
    · exact s.setFlash_slIs ..

theorem State.flashCommit_slIs (s : State) (tr k len : Nat) (z : KV Word) :
    (s.flashCommit tr k len).1.SlIs z ↔ s.SlIs z := by
  unfold State.flashCommit
  dsimp only
  split
  · exact Iff.rfl
  · split
    · exact Iff.rfl
    · exact (State.setFlash_slIs _ _ _ z).trans (s.slIs_nv _ z)

theorem State.flashErase_slIs (s : State) (tr k : Nat) (z : KV Word) : (s.flashErase tr k).1.SlIs z ↔ s.SlIs z := by
  unfold State.flashErase
  split
  · exact Iff.rfl
  · split
    · exact Iff.rfl
    · exact s.setFlash_slIs ..

@[simp] theorem State.serveMgmt_slIs (s : State) (tr op : Nat) (p : List Byte) (z : KV Word) :
    (s.serveMgmt tr op p).1.SlIs z ↔ s.SlIs z := by
  unfold State.serveMgmt
  dsimp only
  split
  · exact Iff.rfl
  · split
    · exact Iff.rfl
    · exact Iff.rfl
    · exact s.flashWrite_slIs ..
    · exact s.flashCommit_slIs ..
    · exact s.flashErase_slIs ..
    · split <;> exact Iff.rfl
    · split <;> exact Iff.rfl
    · exact Iff.rfl

@[simp] theorem State.answerSvc_slIs (s : State) (tr : Nat) (q : List Byte) (z : KV Word) :
    (s.answerSvc tr q).1.SlIs z ↔ s.SlIs z := by
  unfold State.answerSvc
  split
  · exact s.serveMgmt_slIs ..
  · exact Iff.rfl

@[simp] theorem State.putSvcBuf_slIs (s : State) (bs : List Byte) (z : KV Word) :
    (s.putSvcBuf bs).SlIs z ↔ s.SlIs z := by
  simp only [State.putSvcBuf]
  (repeat' split) <;> simp

@[simp] theorem State.finishSvc_slIs (s : State) (z : KV Word) :
    (s.finishSvc).SlIs z ↔ s.SlIs z := by
  simp only [State.finishSvc]
  (repeat' split) <;> simp

@[simp] theorem State.submitSvc_slIs (s : State) (z : KV Word) :
    (s.submitSvc).SlIs z ↔ s.SlIs z := by
  simp only [State.submitSvc]
  (repeat' split) <;> simp

@[simp] theorem State.modView_slIs (s : State) (p v : Nat) (f : View → View) (z : KV Word) :
    (s.modView p v f).SlIs z ↔ s.SlIs z := by
  exact s.slIs_views _ z

/-! ### Accesses -/

theorem State.writeFields_slIs {s : State} (sealed : s.fget Reg.PART_SEAL_SEALED [] = 1) (r : RegName) (ix : List Nat)
    (v : Word) (z : KV Word) : (s.writeFields r ix v).1.SlIs z ↔ s.SlIs z := by
  have codes : (s.writeCodes r ix v).SlIs z ↔ s.SlIs z := by
    unfold State.writeCodes
    split <;> simp
  rw [State.writeFields_eq, if_pos sealed]
  split
  · exact codes
  · exact codes

/-- A register whose write does more than its access codes give leaves the SL fields after seal. -/
theorem State.writeSpecial_slIs {s t : State} (sealed : s.fget Reg.PART_SEAL_SEALED [] = 1) {r : RegName} {ix : List Nat}
    {v : Word} (special : s.writeSpecial r ix v = some t) (z : KV Word) : t.SlIs z ↔ s.SlIs z := by
  have fields := fun (r : RegName) (ix : List Nat) => State.writeFields_slIs sealed r ix v z
  have budget : ∀ n, (s.writeTagBudget n v).SlIs z ↔ s.SlIs z := by
    intro n
    unfold State.writeTagBudget
    dsimp only
    split
    · simp
    · exact fields ..
  have view : ∀ p k, (s.writeView p k v).SlIs z ↔ s.SlIs z := fun p k => (State.modView_slIs ..).trans (fields ..)
  unfold State.writeSpecial at special
  dsimp only at special
  split at special
  all_goals cases special
  case h_1 => exact s.writeRaise_slIs ..
  case h_2 => exact s.writeSnap_slIs ..
  case h_3 => exact s.ringBell_slIs ..
  case h_4 => exact budget _
  case h_5 => exact s.writeTrayCtrl_slIs ..
  case h_6 => exact s.writePortCtrl_slIs ..
  case h_7 => exact ite_slIs (s.submitKey_slIs z) Iff.rfl
  case h_8 => exact ite_slIs Iff.rfl (s.setRegW_slIs ..)
  case h_9 => exact ite_slIs (fields ..) Iff.rfl
  case h_10 => exact s.setErrHead_slIs ..
  case h_11 => exact s.setErrHead_slIs ..
  case h_12 => exact ite_slIs (s.endFence_slIs ..) Iff.rfl
  case h_13 => exact s.writeCtxAbort_slIs ..
  case h_14 => exact s.writePartReset_slIs ..
  case h_15 => exact s.writeDevReset_slIs ..
  case h_16 => exact ite_slIs (s.submitSvc_slIs z) Iff.rfl
  case h_17 => exact ite_slIs Iff.rfl (fields ..)
  case h_18 => exact view _ _

theorem State.bar0Write_slIs {s : State} (sealed : s.fget Reg.PART_SEAL_SEALED [] = 1) (off : Nat) (v : Word)
    (z : KV Word) : (s.bar0Write off v).SlIs z ↔ s.SlIs z := by
  unfold State.bar0Write
  refine ite_slIs Iff.rfl ?_
  split
  · exact ite_slIs Iff.rfl Iff.rfl
  · refine ite_slIs (s.refuseAccess_slIs ..) (ite_slIs (s.refuseAccess_slIs ..) ?_)
    split
    · next special => exact State.writeSpecial_slIs sealed special z
    · exact ite_slIs ((State.refuseAccess_slIs ..).trans (State.writeFields_slIs sealed ..)) (State.writeFields_slIs sealed ..)

theorem State.bar0Read_slIs (s : State) (off : Nat) (z : KV Word) : (s.bar0Read off).2.SlIs z ↔ s.SlIs z := by
  unfold State.bar0Read
  split
  · split
    · exact Iff.rfl
    · exact Iff.rfl
  · split
    · exact Iff.rfl
    · split
      · exact Iff.rfl
      · exact s.refuseAccess_slIs ..

theorem State.readOut_slIs (s : State) (off : Nat) (z : KV Word) : (s.readOut off).SlIs z ↔ s.SlIs z := by
  unfold State.readOut
  exact ite_slIs (s.emit_slIs ..) ((State.emit_slIs ..).trans (s.bar0Read_slIs off z))

theorem State.stageHealth_slIs (s : State) (off : Nat) (v : Word) (z : KV Word) : (s.stageHealth off v).SlIs z ↔ s.SlIs z := by
  unfold State.stageHealth
  refine ite_slIs Iff.rfl ?_
  split
  · split
    · exact ite_slIs (s.refuseAccess_slIs ..) ((State.raiseDev_slIs ..).trans (s.setStagedW_slIs ..))
    · exact s.refuseAccess_slIs ..
  · exact s.refuseAccess_slIs ..

theorem State.configOut_slIs (s : State) (i : ConfigItem) (z : KV Word) : (s.configOut i).SlIs z ↔ s.SlIs z :=
  ite_slIs Iff.rfl (s.emit_slIs ..)

/-- Settles O30: each of the four accesses leaves what stands in the sealed store (`SlIs`). -/
theorem sealedTablesFixed : Obligations.SealedTablesFixed := by
  intro s off a sealed
  cases a with
  | write v => exact ⟨_, exec_registerWrite_write s off v, (State.bar0Write_slIs sealed off v s.sl).mpr rfl⟩
  | read => exact ⟨_, exec_registerWrite_read s off, (s.readOut_slIs off s.sl).mpr rfl⟩
  | health v => exact ⟨_, exec_registerWrite_health s off v, (s.stageHealth_slIs off v s.sl).mpr rfl⟩
  | config i => exact ⟨_, exec_registerWrite_config s off i, (s.configOut_slIs i s.sl).mpr rfl⟩

end Sys2Proof.Machine
end

section
/-!
PROOFS. The writes that command something (R46, R319, R347, R416, R422, R449, R467, R482, R485, R490, R493, R502, R506, R518), and
the submission of a key-delivery record (R467 to R469).
-/
namespace Sys2Proof.Machine

/-- A write the host may make, of a register whose write does more than its access codes give. -/
theorem State.bar0Write_special {s t : State} {r : RegName} {ix : List Nat} {v : Word} (may : s.mayWrite r ix)
    (within : indexOk r.desc.dims ix = true) (special : s.writeSpecial r ix v = some t) : s.bar0Write (r.addr ix) v = t := by
  rw [State.bar0Write_may may (registerMapResolves.1 r ix within), special, Option.getD_some]

theorem indexOk_one {c n k : Nat} (small : n < k) : indexOk [(c, k)] [n] = true := by
  rw [indexOk, indexOk, decide_eq_true small]
  rfl

/-! ### The fields of the words written -/

theorem setWidth_low (bits : BitVec 16) : bitsOf 15 0 (bits.setWidth 64).toNat = bits.toNat := by
  have := bits.isLt
  rw [BitVec.toNat_setWidth, bitsOf]
  omega

theorem pstate_fields (ps : BitVec 2) (b : Nat) (bit : b < 2) :
    bitsOf 9 8 (BitVec.ofNat 64 (ps.toNat * 2 ^ 8 + b)).toNat = ps.toNat ∧
    bitAt 0 (BitVec.ofNat 64 (ps.toNat * 2 ^ 8 + b)).toNat = decide (b = 1) := by
  have := ps.isLt
  rw [BitVec.toNat_ofNat, bitsOf, bitAt]
  refine ⟨by omega, Bool.eq_iff_iff.mpr ?_⟩
  rw [beq_iff_eq, decide_eq_true_eq]
  omega

theorem high_field (h : BitVec 32) : bitsOf 63 32 (BitVec.ofNat 64 (h.toNat * 2 ^ 32)).toNat = h.toNat := by
  have := h.isLt
  rw [BitVec.toNat_ofNat, bitsOf]
  omega

theorem ref_field (ref : BitVec 32) : bitsOf 31 0 (ref.setWidth 64).toNat = ref.toNat := by
  have := ref.isLt
  rw [BitVec.toNat_setWidth, bitsOf]
  omega

theorem tray_fields (u : BitVec 5) :
    (bitsOf 52 48 (BitVec.ofNat 64 (2 ^ 63 + u.toNat * 2 ^ 48)).toNat = u.toNat ∧
      bitAt 63 (BitVec.ofNat 64 (2 ^ 63 + u.toNat * 2 ^ 48)).toNat = true ∧
      bitAt 62 (BitVec.ofNat 64 (2 ^ 63 + u.toNat * 2 ^ 48)).toNat = false) ∧
    (bitsOf 52 48 (BitVec.ofNat 64 (2 ^ 62 + u.toNat * 2 ^ 48)).toNat = u.toNat ∧
      bitAt 63 (BitVec.ofNat 64 (2 ^ 62 + u.toNat * 2 ^ 48)).toNat = false ∧
      bitAt 62 (BitVec.ofNat 64 (2 ^ 62 + u.toNat * 2 ^ 48)).toNat = true) := by
  have := u.isLt
  simp only [BitVec.toNat_ofNat, bitsOf, bitAt, beq_iff_eq, beq_eq_false_iff_ne]
  omega

/-! ### The commands -/

theorem exec_orbRaise {s : State} (may : s.mayWrite .GLB_ORB_RAISE []) (bits : BitVec 16) :
    exec (.orbRaise bits) s = .next (s.writeRaise bits.toNat) := by
  refine congrArg Host.Outcome.next (State.bar0Write_special may rfl ?_)
  show some (s.writeRaise (bitsOf 15 0 (bits.setWidth 64).toNat)) = _
  rw [setWidth_low]

theorem State.ringBell_last {s : State} {n : Nat} {w : Word} (pilot : s.fget Reg.CTX_QP_A_DB_FABRIC [n] = 0)
    (own : s.controls (s.qpPart n) = true) (part : s.partValid (s.qpPart n) = true) (valid : s.qpValid n = true)
    (runs : s.suppressed (s.qpPart n) = false) :
    s.ringBell n 7 w = (s.modQp n (fun x => { x with bell := kvPut 0 x.bell 7 w })).pushDesc n ((s.qp n).bellBytes w) := by
  have valid' : (s.modQp n (fun x => { x with bell := kvPut 0 x.bell 7 w })).qpValid n = true := valid
  have runs' : (s.modQp n (fun x => { x with bell := kvPut 0 x.bell 7 w })).suppressed
    ((s.modQp n (fun x => { x with bell := kvPut 0 x.bell 7 w })).qpPart n) = false := runs
  unfold State.ringBell
  dsimp only
  rw [if_neg (by rw [pilot, own, part]; decide), if_neg (by decide), if_neg (by rw [valid', runs']; decide)]

theorem exec_pilotDoorbell {s : State} {n : Nat} (small : n < 8192) (may : s.mayWrite .QPDB_D [n, 7]) (w : Word) :
    exec (.pilotDoorbell n w) s = .next (s.ringBell n 7 w) := by
  refine congrArg Host.Outcome.next ((if_pos small).trans (State.bar0Write_special may ?_ rfl))
  exact (Bool.and_eq_true ..).mpr ⟨decide_eq_true small, rfl⟩

theorem exec_xbarTagBudget {s : State} {n : Nat} {w : Word} (small : n < 256) (may : s.mayWrite .XBAR_TAG_BUDGET [n])
    (order : bitsOf 16 0 w.toNat ≤ min 65536 (bitsOf 45 29 w.toNat))
    (sum : s.minSum - s.fget Reg.XBAR_TAG_BUDGET_TAG_MIN [n] + bitsOf 16 0 w.toNat ≤ 65536) :
    exec (.xbarTagBudget n w) s = .next (s.writeFields .XBAR_TAG_BUDGET [n] w).1 := by
  refine congrArg Host.Outcome.next ((if_pos small).trans ((State.bar0Write_special may (indexOk_one small) rfl).trans ?_))
  exact if_neg (not_or.mpr ⟨Nat.not_lt.mpr sum, Nat.not_lt.mpr order⟩)

theorem State.bar0Write_portCtrl {s : State} {n : Nat} (small : n < 256) (may : s.mayWrite .LINK_PORT_CTRL [n]) (v : Word) :
    s.bar0Write (RegName.LINK_PORT_CTRL.addr [n]) v = s.writePortCtrl n v :=
  State.bar0Write_special may (indexOk_one small) rfl

theorem exec_retrain {s : State} {n : Nat} (small : n < 256) (may : s.mayWrite .LINK_PORT_CTRL [n]) (ps : BitVec 2) :
    exec (.retrain n ps) s = .next ((s.writePstate n ps.toNat).trigger n 2 .command) := by
  obtain ⟨pstate, train⟩ := pstate_fields ps 1 (by decide)
  refine congrArg Host.Outcome.next ((if_pos small).trans ((State.bar0Write_portCtrl small may _).trans ?_))
  unfold State.writePortCtrl
  rw [pstate, train]
  rfl

theorem exec_pstateReq {s : State} {n : Nat} (small : n < 256) (may : s.mayWrite .LINK_PORT_CTRL [n]) (ps : BitVec 2) :
    exec (.pstateReq n ps) s = .next (s.writePstate n ps.toNat) := by
  obtain ⟨pstate, train⟩ := pstate_fields ps 0 (by decide)
  refine congrArg Host.Outcome.next ((if_pos small).trans ((State.bar0Write_portCtrl small may _).trans ?_))
  unfold State.writePortCtrl
  rw [Nat.add_zero] at pstate train
  rw [pstate, train]
  rfl

theorem exec_errHead {s : State} {n : Nat} (small : n < 16) (may : s.mayWrite .ERR_PQ_PTR [n]) (h : BitVec 32) :
    exec (.errHead n h) s = .next (s.setErrHead n h.toNat) := by
  refine congrArg Host.Outcome.next ((if_pos small).trans (State.bar0Write_special may (indexOk_one small) ?_))
  show some (s.setErrHead n (bitsOf 63 32 (BitVec.ofNat 64 (h.toNat * 2 ^ 32)).toNat)) = _
  rw [high_field]

theorem exec_errHead_device {s : State} (may : s.mayWrite .ERR_DQ_PTR []) (h : BitVec 32) :
    exec (.errHead 16 h) s = .next { s with devq := s.devq.setHead 1024 h.toNat } := by
  refine congrArg Host.Outcome.next (State.bar0Write_special may rfl ?_)
  show some (s.setErrHead 16 (bitsOf 63 32 (BitVec.ofNat 64 (h.toNat * 2 ^ 32)).toNat)) = _
  rw [high_field]
  exact congrArg some (if_pos rfl)

theorem exec_fenced {s : State} {n : Nat} (small : n < 16) (may : s.mayWrite .ERR_PQ_STAT [n])
    (room : (s.part n).errq.used ≠ 128) (sound : s.devFault = false) :
    exec (.fenced n) s = .next (s.modPart n (fun x => { x with fenced := false })) := by
  refine congrArg Host.Outcome.next ((if_pos small).trans (State.bar0Write_special may (indexOk_one small) ?_))
  have opens : s.endFence n = s.modPart n (fun x => { x with fenced := false }) := by
    unfold State.endFence
    exact if_neg (not_or.mpr ⟨room, by rw [sound]; decide⟩)
  rw [← opens]
  exact congrArg some (if_pos (show bitAt 1 (BitVec.toNat (2 : Word)) = true from rfl))

theorem exec_errCtxAbort {s : State} {c : Nat} {x : Ctx} {ref : BitVec 32} (may : s.mayWrite .ERR_CTX_ABORT [])
    (names : s.ctxOfRef ref.toNat = some c) (found : s.ctx? c = some x) (own : s.controls x.part = true) :
    exec (.errCtxAbort ref) s = .next (s.markAbort c) := by
  refine congrArg Host.Outcome.next (State.bar0Write_special may rfl ?_)
  show some (s.writeCtxAbort (bitsOf 31 0 (ref.setWidth 64).toNat)) = _
  rw [ref_field]
  unfold State.writeCtxAbort
  rw [names]
  dsimp only
  rw [found]
  exact congrArg some (if_pos own)

theorem exec_errPartReset {s : State} (may : s.mayWrite .ERR_PART_RESET []) (bits : BitVec 16) :
    exec (.errPartReset bits) s = .next (s.writePartReset bits.toNat) := by
  refine congrArg Host.Outcome.next (State.bar0Write_special may rfl ?_)
  show some (s.writePartReset (bitsOf 15 0 (bits.setWidth 64).toNat)) = _
  rw [setWidth_low]

theorem exec_errDevReset {s : State} (may : s.mayWrite .ERR_DEV_RESET []) (key : BitVec 32) :
    exec (.errDevReset key) s = .next (s.writeDevReset key.toNat) := by
  refine congrArg Host.Outcome.next (State.bar0Write_special may rfl ?_)
  show some (s.writeDevReset (bitsOf 63 32 (BitVec.ofNat 64 (key.toNat * 2 ^ 32)).toNat)) = _
  rw [high_field]

theorem State.bar0Write_trayCtrl {s : State} {n : Nat} (small : n < 24) (may : s.mayWrite .PLACE_TRAY_CTRL [n]) (v : Word) :
    s.bar0Write (RegName.PLACE_TRAY_CTRL.addr [n]) v = s.writeTrayCtrl n v :=
  State.bar0Write_special may (indexOk_one small) rfl

theorem exec_pair {s : State} {n : Nat} (small : n < 24) (may : s.mayWrite .PLACE_TRAY_CTRL [n]) (u : BitVec 5) :
    exec (.pair n u) s = .next ((s.fset Reg.PLACE_TRAY_CTRL_PARTNER [n] u.toNat).formPair n u.toNat
      (RegName.PLACE_TRAY_CTRL.addr [n])) := by
  obtain ⟨⟨partner, pair, expel⟩, -⟩ := tray_fields u
  refine congrArg Host.Outcome.next ((if_pos small).trans ((State.bar0Write_trayCtrl small may _).trans ?_))
  unfold State.writeTrayCtrl
  rw [partner, pair, expel]
  dsimp only
  rw [if_pos rfl]
  exact if_neg Bool.false_ne_true

theorem exec_expel {s : State} {n : Nat} (small : n < 24) (may : s.mayWrite .PLACE_TRAY_CTRL [n]) (u : BitVec 5) :
    exec (.expel n u) s = .next ((s.fset Reg.PLACE_TRAY_CTRL_PARTNER [n] u.toNat).modMir
      (fun m => { m with due := setIns m.due n })).updateHold := by
  obtain ⟨-, partner, pair, expel⟩ := tray_fields u
  refine congrArg Host.Outcome.next ((if_pos small).trans ((State.bar0Write_trayCtrl small may _).trans ?_))
  unfold State.writeTrayCtrl
  rw [partner, pair, expel]
  dsimp only
  rw [if_neg Bool.false_ne_true]
  exact if_pos rfl

/-- Settles O31: each command write is one that its register serves specially (`bar0Write_special`). -/
theorem commandWrites : Obligations.CommandWrites := by
  intro s n bits ref key h32 ps u w
  refine ⟨fun may => exec_orbRaise may bits, fun small may pilot own part valid runs =>
    (exec_pilotDoorbell small may w).trans (congrArg Host.Outcome.next (State.ringBell_last pilot own part valid runs)),
    fun small may order sum => exec_xbarTagBudget small may order sum,
    fun small may => ⟨exec_retrain small may ps, exec_pstateReq small may ps⟩,
    fun may => congrArg Host.Outcome.next (State.bar0Write_special may rfl rfl),
    fun may => congrArg Host.Outcome.next (State.bar0Write_special may rfl rfl),
    fun small may => exec_errHead small may h32, fun may => exec_errHead_device may h32,
    fun small may room sound => exec_fenced small may room sound,
    fun c x may names found own => exec_errCtxAbort may names found own, fun may => exec_errPartReset may bits,
    fun may manages => ⟨?_, fun other => ?_⟩, fun small may => ⟨exec_pair small may u, exec_expel small may u⟩⟩
  · exact (exec_errDevReset may _).trans (congrArg Host.Outcome.next (if_pos (by rw [manages]; rfl)))
  · refine (exec_errDevReset may key).trans (congrArg Host.Outcome.next (if_neg ?_))
    rw [manages, Bool.true_and, beq_iff_eq]
    exact fun same => other (BitVec.eq_of_toNat_eq same)

/-! ### Key delivery -/

theorem exec_submit {s : State} (may : s.mayWrite .SEC_KD_CTRL []) : exec .submit s = .next s.submitKey :=
  congrArg Host.Outcome.next (State.bar0Write_special may rfl rfl)

/-- Settles O32: the checks of `submitKey` in their order. -/
theorem keySubmission : Obligations.KeySubmission := by
  intro s may
  rw [exec_submit may]
  unfold State.submitKey
  refine ⟨fun busy => congrArg Host.Outcome.next (if_pos busy), fun idle => ⟨fun form own empty free => ?_, fun form => ?_⟩⟩
  · rw [if_neg (by rw [idle]; decide)]
    dsimp only
    rw [if_neg (by rw [form, own]; decide), empty]
    exact congrArg Host.Outcome.next (if_neg (by rw [free]; decide))
  · rw [if_neg (by rw [idle]; decide)]
    exact congrArg Host.Outcome.next (if_pos (by rw [form]; rfl))

end Sys2Proof.Machine
end

section
/-!
PROOFS. The orbit boundary (R36 to R48). The statement quantifies over every state, also one whose map of partitions lists a
partition twice. There the end of a swap takes the partition back to what an unlisted one reads as, its first entry leaves the map,
and the second, with a swap of its own, comes to light: the release does not end the swap.
-/
namespace Sys2Proof.Machine

/-- A swap at its last step. -/
def lastStep : Swap := ⟨0, 0, .release, [], none, [], [], [], false⟩

/-- A device whose map of partitions lists partition 0 twice, each time at the last step of a swap. -/
def listedTwice : State :=
  { State.reset with parts := [(0, { Part.init with swap := some lastStep }), (0, { Part.init with swap := some lastStep })] }

theorem listedTwice_swap_after : ((after (.orbitBoundary 0) listedTwice).part 0).swap.isSome = true := by
  rfl

/-- Refutes O33: after the release of a partition listed twice in the map of partitions its second entry is still in a swap. -/
theorem not_orbitsParkingAndResuming : ¬ Obligations.OrbitsParkingAndResuming := by
  intro holds
  obtain ⟨-, -, -, steps, -⟩ := holds.1 listedTwice 0 0 lastStep
  obtain ⟨-, -, -, -, -, -, -, release⟩ := steps rfl rfl
  obtain ⟨t, done, ended, -⟩ := release rfl (Nat.zero_le _)
  have swaps := listedTwice_swap_after
  rw [after, done] at swaps
  dsimp only at swaps
  rw [ended] at swaps
  exact absurd swaps (by decide)

end Sys2Proof.Machine
end

section
/-!
PROOFS. Containment (R86, R294, R296, R489 to R494, R500 to R502). The statement has a crash of an accelerator that is crashed already
leave the state as it is. The command does not: it looks, as after any crash, for what has become ready at its home and for
evictions that can end, and a state may hold some.
-/
namespace Sys2Proof.Machine

/-- A device with an accelerator at port 0 that is crashed, and an object whose one extent is being evicted, its write-back
answered. -/
def evictionAnswered : State :=
  { State.reset.fset Reg.MGT_DISC_ROLE [0] 1 with
    crashed := [0]
    objs := [(0, { Obj.registered [] 0 0 0 [] with extents := [(0, ⟨0, [], [], true⟩)] })] }

theorem evictionAnswered_role : evictionAnswered.discRole 0 = 1 := by decide

/-- The command ends the eviction: the extent is dropped. -/
theorem evictionAnswered_extents_after :
    ((after (.acceleratorCrash 0) evictionAnswered).obj? 0).map (fun o => o.extents.length) = some 0 := by rfl

/-- Refutes O34: a crash of an accelerator that is crashed already ends an eviction that waits to be ended. -/
theorem not_containment : ¬ Obligations.Containment := by
  intro holds
  obtain ⟨-, -, -, crash, -⟩ := holds evictionAnswered 0 0 0 0 0 0 (Ctx.opened [] 0 0 0 0) (0, 0, 0, 0)
  have same := (crash (by decide) evictionAnswered_role).1 rfl
  have dropped := evictionAnswered_extents_after
  rw [after, same] at dropped
  exact absurd dropped (by decide)

end Sys2Proof.Machine
end

section
/-!
PROOFS. What an abort leaves (R355, R360, R491): a free number, no request of the context that waits at the crossbar or in a stack,
and every other context as it was.
-/
namespace Sys2Proof.Machine

/-! ### Operations that leave a part of the state -/

/-- Two states agree in what a view shows of them. -/
def State.SameIn {α : Type} (view : State → α) (t s : State) : Prop := view t = view s

section SameIn
variable {α : Type} {view : State → α}

theorem State.SameIn.refl (s : State) : s.SameIn view s := rfl

theorem State.SameIn.trans {u t s : State} (second : u.SameIn view t) (first : t.SameIn view s) : u.SameIn view s :=
  Eq.trans second first

theorem State.SameIn.ite {c : Prop} [Decidable c] {a b s : State} (yes : a.SameIn view s) (no : b.SameIn view s) :
    (if c then a else b).SameIn view s := by
  split
  · exact yes
  · exact no

theorem State.SameIn.foldl {β : Type} (f : State → β → State) (step : ∀ t a, (f t a).SameIn view t) (l : List β)
    (s : State) : (l.foldl f s).SameIn view s := by
  induction l generalizing s with
  | nil => exact .refl s
  | cons a r ih => exact (ih (f s a)).trans (step s a)

end SameIn

/-! ### Contexts and requests -/

/-- The contexts and the requests of a state. -/
def State.work (s : State) : KV Ctx × List Req := (s.ctxs, s.reqs)

theorem State.modObj_work (s : State) (h : Nat) (f : Obj → Obj) : (s.modObj h f).SameIn State.work s := rfl

theorem State.modPart_work (s : State) (p : Nat) (f : Part → Part) : (s.modPart p f).SameIn State.work s := rfl

theorem State.modQp_work (s : State) (q : Nat) (f : Qp → Qp) : (s.modQp q f).SameIn State.work s := rfl

theorem State.modMoon_work (s : State) (m : Nat) (f : Moon → Moon) : (s.modMoon m f).SameIn State.work s := rfl

theorem State.storeObj_work (s : State) (h off : Nat) (bs : List Byte) : (s.storeObj h off bs).SameIn State.work s := by
  unfold State.storeObj
  split
  · exact .refl s
  · exact .ite (s.modObj_work ..) ((State.modPart_work ..).trans (s.modObj_work ..))

theorem State.storePieces_work (s : State) (h : Nat) (skip : NatSet) (ps : List (Nat × List Byte)) :
    (s.storePieces h skip ps).SameIn State.work s := by
  refine (State.modObj_work ..).trans (State.SameIn.foldl _ (fun t q => ?_) ps s)
  exact State.SameIn.foldl _ (fun u l => .ite (.refl u) (u.storeObj_work ..)) _ t

theorem State.applyWrite_work (s : State) (q : Outst) : (s.applyWrite q).1.SameIn State.work s := by
  unfold State.applyWrite
  split
  · exact s.storePieces_work ..
  · split
    · exact .refl s
    · unfold State.doAmo
      split
      · exact .ite (s.modObj_work ..) ((State.modPart_work ..).trans (s.modObj_work ..))
      · exact s.modObj_work ..
  · split
    · exact .refl s
    · unfold State.doPublish
      dsimp only
      split
      · exact s.storeObj_work ..
      · exact .refl s
  · exact .refl s

/-- The work of a context is dropped: the contexts stay, and none of its requests waits at the crossbar or in a stack. -/
theorem State.dropWork_leaves (s : State) (c : Nat) (x : Ctx) :
    (s.dropWork c x).ctxs = s.ctxs ∧ ∀ r ∈ (s.dropWork c x).reqs, ∀ id, r.owner = .comet c id ∨ r.owner = .instr c id →
      r.state ≠ .queued ∧ r.state ≠ .needsTag ∧ r.tier ≠ 1 := by
  refine ⟨congrArg Prod.fst (State.SameIn.foldl (view := State.work) _ (fun t q => ?_) _ s), fun r left id owner => ?_⟩
  · exact .ite (t.applyWrite_work q.2) (.refl t)
  · have kept := (List.mem_filter.mp left).2
    obtain owner | owner := owner
    · rw [owner] at kept
      simpa [not_or, and_assoc] using kept
    · rw [owner] at kept
      simpa [not_or, and_assoc] using kept

theorem State.endProtection_work (s : State) (l : List (Nat × Nat)) : (s.endProtection l).SameIn State.work s :=
  State.SameIn.foldl _ (fun t _ => .ite (.refl t) (t.modObj_work ..)) l s

/-- A state without the entry of a context: its number is free, the other contexts and the requests are as in `s`. -/
theorem State.forgetCtx_leaves {t s : State} (kept : t.SameIn State.work s) (sorted : kvSorted s.ctxs = true) (c : Nat) :
    ({ t.bindSteep c none with ctxs := kvDel t.ctxs c } : State).ctx? c = none ∧
    (∀ d, d ≠ c → ({ t.bindSteep c none with ctxs := kvDel t.ctxs c } : State).ctx? d = s.ctx? d) ∧
    ({ t.bindSteep c none with ctxs := kvDel t.ctxs c } : State).reqs = s.reqs := by
  have ctxs : t.ctxs = s.ctxs := congrArg Prod.fst kept
  refine ⟨?_, fun d other => ?_, ?_⟩
  · show kvGet? (kvDel t.ctxs c) c = none
    rw [ctxs]
    exact kvGet?_kvDel_self _ c sorted
  · show kvGet? (kvDel t.ctxs c) d = kvGet? s.ctxs d
    rw [ctxs]
    exact kvGet?_kvDel_other _ c d other sorted
  · show (t.bindSteep c none).reqs = s.reqs
    unfold State.bindSteep
    split
    · exact congrArg Prod.snd kept
    · exact (congrArg Prod.snd (State.endProtection_work ..)).trans (congrArg Prod.snd kept)

/-- A context that is removed leaves its number free, the other contexts and the requests as they were. -/
theorem State.removeCtx_leaves {s : State} (sorted : kvSorted s.ctxs = true) (c : Nat) :
    (s.removeCtx c).ctx? c = none ∧ (∀ d, d ≠ c → (s.removeCtx c).ctx? d = s.ctx? d) ∧ (s.removeCtx c).reqs = s.reqs := by
  unfold State.removeCtx
  split
  · next gone => exact ⟨gone, fun _ _ => rfl, rfl⟩
  · next x found =>
    cases x.slot with
    | none => exact State.forgetCtx_leaves (s.modPart_work ..) sorted c
    | some sl => exact State.forgetCtx_leaves ((State.modMoon_work ..).trans (s.modPart_work ..)) sorted c

/-- What an abort leaves of the contexts and of the requests (R355, R491). -/
theorem State.abortCtx_leaves {s : State} {c : Nat} {x : Ctx} (found : s.ctx? c = some x) (sorted : kvSorted s.ctxs = true) :
    (s.abortCtx c).ctx? c = none ∧ (∀ d, d ≠ c → (s.abortCtx c).ctx? d = s.ctx? d) ∧
    ∀ r ∈ (s.abortCtx c).reqs, ∀ id, r.owner = .comet c id ∨ r.owner = .instr c id →
      r.state ≠ .queued ∧ r.state ≠ .needsTag ∧ r.tier ≠ 1 := by
  obtain ⟨ctxs, dropped⟩ := s.dropWork_leaves c x
  have sorted' : kvSorted ((s.dropWork c x).endRun c x.qp none).ctxs = true := by
    rw [show ((s.dropWork c x).endRun c x.qp none).ctxs = s.ctxs from ctxs]
    exact sorted
  obtain ⟨gone, others, reqs⟩ := State.removeCtx_leaves sorted' c
  have closed : (s.abortCtx c).SameIn State.work (((s.dropWork c x).endRun c x.qp none).removeCtx c) := by
    unfold State.abortCtx
    rw [found]
    exact .ite (State.modPart_work ..) ((State.modPart_work ..).trans (State.modPart_work ..))
  have ctx : ∀ d, (s.abortCtx c).ctx? d = (((s.dropWork c x).endRun c x.qp none).removeCtx c).ctx? d := fun d =>
    congrArg (fun w : KV Ctx × List Req => kvGet? w.1 d) closed
  refine ⟨(ctx c).trans gone, fun d other => ?_, ?_⟩
  · rw [ctx d, others d other]
    show kvGet? (s.dropWork c x).ctxs d = _
    rw [ctxs]
    rfl
  · rw [show (s.abortCtx c).reqs = (s.dropWork c x).reqs from (congrArg Prod.snd closed).trans reqs]
    exact dropped

/-- A close that waits for an aborted context ends or waits on; contexts and requests stay. -/
theorem State.progress_work_of_closing {s : State} {q c : Nat} {d : List Byte} (closing : (s.qp q).service = some (d, .close c)) :
    (s.progress q).SameIn State.work s := by
  unfold State.progress
  rw [closing]
  exact .ite (s.modQp_work ..) (.refl s)

/-- Settles O35: an abort leaves the other contexts and requests, and what follows it touches neither (`SameIn`). -/
theorem abortedContextsAreGone : Obligations.AbortedContextsAreGone := by
  intro s c x found due calm sorted
  obtain ⟨gone, others, dropped⟩ := State.abortCtx_leaves found sorted
  have kept : ∀ l : List Nat, (l.foldl (fun (u : State) q => match (u.qp q).service with
      | some (_, .close d) => if d = c then u.progress q else u
      | _ => u) (s.abortCtx c)).SameIn State.work (s.abortCtx c) := by
    refine fun l => State.SameIn.foldl _ (fun u q => ?_) l _
    split
    · next d k closing => exact .ite (State.progress_work_of_closing closing) (.refl u)
    · exact .refl u
  have ended := kept (kvKeys (s.abortCtx c).qps)
  refine ⟨_, ?_, (congrArg (fun w : KV Ctx × List Req => kvGet? w.1 c) ended).trans gone, ?_, fun d y other was => ⟨y, ?_, ?_⟩⟩
  · show execContextAbort c s = _
    unfold execContextAbort
    rw [found]
    exact congrArg Host.Outcome.next ((if_neg (by rw [due, calm]; decide)).trans rfl)
  · exact fun r left => dropped r (Eq.mp (congrArg (fun w : KV Ctx × List Req => r ∈ w.2) ended) left)
  · exact ((congrArg (fun w : KV Ctx × List Req => kvGet? w.1 d) ended).trans (others d other)).trans was
  · exact ⟨rfl, rfl, rfl, rfl, rfl, rfl, rfl, rfl⟩

end Sys2Proof.Machine
end

section
/-!
PROOFS. The requests of accelerators at ingress (R273, R275 to R277, R296, R380, R382): what enters, and what is refused.
-/
namespace Sys2Proof.Machine

/-! ### Taking a flit -/

theorem State.flit_of_takesFlit {s : State} {n : Nat} (takes : s.takesFlit n) (body : State → State) : s.flit n body = body s := by
  obtain ⟨active, secure, addressed⟩ := takes
  unfold State.flit
  rw [active, secure, addressed]
  rfl

theorem State.flit_of_inactive {s : State} {n : Nat} (down : s.active n = false) (body : State → State) : s.flit n body = s := by
  unfold State.flit
  rw [down]
  rfl

theorem State.flit_of_insecure {s : State} {n : Nat} (active : s.active n = true) (open' : s.secure n = false)
    (body : State → State) : s.flit n body = s.fsat Reg.LINK_IDE_STAT_DISCARDS [n] 1 := by
  unfold State.flit
  rw [active, open', if_neg (by decide), if_pos (by decide)]

theorem State.flit_of_unaddressed {s : State} {n : Nat} (active : s.active n = true) (secure : s.secure n = true)
    (early : s.addressed n = false) (body : State → State) : s.flit n body = s := by
  unfold State.flit
  rw [active, secure, early]
  rfl

/-! ### The checks in order -/

theorem State.m2s_of_room {s : State} {m : M2S} {k : AccKind} (takes : s.takesFlit m.port)
    (sound : s.crashed.contains m.port = false) (room : s.role m.port = 1 → s.poolRoom m.port k.channel 1 = true) :
    s.m2s m k = s.ingress m k := by
  unfold State.m2s
  rw [State.flit_of_takesFlit takes, sound, Bool.false_or]
  refine if_neg ?_
  rw [Bool.and_eq_true, decide_eq_true_eq, not_and, Bool.not_eq_true', Bool.not_eq_false]
  exact room

theorem State.m2s_of_crashed {s : State} {m : M2S} (k : AccKind) (takes : s.takesFlit m.port)
    (crashed : s.crashed.contains m.port = true) : s.m2s m k = s := by
  unfold State.m2s
  rw [State.flit_of_takesFlit takes, crashed]
  rfl

theorem State.ingress_of_viral {s : State} {m : M2S} (k : AccKind) (viral : s.viral.contains m.port = true) :
    s.ingress m k = s.foreign.answerEmpty m.port m.tag k.cmp := by
  unfold State.ingress
  exact if_pos viral

theorem State.ingress_of_foreign {s : State} {m : M2S} (k : AccKind) (quiet : s.viral.contains m.port = false)
    (other : s.role m.port ≠ 1 ∨ s.ownPbr ≠ some m.dpid) : s.ingress m k = s.refuseM2S m k .foreign none true := by
  unfold State.ingress
  rw [if_neg (Bool.eq_false_iff.mp quiet), if_pos other]

section Own
variable {s : State} {m : M2S} (k : AccKind) (quiet : s.viral.contains m.port = false) (role : s.role m.port = 1)
  (own : s.ownPbr = some m.dpid)
include quiet role own

theorem State.ingress_of_spid (other : s.pbrOfPort m.port ≠ some m.spid) : s.ingress m k = s.refuseM2S m k .spid none true := by
  unfold State.ingress
  rw [if_neg (Bool.eq_false_iff.mp quiet), if_neg (not_or.mpr ⟨not_not_intro role, not_not_intro own⟩), if_pos other]

theorem State.ingress_of_no_window (spid : s.pbrOfPort m.port = some m.spid) (out : s.findWindow m.spid m.addr = none) :
    s.ingress m k = s.refuseM2S m k .window none true := by
  unfold State.ingress
  rw [if_neg (Bool.eq_false_iff.mp quiet), if_neg (not_or.mpr ⟨not_not_intro role, not_not_intro own⟩), if_neg (not_not_intro spid), out]

end Own

/-- A request that passes every check is admitted (R273, R275, R380). -/
theorem State.m2s_of_admits {s : State} {m : M2S} {k : AccKind} {p l : Nat} {x : List Byte} {o : Obj}
    (admits : s.admits m k.writes p x o l) : s.m2s m k = s.admitAcc m k p x (refHandle (reRef x)) o l := by
  obtain ⟨takes, sound, quiet, room, role, own, spid, ⟨w, window, part, right, coherent⟩, calm, entry, kind, writable, object,
    inside, allowed, line, fits, live⟩ := admits
  rw [State.m2s_of_room takes sound (fun _ => room)]
  unfold State.ingress
  rw [if_neg (Bool.eq_false_iff.mp quiet), if_neg (not_or.mpr ⟨not_not_intro role, not_not_intro own⟩),
    if_neg (not_not_intro spid), window]
  dsimp only
  rw [part, calm, entry]
  dsimp only
  have rights : ¬((!(s.fget (if k.writes = true then Reg.PART_WIN_A_WR else Reg.PART_WIN_A_RD) [w] == 1) ||
      decide (reKind x = 1) && reCoh x && !s.fget Reg.PART_WIN_A_COH [w] == 1) = true) := by
    rw [right]
    cases coh : reCoh x with
    | true => rw [coherent coh]; simp
    | false => simp
  have passes : (decide (handlePart (refHandle (reRef x)) = p) && (if k.writes = true then o.wr && !reReadOnly x else o.rd) &&
      decide (reOffp x * 4096 + (m.addr - reAddr x) / 64 * 64 + 64 ≤ o.size)) = true := by
    rw [decide_eq_true inside, decide_eq_true fits]
    cases writes : k.writes with
    | true =>
      rw [writes] at writable allowed
      rw [if_pos rfl, show o.wr = true from allowed, writable rfl]
      rfl
    | false =>
      rw [writes] at allowed
      rw [if_neg Bool.false_ne_true, show o.rd = true from allowed]
      rfl
  rw [if_neg (by decide), if_neg rights, if_neg (by rw [kind]; decide), object]
  dsimp only
  rw [if_pos passes, if_neg (Bool.eq_false_iff.mp live), ← line]

theorem lineBytes_of_whole {data : List Byte} (whole : data.length = 64) : lineBytes data = data := by
  rw [lineBytes, List.take_append_of_le_length (Nat.le_of_eq whole.symm), List.take_of_length_le (Nat.le_of_eq whole)]

/-- Settles O36: what `m2s_of_admits` says of each kind of request. -/
theorem acceleratorRequestsEnter : Obligations.AcceleratorRequestsEnter := by
  intro s m p l x o any data en h id u ch enter
  refine ⟨fun admits => ⟨?_, ?_, ?_, ?_⟩, fun admits whole => ⟨?_, ?_⟩, fun takes => ?_⟩
  · exact congrArg Host.Outcome.next (State.m2s_of_admits (k := .read any) admits)
  · exact congrArg Host.Outcome.next (State.m2s_of_admits (k := .read any) admits)
  · exact congrArg Host.Outcome.next (State.m2s_of_admits (k := .inval) admits)
  · exact congrArg Host.Outcome.next (State.m2s_of_admits (k := .inval) admits)
  · show execMemwr m.port m.spid m.dpid m.tag m.addr data s = _
    unfold execMemwr
    rw [lineBytes_of_whole whole]
    exact congrArg Host.Outcome.next (State.m2s_of_admits (k := .write data (List.replicate 64 true)) admits)
  · show execMemwrptl m.port m.spid m.dpid m.tag m.addr data en s = _
    unfold execMemwrptl
    rw [lineBytes_of_whole whole]
    exact congrArg Host.Outcome.next
      (State.m2s_of_admits (k := .write data ((List.range 64).map (fun i => bitAt i en))) admits)
  · exact congrArg Host.Outcome.next (State.flit_of_takesFlit takes _)

/-! ### Refusals -/

theorem exec_memrd (s : State) (m : M2S) (any : Bool) :
    exec (.memrd m.port m.spid m.dpid m.tag m.addr any) s = .next (s.m2s m (.read any)) := rfl

theorem exec_meminv (s : State) (m : M2S) : exec (.meminv m.port m.spid m.dpid m.tag m.addr) s = .next (s.m2s m .inval) := rfl

/-- A refusal outside every window is recorded in the device queue (R276). -/
theorem State.refuseM2S_device (s : State) (m : M2S) (k : AccKind) :
    (s.refuseM2S m k .foreign none true = (s.foreign.appendDev (Rec.noPart stAccess clsRefusal 2 0 0 m.addr m.who s.now)).answerEmpty
      m.port m.tag k.cmp) ∧
    (s.refuseM2S m k .spid none true = ((s.fsat Reg.XBAR_FAB_REFUSE_SPID [] 1).appendDev
      (Rec.noPart stAccess clsRefusal 2 0 0 m.addr m.who s.now)).answerEmpty m.port m.tag k.cmp) ∧
    (s.refuseM2S m k .window none true = ((s.fsat Reg.XBAR_FAB_REFUSE_WINDOW [] 1).appendDev
      (Rec.noPart stAccess clsRefusal 2 0 0 m.addr m.who s.now)).answerEmpty m.port m.tag k.cmp) := by
  simp only [State.refuseM2S, Bool.not_true, Bool.false_eq_true, reduceCtorEq, if_false, and_self]

/-- Settles O37: the checks of a flit in their order, then the first check of `refuseM2S` that fails. -/
theorem acceleratorRequestsRefused : Obligations.AcceleratorRequestsRefused := by
  intro s m any read inv
  have reads : read = .next (s.m2s m (.read any)) := exec_memrd s m any
  have invs : inv = .next (s.m2s m .inval) := exec_meminv s m
  rw [reads, invs]
  refine ⟨fun down => congrArg Host.Outcome.next (State.flit_of_inactive down _), fun active open' =>
    congrArg Host.Outcome.next (State.flit_of_insecure active open' _), fun active secure early =>
    congrArg Host.Outcome.next (State.flit_of_unaddressed active secure early _), fun takes room => ⟨fun crashed =>
    congrArg Host.Outcome.next (State.m2s_of_crashed _ takes crashed), fun sound => ?_⟩⟩
  rw [State.m2s_of_room (k := .read any) takes sound room, State.m2s_of_room (k := .inval) takes sound room]
  obtain ⟨foreign, spid, window⟩ := s.refuseM2S_device m (.read any)
  obtain ⟨foreign', -, -⟩ := s.refuseM2S_device m .inval
  refine ⟨fun viral => ?_, fun quiet => ⟨fun other => ⟨?_, ?_⟩, fun role own => ⟨fun other => ?_, fun named out => ?_⟩⟩⟩
  · rw [State.ingress_of_viral _ viral]
    rfl
  · rw [State.ingress_of_foreign _ quiet other, foreign]
    rfl
  · rw [State.ingress_of_foreign _ quiet other, foreign']
    rfl
  · rw [State.ingress_of_spid _ quiet role own other, spid]
    rfl
  · rw [State.ingress_of_no_window _ quiet role own named out, window]
    rfl

end Sys2Proof.Machine
end

section
/-!
PROOFS. Responses on fabric links (R262, R263, R276, R282, R291, R292, R296, R304, R382, R385, R386), and the other flits: those of
trays, device messages and CXL.io (R146, R273, R278, R301, R304, R381, R383, R386, R389).
-/
namespace Sys2Proof.Machine

/-! ### Answers to snoops -/

theorem State.birsp_of_takesFlit {s : State} {n : Nat} (takes : s.takesFlit n) (sound : s.crashed.contains n = false)
    (h l : Nat) (keep : Bool) :
    (∀ q, s.snoopOut n h l = some q → s.rspRoom n .birsp = true → s.birsp n h l keep =
      ({ s with snoops := s.snoops.map (fun k => if k = q then { k with back := true } else k) } : State).rspArrives n
        (s.homePort h l) 7 (s.cellTag (handlePart h)) (.birsp h l keep) .birsp) ∧
    (s.snoopOut n h l = none → s.birsp n h l keep = s.foreign) := by
  unfold State.birsp
  rw [State.flit_of_takesFlit takes, if_neg (Bool.eq_false_iff.mp sound)]
  refine ⟨fun q out room => ?_, fun out => ?_⟩
  · rw [out]
    exact if_neg (by rw [room]; decide)
  · rw [out]

theorem exec_biTimeout {s : State} {n h l : Nat} {q : Snoop} (out : s.snoopOut n h l = some q) :
    exec (.biTimeout n h l) s = .next (if q.since + (if s.fget Reg.XBAR_FAB_CTRL_BI_TIMEOUT [] = 0 then 1700
      else s.fget Reg.XBAR_FAB_CTRL_BI_TIMEOUT []) ≤ s.now then (s.crashAccel n).finishAccs else s) := by
  show execBiTimeout n h l s = _
  unfold execBiTimeout
  rw [out]

theorem exec_m2sOtherOpcode {s : State} {n : Nat} (takes : s.takesFlit n) (sound : s.crashed.contains n = false)
    (tag resp : Nat) : exec (.m2sOtherOpcode n tag resp) s = .next (if resp = 1 then s.foreign.answerEmpty n tag false
      else if resp = 2 then s.foreign.answerEmpty n tag true else s.foreign) := by
  show execM2sOtherOpcode n tag resp s = _
  unfold execM2sOtherOpcode
  rw [State.flit_of_takesFlit takes, if_neg (Bool.eq_false_iff.mp sound)]

/-! ### Responses of trays -/

section Tray
variable {s : State} {n id : Nat} (takes : s.takesFlit n) (tray : s.role n = 2)
include takes tray

theorem exec_s2mDrs (room : s.rspRoom n .drs = true) (data : TrayData) (abort : Bool) :
    (s.outstanding n id = none → exec (.s2mDrs n id data abort) s = .next s.foreign) ∧
    (∀ r, s.outstanding n id = some r → exec (.s2mDrs n id data abort) s = .next
      (if r.rdFirst && !(data.poison || abort) then
          ((s.fromTray? r data.line).modReq id (fun q => { q with rdFirst := false })).toTray { r with rdFirst := false }
        else if r.write && !(data.poison || abort) then s
        else (if data.poison || abort then s else s.fromTray? r data.line).answerArrives n r data.poison abort true)) := by
  show (_ → execS2mDrs n id data abort s = _) ∧ ∀ r, _ → execS2mDrs n id data abort s = _
  unfold execS2mDrs
  rw [State.flit_of_takesFlit takes, if_neg (by rw [tray, room]; decide)]
  refine ⟨fun out => ?_, fun r out => ?_⟩
  · rw [out]
  · rw [out]

theorem exec_s2mNdr (room : s.rspRoom n .ndr = true) (abort : Bool) :
    (s.outstanding n id = none → exec (.s2mNdr n id abort) s = .next s.foreign) ∧
    (∀ r, s.outstanding n id = some r → exec (.s2mNdr n id abort) s =
      .next (if abort || (r.write && !r.rdFirst) then s.answerArrives n r false abort false else s)) := by
  show (_ → execS2mNdr n id abort s = _) ∧ ∀ r, _ → execS2mNdr n id abort s = _
  unfold execS2mNdr
  rw [State.flit_of_takesFlit takes, if_neg (by rw [tray, room]; decide)]
  refine ⟨fun out => ?_, fun r out => ?_⟩
  · rw [out]
  · rw [out]

end Tray

/-- Settles O38: a snoop's answer and a tray's response by the tag they answer. -/
theorem fabricResponses : Obligations.FabricResponses := by
  intro s n h l id tag q r keep poison abort data takes answer out limit
  refine ⟨fun sound => ?_, fun found => ?_, fun sound => ?_, fun tray drs ndr => ?_⟩
  · have answers : exec answer s = .next (s.birsp n h l keep) := by
      cases keep with
      | true => rfl
      | false => rfl
    obtain ⟨back, stray⟩ := State.birsp_of_takesFlit takes sound h l keep
    rw [answers]
    exact ⟨fun found room => congrArg Host.Outcome.next (back q found room), fun none' => congrArg Host.Outcome.next (stray none')⟩
  · rw [exec_biTimeout found]
    exact ⟨fun due => congrArg Host.Outcome.next (if_pos due), fun early => congrArg Host.Outcome.next (if_neg (Nat.not_le.mpr early))⟩
  · rw [exec_m2sOtherOpcode takes sound, exec_m2sOtherOpcode takes sound, exec_m2sOtherOpcode takes sound]
    exact ⟨rfl, rfl, rfl⟩
  · obtain ⟨strayDrs, -⟩ := exec_s2mDrs (id := id) takes tray drs ⟨data, poison⟩ abort
    obtain ⟨strayNdr, -⟩ := exec_s2mNdr (id := id) takes tray ndr abort
    refine ⟨fun none' => ⟨strayDrs none', strayNdr none'⟩, fun found => ?_⟩
    have drs' := fun d a => (exec_s2mDrs (id := id) takes tray drs d a).2 r found
    have ndr' := fun a => (exec_s2mNdr (id := id) takes tray ndr a).2 r found
    refine ⟨fun failed => ?_, fun first => ?_, fun first read => ?_, ?_, fun first write => ?_⟩
    · rw [drs', failed]
      simp only [Bool.not_true, Bool.and_false, Bool.false_eq_true, if_false, if_true]
      rfl
    · rw [drs', first]
      rfl
    · rw [drs', first, read]
      rfl
    · rw [ndr']
      rfl
    · rw [ndr', first, write]
      rfl

/-! ### The other flits -/

section Tray
variable {s : State} {n : Nat} (takes : s.takesFlit n) (tray : s.role n = 2)
include takes tray

theorem exec_trayOriginatedRequest : exec (.trayOriginatedRequest n) s = .next s.foreign :=
  congrArg Host.Outcome.next ((State.flit_of_takesFlit takes _).trans (if_pos tray))

theorem exec_trayBisnp : exec (.trayBisnp n) s = .next s.foreign :=
  congrArg Host.Outcome.next ((State.flit_of_takesFlit takes _).trans (if_pos tray))

theorem exec_trayIoRequest (message : Bool) :
    exec (.trayIoRequest n message) s = .next (if message then s.emit (.toMgmt n) else s) := by
  refine congrArg Host.Outcome.next ((State.flit_of_takesFlit takes _).trans ?_)
  rw [decide_eq_true tray, Bool.true_and]

end Tray

section Message
variable {s : State} {n cls dpid p cr : Nat} {hd pl : List Byte} (takes : s.takesFlit n) (peer : s.role n = 3)
  (room : s.poolRoom n .posted (ceilDiv (64 + pl.length) 128) = true)
include takes peer room

/-- A run that its port takes goes by its destination: a ring of this device, or another device (R278, R381). -/
theorem exec_deviceMessageRun_here (own : s.ownPbr = some dpid) :
    (∀ c x, s.judge (some n) cr ⟨hd, pl⟩ = .inl c → s.ctx? c = some x →
      exec (.deviceMessageRun n cls dpid p cr hd pl) s = .next (if x.ringSlots ≤ x.ring.length then s else
        (runCells s.fresh.1 (256 + x.slot.getD 0 / 128) (s.fresh.2.chargeFor x.part x.tenant (min cls 5)) (msgSource ⟨hd, pl⟩)
          (2 ^ 41 + cr) (s.fresh.2.cellTag x.part) (64 + pl.length) (.ring cr ⟨hd, pl⟩)).foldl
            (fun v k => v.cellArrives n k) s.fresh.2)) ∧
    (∀ q, s.judge (some n) cr ⟨hd, pl⟩ = .inr q →
      exec (.deviceMessageRun n cls dpid p cr hd pl) s = .next (s.refuseMessage (some n) q ⟨hd, pl⟩)) := by
  have refused : ¬(s.role n ≠ 3 ∨ s.poolRoom n .posted (ceilDiv (64 + pl.length) 128) = false) := by
    rw [peer, room]
    decide
  show (∀ c x, _ → _ → execDeviceMessageRun n cls dpid p cr hd pl s = _) ∧ ∀ q, _ →
    execDeviceMessageRun n cls dpid p cr hd pl s = _
  unfold execDeviceMessageRun
  rw [State.flit_of_takesFlit takes]
  dsimp only
  rw [if_neg refused, if_pos own]
  refine ⟨fun c x goes found => ?_, fun q bad => ?_⟩
  · rw [goes]
    dsimp only
    rw [found]
  · rw [bad]

theorem exec_deviceMessageRun_away (other : s.ownPbr ≠ some dpid) :
    (∀ to' any, s.transitPort dpid = (some to', any) → exec (.deviceMessageRun n cls dpid p cr hd pl) s =
      .next ((runCells s.fresh.1 to' (deviceCharge (min cls 5)) (msgSource ⟨hd, pl⟩) (2 ^ 42 + dpid * 2 ^ 32 + cr)
        (deviceOuter, 0) (64 + pl.length) (.transit dpid p cr ⟨hd, pl⟩)).foldl (fun v k => v.cellArrives n k) s.fresh.2)) ∧
    (s.transitPort dpid = (none, false) → exec (.deviceMessageRun n cls dpid p cr hd pl) s = .next s.foreign) := by
  have refused : ¬(s.role n ≠ 3 ∨ s.poolRoom n .posted (ceilDiv (64 + pl.length) 128) = false) := by
    rw [peer, room]
    decide
  show (∀ to' any, _ → execDeviceMessageRun n cls dpid p cr hd pl s = _) ∧ (_ →
    execDeviceMessageRun n cls dpid p cr hd pl s = _)
  unfold execDeviceMessageRun
  rw [State.flit_of_takesFlit takes]
  dsimp only
  rw [if_neg refused, if_neg other]
  refine ⟨fun to' any route => ?_, fun route => ?_⟩
  · rw [route]
  · rw [route]

end Message

theorem exec_fabricIoTlp {s : State} {n : Nat} {kind : IoKind} (active : s.active n = true) (plain : kind ≠ .doe) (tag : Nat)
    (np : Bool) : exec (.fabricIoTlp n tag kind np) s = .next
      (if !s.secure n then s.fsat Reg.LINK_IDE_STAT_DISCARDS [n] 1
      else if ioAllowed kind (s.role n) then s
      else if np then (if kind = .atomicOp then s.foreign else s).respond n 7 n (.unsupported n tag)
        else if kind = .atomicOp then s.foreign else s) := by
  show execFabricIoTlp n tag kind np s = _
  unfold execFabricIoTlp
  rw [if_neg (by rw [active]; decide), if_neg plain]

/-- Settles O39: the tray's own flits, the runs of messages by their destination, and TLPs by the link's role. -/
theorem otherFlits : Obligations.OtherFlits := by
  intro s n cls dpid p cr c to' tag hd pl x kind np
  refine ⟨fun takes => ⟨fun tray => ⟨exec_trayOriginatedRequest takes tray, exec_trayBisnp takes tray,
    exec_trayIoRequest takes tray true, exec_trayIoRequest takes tray false⟩, fun peer room => ⟨fun own goes found => ?_,
      fun q own => (exec_deviceMessageRun_here takes peer room own).2 q,
      fun any other => (exec_deviceMessageRun_away takes peer room other).1 to' any,
      fun other => (exec_deviceMessageRun_away takes peer room other).2⟩⟩, fun active plain => ?_⟩
  · have run := (exec_deviceMessageRun_here (cls := cls) (p := p) takes peer room own).1 c x goes found
    exact ⟨fun space => run.trans (congrArg Host.Outcome.next (if_neg (Nat.not_le.mpr space))),
      fun full => run.trans (congrArg Host.Outcome.next (if_pos full))⟩
  · rw [exec_fabricIoTlp active plain]
    refine ⟨fun open' => congrArg Host.Outcome.next (if_pos (by rw [open']; rfl)), fun secure allowed => ?_,
      fun secure allowed => ?_⟩
    · rw [secure, allowed]
      rfl
    · rw [secure, allowed]
      rfl

end Sys2Proof.Machine
end

section
/-!
PROOFS. The crossbar (R300, R302, R304 to R314, R317, R319, R324 to R332).
-/
namespace Sys2Proof.Machine

/-! ### Grants -/

theorem exec_crossbarGrant {s : State} {out : Nat} {h : Head} (chosen : s.choose out = some h) (bad : Bool) :
    exec (.crossbarGrant ⟨out, bad⟩) s =
      .next (if s.accepted out h then (s.countGrant out h.inp).grant out h bad else s) := by
  show execCrossbarGrant ⟨out, bad⟩ s = _
  unfold execCrossbarGrant
  dsimp only
  rw [chosen]

/-- The state as a message of a charge is granted: the heads it passes over are marked, and the round-robin moves on. -/
def State.turned (s : State) (out inp : Nat) (ch : Charge) : State :=
  (if ch.cls < 6 then (s.countGrant out inp).passOver out ch else s.countGrant out inp).modShare out (fun e =>
    { e with rr := kvSet e.rr ch.cls inp })

/-- The state as a cell leaves its queue, charged where it is of classes 0 to 5. -/
def State.unqueued (t : State) (out inp : Nat) (cell : Cell) : State :=
  (if cell.charge.cls < 6 then t.chargeOutput out cell.charge cell.len else t).modXin inp (fun x =>
    x.modQueue cell.key (fun e => { e with head := e.head.tail }))

section Grant
variable {s : State} {out inp : Nat} {ch : Charge} {bad : Bool}

theorem exec_crossbarGrant_cell {cell : Cell} (chosen : s.choose out = some ⟨ch, inp, .cell cell⟩)
    (accepted : s.accepted out ⟨ch, inp, .cell cell⟩ = true) : exec (.crossbarGrant ⟨out, bad⟩) s =
      .next (((s.turned out inp ch).unqueued out inp cell).deliverCell inp cell bad) := by
  rw [exec_crossbarGrant chosen, if_pos accepted]
  rfl

theorem exec_crossbarGrant_req {id : Nat} {r : Req} (found : (s.turned out inp ch).req? id = some r)
    (chosen : s.choose out = some ⟨ch, inp, .req id⟩) (accepted : s.accepted out ⟨ch, inp, .req id⟩ = true) :
    exec (.crossbarGrant ⟨out, bad⟩) s =
      .next (((s.turned out inp ch).chargeOutput out ch ((s.turned out inp ch).reqLen r)).deliverReq r) := by
  rw [exec_crossbarGrant chosen, if_pos accepted]
  unfold State.grant
  dsimp only
  rw [show (State.modShare _ out _).req? id = some r from found]
  rfl

theorem exec_crossbarGrant_rsp {w : Rsp} (chosen : s.choose out = some ⟨ch, inp, .rsp w⟩)
    (accepted : s.accepted out ⟨ch, inp, .rsp w⟩ = true) : exec (.crossbarGrant ⟨out, bad⟩) s =
      .next (({ s.turned out inp ch with rsp := (s.turned out inp ch).rsp.erase w } : State).leave w) := by
  rw [exec_crossbarGrant chosen, if_pos accepted]
  rfl

end Grant

/-! ### Cells at their outputs -/

section Deliver
variable {s : State} {n : Nat} {c : Cell} {bad : Bool}

theorem State.deliverCell_request {id : Nat} (body : c.body = .request id) : s.deliverCell n c bad = s.requestHome id bad := by
  unfold State.deliverCell
  rw [body]

theorem State.deliverCell_doorbell {tag a q : Nat} {d : List Byte} (body : c.body = .doorbell tag a q d) :
    s.deliverCell n c bad = (s.fabricPush n c.src a q d).respond n 6 c.out (.cmp n tag) := by
  unfold State.deliverCell
  rw [body]

theorem State.deliverCell_answer {id : Nat} {p a d : Bool} (body : c.body = .answer id p a d) :
    s.deliverCell n c bad = s.trayAnswers id c.out p a := by
  unfold State.deliverCell
  rw [body]

theorem State.deliverCell_birsp {h l : Nat} {keep : Bool} {q : Snoop} (body : c.body = .birsp h l keep)
    (out : s.snoops.find? (fun e => e.back && decide (e.port = n) && decide (e.handle = h) && decide (e.line = l)) = some q) :
    s.deliverCell n c bad = (s.snoopAnswered q keep).finishAccs := by
  unfold State.deliverCell
  rw [body]
  dsimp only
  rw [out]

theorem State.deliverCell_part (body : c.body = .part) : s.deliverCell n c bad = s := by
  unfold State.deliverCell
  rw [body]

theorem State.deliverCell_transit {pbr p ctx : Nat} {m : Msg} (body : c.body = .transit pbr p ctx m)
    (up : s.outLost c.out = false) : s.deliverCell n c bad = s.emit (.transit c.out pbr p ctx m) := by
  unfold State.deliverCell
  rw [body]
  dsimp only
  rw [if_neg (Bool.eq_false_iff.mp up)]

end Deliver

/-! ### Returns of spilled segments -/

theorem State.modXin_congr (s : State) (n : Nat) {f g : XIn → XIn} (same : f (s.xinOf n) = g (s.xinOf n)) :
    s.modXin n f = s.modXin n g := by
  rw [State.modXin, same, State.modXin]

theorem XIn.modQueue_congr (x : XIn) (k : Nat) {f g : XQueue → XQueue} (same : f (x.queue k) = g (x.queue k)) :
    x.modQueue k f = x.modQueue k g := by
  rw [XIn.modQueue, same, XIn.modQueue]

theorem drop_length_take {α : Type} (l : List α) (m : Nat) : l.drop (l.take m).length = l.drop m := by
  rw [List.length_take]
  rcases Nat.le_total m l.length with short | long
  · rw [Nat.min_eq_left short]
  · rw [Nat.min_eq_right long, List.drop_length, List.drop_of_length_le long]

/-- A return starts with the records that fit, at most 32 (R313). -/
theorem exec_spillReturn {s : State} {n out k : Nat} (room : ((s.xinOf n).queue (8 * out + k)).head.length < 8)
    (spilled : ((s.xinOf n).queue (8 * out + k)).spill ≠ []) (idle : ((s.xinOf n).queue (8 * out + k)).back = [])
    (space : (s.xinOf n).used < poolSize) (calm : s.spillBusy n = false)
    (free : min poolSize (s.fget Reg.XBAR_CFG_RET_FREE []) ≤ poolSize - (s.xinOf n).used) :
    exec (.spillReturn n out k) s = .next ((s.modXin n (fun y => { y.modQueue (8 * out + k) (fun z => { z with
      back := z.spill.take (min 32 (poolSize - (s.xinOf n).used))
      spill := z.spill.drop (min 32 (poolSize - (s.xinOf n).used))
      since := s.now }) with
        retBusy := s.now + (((s.xinOf n).queue (8 * out + k)).spill.take (min 32 (poolSize - (s.xinOf n).used))).length })).noteStall n) := by
  have starts : ¬(8 ≤ ((s.xinOf n).queue (8 * out + k)).head.length ∨ ((s.xinOf n).queue (8 * out + k)).spill.isEmpty = true ∨
      ((s.xinOf n).queue (8 * out + k)).back ≠ [] ∨
      poolSize - (s.xinOf n).used < min poolSize (s.fget Reg.XBAR_CFG_RET_FREE []) ∨ s.spillBusy n = true) := by
    simp only [not_or, Nat.not_le, ne_eq, Decidable.not_not, Nat.not_lt, List.isEmpty_iff, Bool.not_eq_true]
    exact ⟨room, spilled, idle, free, calm⟩
  have some' : ¬((((s.xinOf n).queue (8 * out + k)).spill.take (min 32 (poolSize - (s.xinOf n).used))).isEmpty = true) := by
    rw [List.isEmpty_iff, List.take_eq_nil_iff, not_or]
    exact ⟨by omega, spilled⟩
  show execSpillReturn n out k s = _
  unfold execSpillReturn
  dsimp only
  rw [if_neg starts, if_neg some']
  refine congrArg (fun t : State => Host.Outcome.next (t.noteStall n)) (s.modXin_congr n ?_)
  refine congrArg (fun y : XIn => ({ y with retBusy := _ } : XIn)) (XIn.modQueue_congr _ _ ?_)
  rw [drop_length_take]

theorem exec_spillReturnFilled {s : State} {n out k : Nat} {lost : List Nat}
    (due : ((s.xinOf n).queue (8 * out + k)).back ≠ []) (late : ((s.xinOf n).queue (8 * out + k)).since + 300 ≤ s.now) :
    let q := (s.xinOf n).queue (8 * out + k)
    let gone := (q.back.zipIdx.filter (fun c => lost.contains c.2 && s.partValid c.1.tag.1)).map (fun c => c.1)
    let good := q.back.filter (fun c => !gone.contains c)
    exec (.spillReturnFilled n out ⟨k, lost⟩) s = .next (gone.foldl (fun v c => (v.purgeCell n c).triggerReset c.tag.1 2)
      ((((good.foldl (fun t c => t.wake out c.charge) s).modXin n (fun y => y.modQueue (8 * out + k) (fun z =>
        if z.spill.isEmpty then { z with
          head := z.head ++ good ++ z.tail
          back := []
          tail := []
          off := 0
          since := 0
          pairs := [] }
        else { z with head := z.head ++ good, back := [], off := (z.off + q.back.length) % 32, since := 0 }))).fsat
          Reg.XBAR_PORT_EVT_RETURNED [n] q.back.length).noteRing)) := by
  refine congrArg Host.Outcome.next (if_neg ?_)
  rw [Bool.or_eq_true, List.isEmpty_iff, decide_eq_true_eq, not_or, Nat.not_lt]
  exact ⟨due, late⟩

/-! ### Freed tags -/

theorem exec_tagAdmit {s : State} {n : Nat} (free : s.tagFree n = true) :
    (∀ q, s.snoops.find? (fun e => !e.sent && decide (e.port = n)) = some q →
      exec (.tagAdmit n) s = .next (({ s with snoops := s.snoops.map (fun e =>
        if e = q then { e with sent := true, since := s.now } else e) } : State).respond n 7 (s.homePort q.handle q.line)
          (.snoop n q.handle q.line q.inv))) ∧
    (∀ r, s.snoops.find? (fun e => !e.sent && decide (e.port = n)) = none → s.nextWaiter n = some r →
      exec (.tagAdmit n) s = .next (s.takeTag r.id)) := by
  show (∀ q, _ → execTagAdmit n s = _) ∧ ∀ r, _ → _ → execTagAdmit n s = _
  unfold execTagAdmit
  rw [if_neg (by rw [free]; decide)]
  refine ⟨fun q waits => ?_, fun r none' next => ?_⟩
  · rw [waits]
  · rw [none']
    dsimp only
    rw [next]

/-- Settles O40: a grant by the body of the cell it moves, then spilled segments and freed tags. -/
theorem crossbar : Obligations.Crossbar := by
  intro s out n k ch inp id cell r q w bad lost
  refine ⟨fun h chosen refused => ?_, ⟨fun charge => ?_, fun found => exec_crossbarGrant_req found, exec_crossbarGrant_rsp⟩,
    ⟨fun room spilled idle space calm free => exec_spillReturn room spilled idle space calm free,
      fun due late => exec_spillReturnFilled due late⟩,
    fun free => ⟨(exec_tagAdmit free).1 q, (exec_tagAdmit free).2 r⟩⟩
  · rw [exec_crossbarGrant chosen, if_neg (Bool.eq_false_iff.mp refused)]
  · subst charge
    refine ⟨fun body chosen accepted => ?_, fun tag a qp d body chosen accepted => ?_, fun p a d body chosen accepted => ?_,
      fun h l keep body out' chosen accepted => ?_, fun body chosen accepted => ?_, fun pbr p c m body up chosen accepted => ?_⟩
    · exact (exec_crossbarGrant_cell chosen accepted).trans (congrArg Host.Outcome.next (State.deliverCell_request body))
    · exact (exec_crossbarGrant_cell chosen accepted).trans (congrArg Host.Outcome.next (State.deliverCell_doorbell body))
    · exact (exec_crossbarGrant_cell chosen accepted).trans (congrArg Host.Outcome.next (State.deliverCell_answer body))
    · exact (exec_crossbarGrant_cell chosen accepted).trans (congrArg Host.Outcome.next (State.deliverCell_birsp body out'))
    · exact (exec_crossbarGrant_cell chosen accepted).trans (congrArg Host.Outcome.next (State.deliverCell_part body))
    · exact (exec_crossbarGrant_cell chosen accepted).trans (congrArg Host.Outcome.next (State.deliverCell_transit body up))

end Sys2Proof.Machine
end

section
/-!
PROOFS. The frames of an optical link (R408 to R410): what a receiver takes from the frame a transmitter sends is the flits it was
given, in order, over whichever fibres the codewords come.
-/
namespace Sys2Proof.Machine

/-! ### Lists cut into pieces of one length -/

theorem length_pieces {α : Type} {L : Nat} (f : Nat → List α) (n : Nat) (lengths : ∀ i < n, (f i).length = L) :
    ((List.range n).flatMap f).length = L * n := by
  induction n with
  | zero => rfl
  | succ n ih =>
    rw [List.range_succ, List.flatMap_append, List.flatMap_singleton, List.length_append, lengths n (Nat.lt_succ_self n),
      ih fun i small => lengths i (Nat.lt_succ_of_lt small), Nat.mul_succ]

/-- The `k`th of some pieces of one length that were put together. -/
theorem piece_of_flatMap {α : Type} {L : Nat} (f : Nat → List α) (n k : Nat) (within : k < n)
    (lengths : ∀ i < n, (f i).length = L) : (((List.range n).flatMap f).drop (L * k)).take L = f k := by
  induction n with
  | zero => exact absurd within (Nat.not_lt_zero k)
  | succ n ih =>
    have total : ((List.range n).flatMap f).length = L * n :=
      length_pieces f n fun i small => lengths i (Nat.lt_succ_of_lt small)
    rw [List.range_succ, List.flatMap_append, List.flatMap_singleton]
    rcases Nat.lt_succ_iff_lt_or_eq.mp within with before | last
    · have room : L * k + L ≤ L * n := by
        rw [← Nat.mul_succ]
        exact Nat.mul_le_mul_left L before
      rw [List.drop_append_of_le_length (by omega), List.take_append_of_le_length (by rw [List.length_drop, total]; omega)]
      exact ih before fun i small => lengths i (Nat.lt_succ_of_lt small)
    · subst last
      rw [List.drop_append, total, Nat.sub_self, List.drop_zero, List.drop_of_length_le (Nat.le_of_eq total), List.nil_append,
        List.take_of_length_le (Nat.le_of_eq (lengths k (Nat.lt_succ_self k)))]

/-- A list is its pieces put together. -/
theorem flatMap_pieces {α : Type} (L n : Nat) (p : List α) (length : p.length = L * n) :
    ((List.range n).flatMap fun j => (p.drop (L * j)).take L) = p := by
  induction n generalizing p with
  | zero =>
    rw [Nat.mul_zero] at length
    rw [List.eq_nil_of_length_eq_zero length]
    rfl
  | succ n ih =>
    have rest := ih (p.drop L) (by rw [List.length_drop, length, Nat.mul_succ]; omega)
    rw [List.range_succ_eq_map, List.flatMap_cons, List.flatMap_map, Nat.mul_zero, List.drop_zero]
    simp only [List.drop_drop] at rest
    simp only [Nat.mul_succ, Nat.add_comm _ L]
    rw [rest, List.take_append_drop]

/-! ### Striping (R409) -/

theorem laneOf_length {w : Nat} {payload : List Byte} (length : payload.length = 8 * (80 * w)) {i k : Nat} (lane : i < w)
    (word : k < 80) : ((payload.drop (8 * (k * w + i))).take 8).length = 8 := by
  have inside : k * w + i + 1 ≤ 80 * w := by
    have := Nat.mul_le_mul_right w (Nat.succ_le_of_lt word)
    rw [Nat.succ_mul] at this
    omega
  rw [List.length_take, List.length_drop, length]
  omega

theorem word_of_laneOf {w : Nat} {payload : List Byte} (length : payload.length = 8 * (80 * w)) {i k : Nat} (lane : i < w)
    (word : k < 80) : ((laneOf w payload i).drop (8 * k)).take 8 = (payload.drop (8 * (k * w + i))).take 8 :=
  piece_of_flatMap (fun k => (payload.drop (8 * (k * w + i))).take 8) 80 k word fun _ small => laneOf_length length lane small

theorem lane_of_header {i fseq : Nat} (small : i < 16) (payload : List Byte) :
    (⟨BitVec.ofNat 20 (i * 2 ^ 16 + fseq % 64 * 2 ^ 10 + 0 * 2 ^ 8), payload⟩ : Codeword).lane = i := by
  rw [Codeword.lane, BitVec.toNat_ofNat, bitsOf]
  omega

/-- The codewords of a data frame in any order: lane `i` is placed where its LANE field says. -/
theorem placed_of_perm {w fseq : Nat} {payload : List Byte} {cs : List Codeword} (width : w ≤ 16)
    (sent : cs.Perm (stripe w fseq 0 payload)) {i : Nat} (lane : i < w) : placed cs i = laneOf w payload i := by
  have lanes : ∀ c ∈ cs, c.payload = laneOf w payload c.lane ∧ c.lane < w := by
    intro c member
    obtain ⟨j, listed, made⟩ := List.mem_map.mp (sent.mem_iff.mp member)
    have small := List.mem_range.mp listed
    rw [← made, lane_of_header (by omega)]
    exact ⟨rfl, small⟩
  have present : ∃ c ∈ cs, c.lane = i := by
    refine ⟨_, sent.mem_iff.mpr (List.mem_map.mpr ⟨i, List.mem_range.mpr lane, rfl⟩), lane_of_header (by omega) _⟩
  unfold placed
  cases found : cs.find? (fun c => decide (c.lane = i)) with
  | none =>
    obtain ⟨c, member, same⟩ := present
    exact absurd (decide_eq_true same) (List.find?_eq_none.mp found c member)
  | some c =>
    have same := List.find?_some found
    exact (lanes c (List.mem_of_find?_eq_some found)).1.trans (congrArg (laneOf w payload) (of_decide_eq_true same))

theorem wholeFrame_of_perm {w fseq : Nat} {payload : List Byte} {cs : List Codeword} (width : w ≤ 16)
    (sent : cs.Perm (stripe w fseq 0 payload)) : wholeFrame w cs = true := by
  have length : cs.length = w := by
    rw [sent.length_eq, stripe, List.length_map, List.length_range]
  rw [wholeFrame, decide_eq_true length, Bool.true_and, List.all_eq_true]
  intro i member
  have lane := List.mem_range.mp member
  exact List.any_eq_true.mpr ⟨_, sent.mem_iff.mpr (List.mem_map.mpr ⟨i, member, rfl⟩), decide_eq_true (lane_of_header (by omega) _)⟩

/-- The payload comes back from the codewords of its frame. -/
theorem unstripe_of_perm {w fseq : Nat} {payload : List Byte} {cs : List Codeword} (some' : 0 < w) (width : w ≤ 16)
    (length : payload.length = 8 * (80 * w)) (sent : cs.Perm (stripe w fseq 0 payload)) : unstripe w cs = payload := by
  refine Eq.trans ?_ (flatMap_pieces 8 (80 * w) payload length)
  rw [unstripe, List.flatMap_def, List.flatMap_def]
  refine congrArg List.flatten (List.map_congr_left fun j member => ?_)
  have word : j / w < 80 := (Nat.div_lt_iff_lt_mul some').mpr (List.mem_range.mp member)
  rw [placed_of_perm width sent (Nat.mod_lt j some'), word_of_laneOf length (Nat.mod_lt j some') word, Nat.div_add_mod']

/-! ### Slots (R410) -/

theorem idleBytes_length : idleBytes.length = 256 := by
  rw [idleBytes, List.length_map, List.length_range]

/-- What is left of a number of slots without the IDLE flits. -/
theorem filter_slots {α : Type} [DecidableEq α] (k : Nat) (l : List α) (idle : α) (real : ∀ f ∈ l, f ≠ idle) :
    ((List.range k).map (fun i => l.getD i idle)).filter (fun f => decide (f ≠ idle)) = l.take k := by
  induction k generalizing l with
  | zero => rfl
  | succ k ih =>
    rw [List.range_succ_eq_map, List.map_cons, List.map_map]
    cases l with
    | nil =>
      have rest := ih [] real
      rw [List.take_nil] at rest ⊢
      rw [List.filter_cons, if_neg (by simp)]
      exact rest
    | cons a r =>
      rw [List.getD_cons_zero, List.filter_cons, if_pos (decide_eq_true (real a List.mem_cons_self)), List.take_succ_cons]
      exact congrArg (a :: ·) (ih r fun f member => real f (List.mem_cons_of_mem a member))

/-- A receiver takes from a frame the flits its slots were given (R408 to R410). -/
theorem receiveFrame_of_sent {w fseq : Nat} {flits : List (List Byte)} {cs : List Codeword} (width : w ∈ [2, 4, 8, 16])
    (ready : flits ≠ []) (real : ∀ f ∈ flits, f.length = 256 ∧ f ≠ idleBytes) (sent : cs.Perm (sendFrame w fseq flits).1) :
    receiveFrame w cs [] = flits.take (slotCount w) ∧ (sendFrame w fseq flits).2 = flits.drop (slotCount w) := by
  have sends : sendFrame w fseq flits = (stripe w fseq 0 ((List.range (slotCount w)).flatMap (fun i => flits.getD i idleBytes)),
      flits.drop (slotCount w)) := by
    rw [sendFrame, if_neg (by rw [List.isEmpty_iff]; exact ready)]
  have slots : 256 * slotCount w = 8 * (80 * w) ∧ 0 < w ∧ w ≤ 16 := by
    rw [slotCount]
    simp only [List.mem_cons, List.not_mem_nil, or_false] at width
    omega
  have lengths : ∀ i < slotCount w, (flits.getD i idleBytes).length = 256 := by
    intro i _
    rw [List.getD_eq_getElem?_getD]
    cases found : flits[i]? with
    | none => exact idleBytes_length
    | some f => exact (real f (List.mem_of_getElem? found)).1
  have length : ((List.range (slotCount w)).flatMap (fun i => flits.getD i idleBytes)).length = 8 * (80 * w) :=
    (length_pieces _ _ lengths).trans slots.1
  rw [sends] at sent ⊢
  refine ⟨?_, rfl⟩
  have slotsAll : (List.range (slotCount w)).filter (fun k => !([] : List Nat).contains k) = List.range (slotCount w) :=
    List.filter_eq_self.mpr fun _ _ => rfl
  rw [receiveFrame, if_pos (wholeFrame_of_perm slots.2.2 sent), unstripe_of_perm slots.2.1 slots.2.2 length sent, flitsOf,
    slotsAll]
  have pieces : (List.range (slotCount w)).map (slotBytes ((List.range (slotCount w)).flatMap (fun i => flits.getD i idleBytes))) =
      (List.range (slotCount w)).map (fun i => flits.getD i idleBytes) :=
    List.map_congr_left fun i member =>
      piece_of_flatMap (fun i => flits.getD i idleBytes) _ i (List.mem_range.mp member) lengths
  rw [pieces]
  exact filter_slots _ flits idleBytes fun f member => (real f member).2

end Sys2Proof.Machine
end

section
/-! PROOFS. Frames, training and loss of the optical link (R408 to R424). -/
namespace Sys2Proof.Machine

/-! ### Ports in ACTIVE -/

theorem State.portState_of_active {s : State} {n : Nat} (active : s.active n = true) : s.portState n = 6 :=
  beq_iff_eq.mp (Bool.and_eq_true_iff.mp active).2

theorem State.trigger_of_active {s : State} {n : Nat} (active : s.active n = true) (st : Nat) (c : Cause) :
    s.trigger n st c = s.leaveActive n st c :=
  if_pos active

/-- A trigger of R416 on a port that is not in ACTIVE and left it in no other way in this cycle changes nothing. -/
theorem State.trigger_of_inactive {s : State} {n : Nat} (inactive : s.active n = false)
    (earlier : kvGet? s.link.exits n ≠ some s.now) (st : Nat) (c : Cause) : s.trigger n st c = s := by
  rw [State.trigger, if_neg (Bool.eq_false_iff.mp inactive), decide_eq_false earlier]
  rfl

/-! ### Frames in ACTIVE (R408 to R412) -/

theorem exec_dataFrame {s : State} {n : Nat} (active : s.active n = true) (words : List Codeword) (errors bad : List Nat) :
    exec (.dataFrame n words errors bad) s = .next (
      if errors.any (fun e => decide (maxCorrected < e)) then
        ((s.countCorrected n errors).fsat Reg.LINK_PORT_ERR_UNCORR [n] 1).emit (.retry n [])
      else if words.any (fun c => decide (c.lcw = 1)) || words.any (fun c => decide (c.type = 2)) then
        (s.countCorrected n errors).leaveActive n 2 .peer
      else if (words.headD ⟨0, []⟩).type = 0 then (s.countCorrected n errors).takeFrame n words bad
      else s.countCorrected n errors) := by
  show execDataFrame n words errors bad s = _
  unfold execDataFrame
  rw [active]
  rfl

theorem exec_dataFrame_uncorrectable {s : State} {n : Nat} (active : s.active n = true) {words : List Codeword}
    {errors bad : List Nat} (lost : ∃ e ∈ errors, 15 < e) :
    exec (.dataFrame n words errors bad) s =
      .next (((s.countCorrected n errors).fsat Reg.LINK_PORT_ERR_UNCORR [n] 1).emit (.retry n [])) := by
  obtain ⟨e, member, large⟩ := lost
  exact (exec_dataFrame active words errors bad).trans
    (congrArg Host.Outcome.next (if_pos (List.any_eq_true.mpr ⟨e, member, decide_eq_true large⟩)))

theorem no_uncorrectable {errors : List Nat} (decoded : ∀ e ∈ errors, e ≤ 15) :
    ¬errors.any (fun e => decide (maxCorrected < e)) = true := by
  intro any
  obtain ⟨e, member, large⟩ := List.any_eq_true.mp any
  exact absurd (of_decide_eq_true large) (Nat.not_lt.mpr (decoded e member))

theorem exec_dataFrame_training {s : State} {n : Nat} (active : s.active n = true) {words : List Codeword}
    {errors bad : List Nat} (decoded : ∀ e ∈ errors, e ≤ 15) (trains : ∃ x ∈ words, x.lcw = 1 ∨ x.type = 2) :
    exec (.dataFrame n words errors bad) s = .next ((s.countCorrected n errors).leaveActive n 2 .peer) := by
  have found : (words.any (fun c => decide (c.lcw = 1)) || words.any (fun c => decide (c.type = 2))) = true := by
    obtain ⟨x, member, dark | train⟩ := trains
    · exact Bool.or_eq_true_iff.mpr (.inl (List.any_eq_true.mpr ⟨x, member, decide_eq_true dark⟩))
    · exact Bool.or_eq_true_iff.mpr (.inr (List.any_eq_true.mpr ⟨x, member, decide_eq_true train⟩))
  exact (exec_dataFrame active words errors bad).trans
    (congrArg Host.Outcome.next ((if_neg (no_uncorrectable decoded)).trans (if_pos found)))

theorem exec_dataFrame_data {s : State} {n : Nat} (active : s.active n = true) {words : List Codeword}
    {errors bad : List Nat} (decoded : ∀ e ∈ errors, e ≤ 15) (plain : ∀ x ∈ words, x.lcw ≠ 1 ∧ x.type ≠ 2)
    (data : (words.headD ⟨0, []⟩).type = 0) :
    exec (.dataFrame n words errors bad) s = .next ((s.countCorrected n errors).takeFrame n words bad) := by
  have absent : ¬(words.any (fun c => decide (c.lcw = 1)) || words.any (fun c => decide (c.type = 2))) = true := by
    rw [Bool.or_eq_true_iff, List.any_eq_true, List.any_eq_true]
    rintro (⟨x, member, dark⟩ | ⟨x, member, train⟩)
    · exact (plain x member).1 (of_decide_eq_true dark)
    · exact (plain x member).2 (of_decide_eq_true train)
  exact (exec_dataFrame active words errors bad).trans
    (congrArg Host.Outcome.next ((if_neg (no_uncorrectable decoded)).trans ((if_neg absent).trans (if_pos data))))

theorem State.askAgain_eq (s : State) (n : Nat) (fails : List Nat) :
    s.askAgain n fails = if fails = [] then s else s.emit (.retry n fails) := by
  cases fails with
  | nil => rfl
  | cons k rest => rfl

/-! ### What takes a port out of ACTIVE (R416, R421, R422, R424) -/

theorem exec_lossOfLight {s : State} {n : Nat} (active : s.active n = true) (live : s.livePort n = true) :
    exec (.lossOfLight n) s = .next (s.leaveActive n 2 .los) :=
  congrArg Host.Outcome.next ((if_pos live).trans (s.trigger_of_active active 2 .los))

theorem exec_darkReceived {s : State} {n : Nat} (active : s.active n = true) (live : s.livePort n = true) :
    exec (.darkReceived n) s = .next (s.leaveActive n 2 .peer) :=
  congrArg Host.Outcome.next ((if_pos live).trans (s.trigger_of_active active 2 .peer))

theorem exec_uncorrLimit {s : State} {n k : Nat} (active : s.active n = true) (live : s.livePort n = true)
    (beyond : max 1 (s.fget Reg.LINK_CFG_UNC_MAX []) < k) :
    exec (.uncorrLimit ⟨n, k⟩) s = .next (s.leaveActive n 2 .uncorr) :=
  congrArg Host.Outcome.next ((if_pos (Bool.and_eq_true_iff.mpr ⟨live, decide_eq_true beyond⟩)).trans
    (s.trigger_of_active active 2 .uncorr))

theorem exec_p1Entry {s : State} {n : Nat} (active : s.active n = true) (timed : s.fget Reg.LINK_CFG_IDLE_T [] ≠ 0)
    (free : s.fget Reg.LINK_PORT_CTRL_PSTATE_REQ [n] ≠ 1) (awake : s.fget Reg.LINK_PORT_STAT_PSTATE [n] = 0) :
    exec (.p1Entry n) s = .next (s.fset Reg.LINK_PORT_STAT_PSTATE [n] 1) := by
  show execP1Entry n s = _
  unfold execP1Entry
  rw [active, decide_eq_true timed, decide_eq_true free, decide_eq_true awake]
  rfl

theorem exec_p1Exit {s : State} {n : Nat} (active : s.active n = true) (asleep : s.fget Reg.LINK_PORT_STAT_PSTATE [n] = 1) :
    exec (.p1Exit n) s = .next (s.fset Reg.LINK_PORT_STAT_PSTATE [n] 0) :=
  congrArg Host.Outcome.next (if_pos (Bool.and_eq_true_iff.mpr ⟨active, decide_eq_true asleep⟩))

theorem exec_laserLow {s : State} {f v : Nat} (fibre : f < 64) (low : v < 10 * s.fget Reg.LINK_CFG_LASER_MIN []) :
    exec (.laserLow f v) s = .next (((List.range 256).filter (fun n => s.livePort n && (s.fibresOf n).contains f)).foldl
      (fun (t : State) n => t.trigger n 1 .laser)
      ((s.setLaser f v).modLink (fun l => { l with dim := setIns l.dim f }))) := by
  show execLaserLow f v s = _
  unfold execLaserLow
  rw [decide_eq_false (Nat.not_le.mpr fibre), decide_eq_false (Nat.not_le.mpr low)]
  rfl

theorem exec_laserRestored {s : State} {f v : Nat} (fibre : f < 64) (good : 10 * s.fget Reg.LINK_CFG_LASER_MIN [] ≤ v) :
    exec (.laserRestored f v) s = .next ((s.setLaser f v).modLink (fun l => { l with dim := setDel l.dim f })) := by
  show execLaserRestored f v s = _
  unfold execLaserRestored
  rw [decide_eq_false (Nat.not_le.mpr fibre), decide_eq_false (Nat.not_lt.mpr good)]
  rfl

/-! ### Training (R414, R415) -/

/-- What a training frame tells of the partner: its bound width, 4 for a version other than 1, and its receive locks. -/
def State.heard (s : State) (n width lock version : Nat) : State :=
  s.modLink (fun l => { l with partner := kvSet l.partner n (if version = 1 then width % 4 else 4, lock % 2 ^ 16) })

theorem exec_trainingFrame {s : State} {n : Nat} (live : s.livePort n = true) (w lock v : Nat) (bad : Bool) :
    exec (.trainingFrame n w lock v bad) s = .next (
      if s.portState n = 5 ∧ bad = true then (s.heard n w lock v).failTraining n .map else (s.heard n w lock v).trigger n 2 .peer) := by
  show execTrainingFrame n w lock v bad s = _
  unfold execTrainingFrame
  rw [live]
  rfl

theorem exec_trainingFrame_active {s : State} {n : Nat} (live : s.livePort n = true) (active : s.active n = true)
    (w lock v : Nat) (bad : Bool) :
    exec (.trainingFrame n w lock v bad) s = .next ((s.heard n w lock v).leaveActive n 2 .peer) := by
  have elsewhere : ¬(s.portState n = 5 ∧ bad = true) := by
    rw [s.portState_of_active active]
    exact fun negotiating => absurd negotiating.1 (by decide)
  exact (exec_trainingFrame live w lock v bad).trans (congrArg Host.Outcome.next ((if_neg elsewhere).trans
    (State.trigger_of_active (s := s.heard n w lock v) active 2 .peer)))

theorem exec_trainingFrame_kept {s : State} {n : Nat} (live : s.livePort n = true) {bad : Bool} (inactive : s.active n = false)
    (earlier : kvGet? s.link.exits n ≠ some s.now) (ordinary : s.portState n ≠ 5 ∨ bad = false) (w lock v : Nat) :
    exec (.trainingFrame n w lock v bad) s = .next (s.heard n w lock v) := by
  have legal : ¬(s.portState n = 5 ∧ bad = true) := by
    rintro ⟨negotiating, wrong⟩
    cases ordinary with
    | inl other => exact other negotiating
    | inr right => exact Bool.false_ne_true (right.symm.trans wrong)
  exact (exec_trainingFrame live w lock v bad).trans (congrArg Host.Outcome.next ((if_neg legal).trans
    (State.trigger_of_inactive (s := s.heard n w lock v) inactive earlier 2 .peer)))

theorem exec_trainingRestart {s : State} {n : Nat} (live : s.livePort n = true) (failed : s.link.failed.contains n = true) :
    exec (.trainingRestart n) s = .next ((s.setPort n 1).modLink (fun l => { l with
      failed := setDel l.failed n
      partner := kvDel l.partner n })) :=
  congrArg Host.Outcome.next (if_pos (Bool.and_eq_true_iff.mpr ⟨failed, live⟩))

section
variable {s : State} {n : Nat} (live : s.livePort n = true)
include live

theorem exec_trainingTimeout_los (waits : s.portState n = 2 ∨ s.portState n = 3) :
    exec (.trainingTimeout n) s = .next (s.failTraining n .los) := by
  show execTrainingTimeout n s = _
  unfold execTrainingTimeout
  cases waits with
  | inl light => rw [live, light]; rfl
  | inr lock => rw [live, lock]; rfl

theorem exec_trainingTimeout_skew (aligning : s.portState n = 4) :
    exec (.trainingTimeout n) s = .next (s.failTraining n .skew) := by
  show execTrainingTimeout n s = _
  unfold execTrainingTimeout
  rw [live, aligning]
  rfl

theorem exec_trainingTimeout_width (negotiating : s.portState n = 5) :
    exec (.trainingTimeout n) s = .next (s.failTraining n .width) := by
  show execTrainingTimeout n s = _
  unfold execTrainingTimeout
  rw [live, negotiating]
  rfl

variable (sound : s.link.failed.contains n = false)
include sound

theorem exec_trainingStateEnd_detect {lock : Nat} (detecting : s.portState n = 1)
    (lit : ∀ g ∈ s.fibresOf n, s.link.dim.contains g = false) (lanes : 2 ≤ popCount lock) :
    exec (.trainingStateEnd n lock) s = .next (s.setPort n 2) := by
  have bright : (s.fibresOf n).any (fun f => s.link.dim.contains f) = false := by
    rw [List.any_eq_false]
    exact fun g member => Bool.eq_false_iff.mp (lit g member)
  show execTrainingStateEnd n lock s = _
  unfold execTrainingStateEnd
  rw [live, sound, detecting, bright, decide_eq_false (Nat.not_lt.mpr lanes)]
  rfl

theorem exec_trainingStateEnd_light (lock : Nat) (state : s.portState n = 2) :
    exec (.trainingStateEnd n lock) s = .next (s.setPort n 3) := by
  show execTrainingStateEnd n lock s = _
  unfold execTrainingStateEnd
  rw [live, sound, state]
  rfl

theorem exec_trainingStateEnd_align (lock : Nat) (state : s.portState n = 3) :
    exec (.trainingStateEnd n lock) s = .next ((s.setPort n 4).fset Reg.LINK_PORT_STAT_LANE_LOCK [n] lock) := by
  show execTrainingStateEnd n lock s = _
  unfold execTrainingStateEnd
  rw [live, sound, state]
  rfl

theorem exec_trainingStateEnd_deskew (lock : Nat) (state : s.portState n = 4) :
    exec (.trainingStateEnd n lock) s = .next (s.setPort n 5) := by
  show execTrainingStateEnd n lock s = _
  unfold execTrainingStateEnd
  rw [live, sound, state]
  rfl

/-- The width of R414 that the two ends of a link agree on, where there is one. -/
def State.agreedWidth (s : State) (n w theirs : Nat) : Option Nat :=
  trainedWidth (s.fget Reg.LINK_PORT_CFG_WIDTH [n]) w (s.fget Reg.LINK_PORT_STAT_LANE_LOCK [n]) theirs
    (s.fget Reg.LINK_PORT_CFG_FALLBACK [n] == 1)

theorem exec_trainingStateEnd_negotiate (lock : Nat) {w theirs : Nat} (state : s.portState n = 5)
    (heard : kvGet? s.link.partner n = some (w, theirs)) (known : w < 4) :
    exec (.trainingStateEnd n lock) s =
      .next ((s.agreedWidth n w theirs).elim (s.failTraining n .width) (s.enterActive n)) := by
  show execTrainingStateEnd n lock s = _
  unfold execTrainingStateEnd
  rw [live, sound, state, heard]
  dsimp only
  rw [if_neg (Nat.not_le.mpr known)]
  unfold State.agreedWidth
  cases trainedWidth (s.fget Reg.LINK_PORT_CFG_WIDTH [n]) w (s.fget Reg.LINK_PORT_STAT_LANE_LOCK [n]) theirs
    (s.fget Reg.LINK_PORT_CFG_FALLBACK [n] == 1) with
  | none => rfl
  | some c => rfl

end

/-- Settles O42: frames by `receiveFrame_of_sent` and the branches of `execDataFrame`; training and loss state by state. -/
theorem linkTraining : Obligations.LinkTraining := by
  unfold Obligations.LinkTraining
  refine ⟨fun w fseq flits cs width ready real sent => receiveFrame_of_sent width ready real sent, ?_⟩
  intro s n lock w k v f c words errors slots bad
  refine ⟨fun active => ⟨⟨?_, ?_⟩, ?_, ?_, ?_⟩, ?_, ?_⟩
  · exact fun lost => exec_dataFrame_uncorrectable active lost
  · refine fun decoded => ⟨fun trains => exec_dataFrame_training active decoded trains, ?_⟩
    intro plain x xs words_eq data
    refine (exec_dataFrame_data active decoded plain ?_).trans ?_
    · rw [words_eq]; exact data
    · subst words_eq
      exact congrArg Host.Outcome.next (State.askAgain_eq _ n _)
  · exact fun live => ⟨exec_lossOfLight active live, exec_uncorrLimit active live, exec_darkReceived active live⟩
  · exact exec_p1Entry active
  · exact exec_p1Exit active
  · exact fun fibre => ⟨exec_laserLow fibre, exec_laserRestored fibre⟩
  · refine fun live => ⟨⟨?_, ?_, ?_⟩, exec_trainingRestart live, fun sound => ⟨⟨?_, ?_, ?_, ?_, ?_⟩, ?_, ?_, ?_⟩⟩
    · exact fun active => exec_trainingFrame_active live active w lock v bad
    · exact fun negotiating wrong => (exec_trainingFrame live w lock v bad).trans
        (congrArg Host.Outcome.next (if_pos ⟨negotiating, wrong⟩))
    · exact fun inactive earlier ordinary => exec_trainingFrame_kept live inactive earlier ordinary w lock v
    · exact exec_trainingStateEnd_detect live sound
    · exact exec_trainingStateEnd_light live sound lock
    · exact exec_trainingStateEnd_align live sound lock
    · exact exec_trainingStateEnd_deskew live sound lock
    · intro state theirs heard known
      have ends := exec_trainingStateEnd_negotiate live sound lock state heard known
      refine ⟨fun width => ends.trans ?_, fun width => ends.trans ?_⟩
      · rw [show s.agreedWidth n w theirs = some c from width]; rfl
      · rw [show s.agreedWidth n w theirs = none from width]; rfl
    · exact exec_trainingTimeout_los live
    · exact exec_trainingTimeout_skew live
    · exact exec_trainingTimeout_width live

end Sys2Proof.Machine
end

section
/-! PROOFS. Keys, loss and presence of links, and the pilot link (R390 to R405, R418, R425, R426). -/
namespace Sys2Proof.Machine

/-! ### Key management of a link (R390 to R392, R462) -/

/-- Whether the partner of a link may be keyed: no anchor is named, it is one of those named, or the device only answers. -/
def State.anchored (s : State) (n : Nat) (root : BitVec 512) : Bool :=
  s.anchors.isEmpty || s.anchors.contains root || !s.ideRequester n

theorem State.anchored_iff (s : State) (n : Nat) (root : BitVec 512) :
    s.anchored n root = true ↔ s.anchors = [] ∨ s.anchors.contains root = true ∨ s.ideRequester n = false := by
  rw [State.anchored, Bool.or_eq_true_iff, Bool.or_eq_true_iff, List.isEmpty_iff, Bool.not_eq_true', or_assoc]

theorem exec_ideKeyManagement_anchored {s : State} {n : Nat} {root : BitVec 512} (known : s.anchored n root = true) :
    exec (.ideKeyManagement n root) s = .next (
      if n = 256 then
        if s.fget Reg.LINK_PILOT_STAT_CXL_UP [] = 1 then s.fset Reg.LINK_PILOT_STAT_IDE_STATE [] 2 else s
      else if s.active n && decide (s.fget Reg.LINK_IDE_STAT_STATE [n] = 1) then
        (s.fset Reg.LINK_IDE_STAT_STATE [n] 2).fset Reg.LINK_IDE_STAT_REQUESTER [n] (bit01 (s.ideRequester n))
      else s) := by
  refine congrArg Host.Outcome.next (if_neg ?_)
  rw [show (s.anchors.isEmpty || s.anchors.contains root || !s.ideRequester n) = true from known]
  exact Bool.false_ne_true

theorem exec_ideKeyManagement_unknown {s : State} {n : Nat} {root : BitVec 512} (unknown : s.anchored n root = false) :
    exec (.ideKeyManagement n root) s = .next s := by
  refine congrArg Host.Outcome.next (if_pos ?_)
  rw [show (s.anchors.isEmpty || s.anchors.contains root || !s.ideRequester n) = false from unknown]
  rfl

theorem exec_ideKeyManagement_port {s : State} {n : Nat} {root : BitVec 512} (known : s.anchored n root = true)
    (port : n < 256) (active : s.active n = true) (keying : s.fget Reg.LINK_IDE_STAT_STATE [n] = 1) :
    exec (.ideKeyManagement n root) s = .next
      ((s.fset Reg.LINK_IDE_STAT_STATE [n] 2).fset Reg.LINK_IDE_STAT_REQUESTER [n] (bit01 (s.ideRequester n))) :=
  (exec_ideKeyManagement_anchored known).trans (congrArg Host.Outcome.next
    ((if_neg (Nat.ne_of_lt port)).trans (if_pos (Bool.and_eq_true_iff.mpr ⟨active, decide_eq_true keying⟩))))

theorem exec_ideKeyManagement_pilot {s : State} {root : BitVec 512} (known : s.anchored 256 root = true)
    (up : s.fget Reg.LINK_PILOT_STAT_CXL_UP [] = 1) :
    exec (.ideKeyManagement 256 root) s = .next (s.fset Reg.LINK_PILOT_STAT_IDE_STATE [] 2) :=
  (exec_ideKeyManagement_anchored known).trans (congrArg Host.Outcome.next ((if_pos rfl).trans (if_pos up)))

theorem exec_ideKeyRefresh {s : State} {n : Nat} (port : n < 256) (secure : s.secure n = true) :
    exec (.ideKeyRefresh n) s =
      .next ((s.fset Reg.LINK_IDE_STAT_KEYSET [n] (1 - s.fget Reg.LINK_IDE_STAT_KEYSET [n])).fsat
        Reg.LINK_IDE_STAT_ROLLOVERS [n] 1) :=
  congrArg Host.Outcome.next (if_pos ⟨port, secure⟩)

/-! ### Failures of a stream, loss of a port or an engine (R392, R394, R418, R425) -/

theorem exec_ideIntegrityFailure_port {s : State} {n : Nat} (port : n < 256) (active : s.active n = true)
    (secure : s.secure n = true) :
    exec (.ideIntegrityFailure n) s = .next (
      let t := ((((s.fset Reg.LINK_IDE_STAT_STATE [n] 3).fsat Reg.LINK_IDE_STAT_MAC_FAILS [n] 1).linkRec stAccess 1 n).linkEvent
        n 64).leaveActive n 2 .ide
      match s.role n with
      | 1 => (t.crashAccel n).finishAccs
      | 2 => t.failPort n
      | 3 => t.rerouteParts n
      | _ => t) := by
  refine congrArg Host.Outcome.next ((if_neg (Nat.ne_of_lt port)).trans ((if_neg ?_).trans rfl))
  rw [active, secure]
  exact Bool.false_ne_true

theorem exec_ideIntegrityFailure_pilot {s : State} (keyed : s.fget Reg.LINK_PILOT_STAT_IDE_STATE [] = 2) :
    exec (.ideIntegrityFailure 256) s = .next ((s.fset Reg.LINK_PILOT_STAT_IDE_STATE [] 3).linkRec stAccess 1 256) :=
  congrArg Host.Outcome.next ((if_pos rfl).trans (if_pos keyed))

theorem exec_viralReceived {s : State} {n : Nat} (active : s.active n = true) :
    exec (.viralReceived n) s = .next (s.linkRec stAborted 3 n) :=
  congrArg Host.Outcome.next (if_pos (Bool.or_eq_true_iff.mpr (.inl active)))

theorem exec_portLost {s : State} {n : Nat} (away : s.link.away.contains n = true) (left' : s.portState n ≠ 6) :
    exec (.portLost n) s = .next (s.losePort n) :=
  congrArg Host.Outcome.next (if_pos (Bool.and_eq_true_iff.mpr ⟨away, decide_eq_true left'⟩))

theorem exec_oeLeavesService {s : State} {j fault : Nat} (fails : fault = 2 ∨ fault = 3) (engine : j < 32)
    (serves : bitAt j (s.fget Reg.GLB_UNIT_AVAIL_OE_IN_SERVICE []) = true) :
    exec (.oeLeavesService j fault) s = .next (((span (8 * j) (8 * j + 8)).filter (fun n => s.livePort n)).foldl
      (fun (t : State) n => (t.leaveActive n 0 .oe).losePort n)
      ((((s.fset Reg.GLB_UNIT_AVAIL_OE_IN_SERVICE [] (s.fget Reg.GLB_UNIT_AVAIL_OE_IN_SERVICE [] - 2 ^ j)).fset
        Reg.LINK_OE_STAT_IN_SERVICE [j] 0).fset Reg.LINK_OE_STAT_FAULT [j] fault).appendDev
        (Rec.noPart stAborted clsUnit 3 4 j 0 0 s.now))) := by
  refine congrArg Host.Outcome.next ((if_pos fails).trans (if_neg ?_))
  rintro (outside | down)
  · exact Nat.not_le.mpr engine outside
  · exact Bool.false_ne_true (down.symm.trans serves)

/-! ### Presence (R426, R542, R544) -/

/-- What the device notes of an arrival or a removal: presence, the plug count and the event of the fabric manager. -/
def State.plugged (s : State) (n : Nat) (arrive : Bool) : State :=
  let t := ((s.fset Reg.MGT_DISC_PRESENT [n] (bit01 arrive)).fsat Reg.MGT_DISC_PLUGS [n] 1).modLink
    (fun l => { l with anew := setDel l.anew n })
  { t with mgmt := { t.mgmt with events := t.mgmt.events ++ [(n, arrive)] } }

theorem exec_presenceChange_arrive {s : State} {n : Nat} (live : s.livePort n = true) (fresh : s.link.anew.contains n = true)
    (active : s.active n = true) (ordinary : s.role n ≠ 3) (cap : Nat) (fit : Bool) :
    exec (.presenceChange n true cap fit) s = .next (
      if s.role n = 2 then (s.plugged n true).admitTray n cap fit else (s.plugged n true).renewPort n) := by
  show execPresenceChange n true cap fit s = _
  unfold execPresenceChange
  rw [live, active, fresh, decide_eq_true ordinary]
  rfl

theorem exec_presenceChange_remove {s : State} {n : Nat} (live : s.livePort n = true)
    (there : s.fget Reg.MGT_DISC_PRESENT [n] = 1 ∨ s.role n = 3) (inactive : s.active n = false) (cap : Nat) (fit : Bool) :
    exec (.presenceChange n false cap fit) s = .next (
      if s.role n = 1 then ((s.plugged n false).crashAccel n).finishAccs else s.plugged n false) := by
  have present : (s.fget Reg.MGT_DISC_PRESENT [n] == 1 || decide (s.role n = 3)) = true := by
    rw [Bool.or_eq_true_iff, beq_iff_eq, decide_eq_true_iff]
    exact there
  show execPresenceChange n false cap fit s = _
  unfold execPresenceChange
  rw [live, inactive, present]
  rfl

/-! ### The pilot link (R401, R405) -/

/-- What LINK_PILOT_STAT shows of the pilot link. -/
def State.pilotLink (s : State) (width rate degraded up ide : Nat) : State :=
  ((((s.fset Reg.LINK_PILOT_STAT_WIDTH [] width).fset Reg.LINK_PILOT_STAT_RATE [] rate).fset
    Reg.LINK_PILOT_STAT_DEGRADED [] degraded).fset Reg.LINK_PILOT_STAT_CXL_UP [] up).fset Reg.LINK_PILOT_STAT_IDE_STATE [] ide

theorem bit01_or (p q : Prop) [Decidable p] [Decidable q] :
    bit01 (decide p || decide q) = if p ∨ q then 1 else 0 := by
  rw [← Bool.decide_or, bit01]
  exact ite_congr (propext decide_eq_true_iff) (fun _ => rfl) (fun _ => rfl)

theorem exec_pilotLinkTraining_up {s : State} (rails : s.railsDown = false) {w r : Nat} (width : w = 1 ∨ w = 2)
    (rate : r = 1 ∨ r = 2) :
    exec (.pilotLinkTraining w r true) s =
      .next ((s.pilotLink w r (if w < 2 ∨ r < 2 then 1 else 0) 1 1).emit (.ideStart 256)) := by
  refine congrArg Host.Outcome.next ((if_neg (Bool.eq_false_iff.mp rails)).trans ((if_pos ⟨width, rate, rfl⟩).trans ?_))
  rw [bit01_or]
  rfl

theorem exec_pilotLinkTraining_down {s : State} (rails : s.railsDown = false) {w r : Nat} {cxl : Bool}
    (unfit : ¬((w = 1 ∨ w = 2) ∧ (r = 1 ∨ r = 2) ∧ cxl = true)) :
    exec (.pilotLinkTraining w r cxl) s = .next (s.pilotLink 0 0 0 0 0) :=
  congrArg Host.Outcome.next ((if_neg (Bool.eq_false_iff.mp rails)).trans (if_neg unfit))

theorem exec_pilotD3hot {s : State} (ready : s.pilot.ready = true) (enter : Bool) :
    exec (.pilotD3hot enter) s = .next { s with pilot := { s.pilot with d3hot := enter } } :=
  congrArg Host.Outcome.next (if_pos ready)

theorem exec_pilotFlr {s : State} (ready : s.pilot.ready = true) :
    exec .pilotFlr s = .next { s with pilot := { s.pilot with d3hot := false, msix := [] } } :=
  congrArg Host.Outcome.next (if_pos ready)

/-- Settles O43, command by command. -/
theorem linkKeysLossAndPresence : Obligations.LinkKeysLossAndPresence := by
  unfold Obligations.LinkKeysLossAndPresence
  intro s n j fault w r cap root fit
  refine ⟨?_, ?_, exec_ideKeyRefresh, exec_ideIntegrityFailure_port, exec_ideIntegrityFailure_pilot, exec_viralReceived,
    exec_portLost, exec_oeLeavesService, ?_, ?_, ?_⟩
  · intro known
    have anchored := (s.anchored_iff n root).mpr known
    refine ⟨exec_ideKeyManagement_port anchored, ?_⟩
    rintro rfl
    exact exec_ideKeyManagement_pilot anchored
  · intro named unlisted requests
    refine exec_ideKeyManagement_unknown (Bool.eq_false_iff.mpr fun anchored => ?_)
    obtain empty | listed | answers := (s.anchored_iff n root).mp anchored
    · exact named empty
    · exact Bool.false_ne_true (unlisted.symm.trans listed)
    · exact Bool.false_ne_true (answers.symm.trans requests)
  · refine fun live => ⟨fun fresh active => ⟨fun tray => ?_, fun accel => ?_⟩, fun there inactive => ?_⟩
    · exact (exec_presenceChange_arrive live fresh active (by omega) cap fit).trans (congrArg Host.Outcome.next (if_pos tray))
    · exact (exec_presenceChange_arrive live fresh active (by omega) cap fit).trans
        (congrArg Host.Outcome.next (if_neg (by omega)))
    · exact exec_presenceChange_remove live there inactive cap fit
  · refine fun rails => ⟨exec_pilotLinkTraining_up rails, fun unfit => ?_, ?_⟩
    · refine exec_pilotLinkTraining_down rails ?_
      rintro ⟨width, rate, -⟩
      omega
    · exact exec_pilotLinkTraining_down rails fun fit => Bool.false_ne_true fit.2.2
  · exact fun ready => ⟨exec_pilotD3hot ready true, exec_pilotD3hot ready false, exec_pilotFlr ready⟩

end Sys2Proof.Machine
end

section
/-! PROOFS. Power sequencing and faults, clock stretch, temperature and the windows of power (R433 to R445, R450, R477). -/
namespace Sys2Proof.Machine

theorem bit01_decide (p : Prop) [Decidable p] : bit01 (decide p) = if p then 1 else 0 :=
  ite_congr (propext decide_eq_true_iff) (fun _ => rfl) (fun _ => rfl)

/-! ### Start-up (R433, R437) -/

/-- VIN as MGT_PWR_STAT shows it (R433, R450). -/
theorem State.showVin_eq (s : State) (vin : Nat) :
    s.showVin vin = (s.fset Reg.MGT_PWR_STAT_DERATED [] (if vin < 4600 then 1 else 0)).fset Reg.MGT_PWR_STAT_VIN [] vin := by
  rw [State.showVin, bit01_decide]

theorem exec_vinRise {s : State} {vin : Nat} (off : s.pwr.phase = .off) (enough : 4500 < vin) :
    exec (.vinRise vin) s = .next ((s.modPwr (fun w => { w with phase := .debounce })).showVin vin) :=
  congrArg Host.Outcome.next (if_pos ⟨off, enough⟩)

theorem exec_debounceEnd {s : State} (debounces : s.pwr.phase = .debounce) :
    exec .debounceEnd s = .next (s.modPwr (fun w => { w with phase := .bus })) :=
  congrArg Host.Outcome.next (if_pos debounces)

theorem exec_railGood_bus {s : State} (bus : s.pwr.phase = .bus) (mv cur pw : Nat) :
    exec (.railGood 48 mv cur pw) s = .next ((s.raiseRail 48 mv cur pw).modPwr (fun w => { w with phase := .aon })) := by
  show execRailGood 48 mv cur pw s = _
  unfold execRailGood
  rw [bus]
  rfl

theorem exec_railGood_aon {s : State} (aon : s.pwr.phase = .aon) (mv cur pw : Nat) :
    exec (.railGood 0 mv cur pw) s =
      .next ((s.raiseRail 0 mv cur pw).modPwr (fun w => { w with phase := .boot, pwrgd := true })) := by
  show execRailGood 0 mv cur pw s = _
  unfold execRailGood
  rw [aon]
  rfl

theorem exec_railGood_rails {s : State} {r : Nat} (ramping : s.pwr.phase = .rails)
    (member : (railGroup s.pwr.group).contains r = true) (low : s.railGood r = false) (free : s.tap.acted = false)
    (mv cur pw : Nat) :
    exec (.railGood r mv cur pw) s = .next (
      if (railGroup s.pwr.group).all (fun q => (s.raiseRail r mv cur pw).railGood q) then
        (s.raiseRail r mv cur pw).modPwr (fun w =>
          if w.group = 5 then { w with phase := .train } else { w with group := w.group + 1 })
      else s.raiseRail r mv cur pw) := by
  show execRailGood r mv cur pw s = _
  unfold execRailGood
  rw [ramping, member, low, free]
  rfl

/-! ### Faults of rails and supplies (R434, R437 to R439) -/

theorem State.holdOff_eq {s : State} (up : s.aonUp = true) (running : s.pwr.phase ≠ .heldOff) (cause rail sensor : Nat) :
    s.holdOff cause rail sensor = ((((s.dropRails .heldOff).modPwr (fun w => { w with
      thermtrip := decide (cause = 2) })).fset Reg.MGT_PWR_FAULT_CAUSE [] cause).fset Reg.MGT_PWR_FAULT_RAIL [] rail).fset
      Reg.MGT_PWR_FAULT_SENSOR [] sensor := by
  unfold State.holdOff
  rw [up, decide_eq_false running]
  rfl

theorem exec_railFault {s : State} {r : Nat} (rail : r < 49) : exec (.railFault r) s = .next (s.holdOff 1 r 0) :=
  congrArg Host.Outcome.next (if_pos rail)

theorem exec_ilimitTimeout {s : State} (limited : s.fget Reg.MGT_PWR_STAT_ILIMIT [] = 1) :
    exec .ilimitTimeout s = .next (s.holdOff 3 0 0) :=
  congrArg Host.Outcome.next (if_pos limited)

theorem exec_earlySupplyFault {s : State} (early : s.pwr.phase = .bus ∨ s.pwr.phase = .aon) :
    exec .earlySupplyFault s = .next ((s.powerDown .earlyFault).modPwr (fun w => { w with alert := true })) :=
  congrArg Host.Outcome.next (if_pos early)

theorem exec_vinOutOfRange {s : State} {vin : Nat} (on : s.pwr.phase ≠ .off) (settled : s.pwr.phase ≠ .debounce)
    (sound : s.pwr.phase ≠ .earlyFault) (outside : vin < 4400 ∨ 5800 < vin) :
    exec (.vinOutOfRange vin) s = .next (s.powerDown .off) := by
  refine congrArg Host.Outcome.next ((if_neg ?_).trans ((if_neg fun h => settled h.1).trans (if_neg fun h => sound h.1)))
  rintro (inside | off)
  · exact inside outside
  · exact on off

theorem exec_derated {s : State} {vin : Nat} (up : s.aonUp = true) (low : 4400 ≤ vin) (high : vin ≤ 5800) :
    exec (.derated vin) s = .next (s.showVin vin) := by
  refine congrArg Host.Outcome.next (if_pos ?_)
  rw [up, decide_eq_true low, decide_eq_true high]
  rfl

/-! ### Clock stretch and temperature (R441, R442, R445) -/

theorem exec_sagDetect {s : State} {x : Nat} (domain : x < 5) (rails : s.railsDown = false) {v : Nat} (sags : s.sagL1 ≤ v) :
    exec (.sagDetect x v) s = .next (s.setDemand x 0 (max (s.demand x 0) (if s.sagL2 ≤ v then 2 else 1))) := by
  refine congrArg Host.Outcome.next (if_neg ?_)
  rintro (outside | down | above)
  · exact Nat.not_le.mpr domain outside
  · exact Bool.false_ne_true (rails.symm.trans down)
  · exact Nat.not_lt.mpr sags above

theorem exec_thermalReading {s : State} {i v : Nat} (up : s.aonUp = true) (byte : v ≤ 255)
    (sensor : i < 6 ∨ i < 46 ∧ s.railsDown = false) : exec (.thermalReading i v) s = .next (s.thermal i v) := by
  have reads : (s.aonUp && decide (i < 46) && (decide (i < 6) || !s.railsDown)) = true := by
    rw [up, Bool.true_and, Bool.and_eq_true_iff, Bool.or_eq_true_iff, decide_eq_true_iff, decide_eq_true_iff, Bool.not_eq_true']
    cases sensor with
    | inl hub => exact ⟨by omega, .inl hub⟩
    | inr other => exact ⟨other.1, .inr other.2⟩
  refine congrArg Host.Outcome.next ((if_pos reads).trans ?_)
  rw [Nat.min_eq_left byte]

/-- The sensors of the Hub's domains demand stretch (R445). -/
theorem State.thermal_of_domain {s : State} {i v : Nat} (domain : i < 5) (below : v < 110) :
    s.thermal i v = if 102 ≤ v then (s.setTemp i v).setDemand i 1 2
      else if 95 ≤ v then (s.setTemp i v).setDemand i 1 (max 1 ((s.setTemp i v).demand i 1)) else s.setTemp i v := by
  unfold State.thermal
  dsimp only
  rw [if_neg (by omega), if_neg (by omega), if_pos domain]

theorem State.thermal_trips {s : State} {i v : Nat} (trips : i < 6 ∧ 110 ≤ v ∨ 6 ≤ i ∧ i < 14 ∧ 105 ≤ v) :
    s.thermal i v = (s.setTemp i v).holdOff 2 0 i := by
  unfold State.thermal
  dsimp only
  cases trips with
  | inl hub => exact if_pos hub
  | inr stack => exact (if_neg (by omega)).trans (if_pos stack)

theorem State.thermal_shows {s : State} {i v : Nat} (calm : i = 5 ∧ v < 110 ∨ 6 ≤ i ∧ i < 14 ∧ v < 105) :
    s.thermal i v = s.setTemp i v := by
  unfold State.thermal
  dsimp only
  rw [if_neg (by omega), if_neg (by omega), if_neg (by omega), if_neg (by omega)]

theorem State.thermal_of_engine {s : State} {i v : Nat} (engine : 14 ≤ i) :
    s.thermal i v =
      let u := (s.setTemp i v).modPwr (fun w => { w with
        hot := if 75 ≤ v then setIns w.hot (i - 14) else if v < 70 then setDel w.hot (i - 14) else w.hot })
      if 85 ≤ v then u.loseEngine (i - 14) 1 else u := by
  unfold State.thermal
  dsimp only
  rw [if_neg (by omega), if_neg (by omega), if_neg (by omega), if_pos engine]

/-! ### The power cap (R440, R450) -/

/-- The readings a power window leaves. -/
def State.metered (s : State) (vin iin pin : Nat) : State :=
  ((s.showVin vin).fset Reg.MGT_PWR_STAT_IIN [] iin).fset Reg.MGT_PWR_STAT_PIN [] pin

/-- The power cap at a demand `d`, after `windows` windows in a row above the limit at the deepest level. -/
def State.capped (s : State) (vin iin pin d windows : Nat) : State :=
  (((List.range 4).foldl (fun (t : State) x => t.setDemand x 2 d) (s.metered vin iin pin)).fset
    Reg.MGT_PWR_STAT_CAPPING [] (if 0 < d then 1 else 0)).modPwr (fun w => { w with
      overRun := windows
      capLimit := max 1000 (min 1800 (s.fget Reg.MGT_PWR_CTRL_PWR_LIMIT []))
      capEn := s.fget Reg.MGT_PWR_CTRL_CAP_EN [] == 1 })

/-- The demand of the power cap after a window (R440). -/
def State.capDemand (s : State) (avg : Nat) : Nat :=
  if !s.pwr.capEn then 0
  else if s.pwr.capLimit < avg then min 2 (s.demand 0 2 + 1)
  else if 100 * avg ≤ 95 * s.pwr.capLimit then s.demand 0 2 - 1 else s.demand 0 2

/-- The windows in a row above the limit at the deepest level (R440). -/
def State.capRun (s : State) (avg : Nat) : Nat :=
  if s.pwr.capEn && decide (s.pwr.capLimit < avg) && decide (s.demand 0 2 = 2) then s.pwr.overRun + 1 else 0

theorem exec_powerCapWindow {s : State} (rails : s.railsDown = false) (avg vin iin pin : Nat) :
    exec (.powerCapWindow avg vin iin pin) s = .next (
      let t := s.capped vin iin pin (s.capDemand avg) (s.capRun avg)
      if avg ≤ s.pwr.capLimit then t.fset Reg.MGT_PWR_STAT_OVER [] 0
      else if 10 ≤ s.capRun avg ∧ s.fget Reg.MGT_PWR_STAT_OVER [] = 0 then
        (t.fset Reg.MGT_PWR_STAT_OVER [] 1).appendDev (Rec.noPart stBusy clsCapacity 2 0 0 pin 0 s.now)
      else t) := by
  refine congrArg Host.Outcome.next ((if_neg (Bool.eq_false_iff.mp rails)).trans ?_)
  unfold State.capped
  rw [← bit01_decide]
  rfl

theorem State.capDemand_above {s : State} {avg : Nat} (capping : s.pwr.capEn = true) (above : s.pwr.capLimit < avg) :
    s.capDemand avg = min 2 (s.demand 0 2 + 1) := by
  rw [State.capDemand, capping]
  exact if_pos above

theorem State.capDemand_within {s : State} {avg : Nat} (capping : s.pwr.capEn = true) (within : avg ≤ s.pwr.capLimit) :
    s.capDemand avg = if 100 * avg ≤ 95 * s.pwr.capLimit then s.demand 0 2 - 1 else s.demand 0 2 := by
  rw [State.capDemand, capping]
  exact if_neg (Nat.not_lt.mpr within)

theorem State.capRun_deepest {s : State} {avg : Nat} (capping : s.pwr.capEn = true) (above : s.pwr.capLimit < avg)
    (deepest : s.demand 0 2 = 2) : s.capRun avg = s.pwr.overRun + 1 := by
  rw [State.capRun, capping, decide_eq_true above, decide_eq_true deepest]
  rfl

theorem State.capRun_shallower {s : State} {avg : Nat} (shallower : s.demand 0 2 < 2) : s.capRun avg = 0 := by
  rw [State.capRun, decide_eq_false (Nat.ne_of_lt shallower), Bool.and_false]
  rfl

section
variable {s : State} (rails : s.railsDown = false) (avg vin iin pin : Nat)
include rails

theorem exec_powerCapWindow_within (within : avg ≤ s.pwr.capLimit) :
    exec (.powerCapWindow avg vin iin pin) s =
      .next ((s.capped vin iin pin (s.capDemand avg) 0).fset Reg.MGT_PWR_STAT_OVER [] 0) := by
  have none' : s.capRun avg = 0 := by
    rw [State.capRun, decide_eq_false (Nat.not_lt.mpr within), Bool.and_false, Bool.false_and]
    rfl
  refine (exec_powerCapWindow rails avg vin iin pin).trans (congrArg Host.Outcome.next ((if_pos within).trans ?_))
  rw [none']

variable (capping : s.pwr.capEn = true) (above : s.pwr.capLimit < avg)
include capping above

theorem exec_powerCapWindow_above (quiet : s.capRun avg < 10) :
    exec (.powerCapWindow avg vin iin pin) s =
      .next (s.capped vin iin pin (min 2 (s.demand 0 2 + 1)) (s.capRun avg)) := by
  refine (exec_powerCapWindow rails avg vin iin pin).trans (congrArg Host.Outcome.next
    ((if_neg (Nat.not_le.mpr above)).trans ((if_neg fun h => Nat.not_le.mpr quiet h.1).trans ?_)))
  rw [State.capDemand_above capping above]

theorem exec_powerCapWindow_over (long : 10 ≤ s.capRun avg) (fresh : s.fget Reg.MGT_PWR_STAT_OVER [] = 0) :
    exec (.powerCapWindow avg vin iin pin) s = .next (((s.capped vin iin pin (min 2 (s.demand 0 2 + 1)) (s.capRun avg)).fset
      Reg.MGT_PWR_STAT_OVER [] 1).appendDev (Rec.noPart stBusy clsCapacity 2 0 0 pin 0 s.now)) := by
  refine (exec_powerCapWindow rails avg vin iin pin).trans (congrArg Host.Outcome.next
    ((if_neg (Nat.not_le.mpr above)).trans ((if_pos ⟨long, fresh⟩).trans ?_)))
  rw [State.capDemand_above capping above]

end

/-- Settles O44: start-up and faults phase by phase, stretch and temperature by the sensor, the cap by its demand. -/
theorem powerTemperatureAndClocks : Obligations.PowerTemperatureAndClocks := by
  unfold Obligations.PowerTemperatureAndClocks
  intro s r mv cur pw vin iin pin avg x i v raised shown
  have shows : ∀ t : State, t.showVin vin = shown t := fun t => t.showVin_eq vin
  refine ⟨?_, exec_debounceEnd, ?_, ?_, ?_, ?_, exec_earlySupplyFault, exec_vinOutOfRange, ?_, ?_, ?_, ?_, rfl⟩
  · exact fun off enough => (exec_vinRise off enough).trans (congrArg Host.Outcome.next (shows _))
  · rintro bus rfl
    exact exec_railGood_bus bus mv cur pw
  · rintro aon rfl
    exact exec_railGood_aon aon mv cur pw
  · intro ramping member low free
    have rises := exec_railGood_rails ramping member low free mv cur pw
    refine ⟨fun good => rises.trans (congrArg Host.Outcome.next (if_pos (List.all_eq_true.mpr good))), ?_⟩
    rintro ⟨q, listed, bad⟩
    refine rises.trans (congrArg Host.Outcome.next (if_neg fun good => ?_))
    exact Bool.false_ne_true (bad.symm.trans (List.all_eq_true.mp good q listed))
  · refine fun up running => ⟨fun rail => ?_, fun limited => ?_⟩
    · exact (exec_railFault rail).trans (congrArg Host.Outcome.next (s.holdOff_eq up running 1 r 0))
    · exact (exec_ilimitTimeout limited).trans (congrArg Host.Outcome.next (s.holdOff_eq up running 3 0 0))
  · refine fun up => ⟨fun low high => ?_, congrArg Host.Outcome.next (if_pos up), congrArg Host.Outcome.next (if_pos up)⟩
    exact (exec_derated up low high).trans (congrArg Host.Outcome.next (shows s))
  · refine fun domain => ⟨?_, fun deep => congrArg Host.Outcome.next (if_pos ⟨domain, deep⟩),
      fun deep cool => congrArg Host.Outcome.next (if_pos ⟨domain, deep, cool⟩)⟩
    intro rails l1 l2
    refine ⟨fun above => congrArg Host.Outcome.next (if_pos (.inr (.inr above))), fun half quarter => ?_, fun deep => ?_⟩
    · refine (exec_sagDetect domain rails half).trans (congrArg Host.Outcome.next ?_)
      rw [show (if s.sagL2 ≤ v then 2 else 1) = 1 from if_neg (Nat.not_le.mpr quarter)]
    · have half : s.sagL1 ≤ v := Nat.le_trans (Nat.le_trans (Nat.le_add_right s.sagL1 10) (Nat.le_max_left _ _)) deep
      refine (exec_sagDetect domain rails half).trans (congrArg Host.Outcome.next ?_)
      rw [show (if s.sagL2 ≤ v then 2 else 1) = 2 from if_pos deep]
  · intro up byte t run
    have hub : i < 6 → run = .next (s.thermal i v) := fun sensor => exec_thermalReading up byte (.inl sensor)
    refine ⟨?_, ?_, ?_, ?_, ?_, fun rails => ?_⟩
    · intro domain cool
      rw [hub (by omega), s.thermal_of_domain domain (by omega), if_neg (by omega), if_neg (by omega)]
    · intro domain warm below
      rw [hub (by omega), s.thermal_of_domain domain (by omega), if_neg (by omega), if_pos warm]
    · intro domain hot below
      rw [hub (by omega), s.thermal_of_domain domain below, if_pos hot]
    · intro sensor hot
      rw [hub sensor, s.thermal_trips (.inl ⟨sensor, hot⟩)]
    · intro island cool
      rw [hub (by omega), s.thermal_shows (.inl ⟨island, cool⟩)]
    · have other : i < 46 → run = .next (s.thermal i v) := fun sensor => exec_thermalReading up byte (.inr ⟨sensor, rails⟩)
      refine ⟨?_, ?_, ?_⟩
      · intro low high cool
        rw [other (by omega), s.thermal_shows (.inr ⟨low, high, cool⟩)]
      · intro low high hot
        rw [other (by omega), s.thermal_trips (.inr ⟨low, high, hot⟩)]
      · intro low high
        rw [other high, s.thermal_of_engine low]
  · refine fun rails => ⟨congrArg Host.Outcome.next (if_neg (Bool.eq_false_iff.mp rails)), ?_⟩
    intro read lim take run
    have taken : ∀ d windows, s.capped vin iin pin d windows = take d windows := by
      intro d windows
      rw [State.capped, State.metered, shows]
    refine ⟨?_, ?_, ?_, ?_, ?_⟩
    · intro uncapped within
      have demand : s.capDemand avg = 0 := by
        rw [State.capDemand, uncapped]
        rfl
      rw [show run = _ from exec_powerCapWindow_within rails avg vin iin pin within, demand, taken]
    · intro capping above shallower
      have runs := State.capRun_shallower (avg := avg) shallower
      rw [show run = _ from exec_powerCapWindow_above rails avg vin iin pin capping above (by omega), runs, taken,
        Nat.min_eq_right (by omega)]
    · intro capping above deepest fresh
      have runs := State.capRun_deepest capping above deepest
      have demand : min 2 (s.demand 0 2 + 1) = 2 := by omega
      refine ⟨fun brief => ?_, fun long => ?_⟩
      · rw [show run = _ from exec_powerCapWindow_above rails avg vin iin pin capping above (by omega), runs, demand, taken]
      · rw [show run = _ from exec_powerCapWindow_over rails avg vin iin pin capping above (by omega) fresh, runs, demand, taken]
    · intro capping within near
      rw [show run = _ from exec_powerCapWindow_within rails avg vin iin pin within, taken,
        State.capDemand_within capping within, if_neg (by omega)]
    · intro capping low
      have within : avg ≤ s.pwr.capLimit := by
        show avg ≤ lim
        omega
      rw [show run = _ from exec_powerCapWindow_within rails avg vin iin pin within, taken,
        State.capDemand_within capping within, if_pos low]

end Sys2Proof.Machine
end

section
/-! PROOFS. Key slots: deliveries, the tweak of a line at rest, the drain bound and the scrub (R466 to R474). -/
namespace Sys2Proof.Machine

/-! ### Data at rest (R469, R470) -/

theorem lineTweak_toNat (g : BitVec 32) (n : BitVec 16) (h : BitVec 32) (l : BitVec 42) :
    (lineTweak g.toNat n.toNat h.toNat l.toNat).toNat =
      g.toNat * 2 ^ 90 + n.toNat * 2 ^ 74 + h.toNat * 2 ^ 42 + l.toNat := by
  have := g.isLt
  have := n.isLt
  have := h.isLt
  have := l.isLt
  rw [lineTweak, BitVec.toNat_ofNat]
  omega

/-- A tweak names the generation, HGEN, the handle and the line it is made of (R470). -/
theorem lineTweak_injective {g1 g2 : BitVec 32} {n1 n2 : BitVec 16} {h1 h2 : BitVec 32} {l1 l2 : BitVec 42}
    (same : lineTweak g1.toNat n1.toNat h1.toNat l1.toNat = lineTweak g2.toNat n2.toNat h2.toNat l2.toNat) :
    g1 = g2 ∧ n1 = n2 ∧ h1 = h2 ∧ l1 = l2 := by
  have sums := congrArg BitVec.toNat same
  rw [lineTweak_toNat, lineTweak_toNat] at sums
  have := n1.isLt
  have := n2.isLt
  have := h1.isLt
  have := h2.isLt
  have := l1.isLt
  have := l2.isLt
  refine ⟨BitVec.eq_of_toNat_eq ?_, BitVec.eq_of_toNat_eq ?_, BitVec.eq_of_toNat_eq ?_, BitVec.eq_of_toNat_eq ?_⟩ <;> omega

theorem State.atRest_of_obj {s : State} {h : Nat} {o : Obj} (found : s.obj? h = some o) (l : Nat) :
    s.atRest h l = Config.xtsEncrypt (s.objKey o) (lineTweak o.keyGen o.hgen h l) (memRead o.data (64 * l) 64) := by
  rw [State.atRest, found]

/-! ### Deliveries (R466, R467) -/

/-- What an opened delivery leaves: the generation reserved, the binding staged, and the delivery ended. -/
def State.staging (s : State) (j g tenant : Nat) (key : BitVec 256) : State :=
  let t : State := { s with
    nv := { s.nv with gens := kvSet s.nv.gens j g }
    kdStaged := kvSet s.kdStaged j (g, tenant, key) }
  ((t.fset Reg.SEC_KS_B_PENDING [j] 1).fset Reg.SEC_KD_STAT_GEN [] g).kdEnd stOk

theorem exec_keyDeliveryDone_closed {s : State} {d : List Byte} (running : s.kdRec = some d)
    (closed : deliveredKey s.kemSeed d = none) : exec .keyDeliveryDone s = .next (s.kdEnd stAccess) := by
  show execKeyDeliveryDone s = _
  unfold execKeyDeliveryDone
  rw [running]
  dsimp only
  rw [closed]

theorem exec_keyDeliveryDone_opened {s : State} {d : List Byte} {key : BitVec 256} (running : s.kdRec = some d)
    (opened : deliveredKey s.kemSeed d = some key) :
    exec .keyDeliveryDone s = .next (if kvGet 0 s.nv.gens (kdSlot d) + 1 < 2 ^ 32 then
      s.staging (kdSlot d) (kvGet 0 s.nv.gens (kdSlot d) + 1) (kdTenant d) key else s.kdEnd stAccess) := by
  show execKeyDeliveryDone s = _
  unfold execKeyDeliveryDone
  rw [running]
  dsimp only
  rw [opened]
  refine congrArg Host.Outcome.next ?_
  by_cases left' : kvGet 0 s.nv.gens (kdSlot d) + 1 < 2 ^ 32
  · exact (if_neg (Nat.not_le.mpr left')).trans (if_pos left').symm
  · exact (if_pos (Nat.not_lt.mp left')).trans (if_neg left').symm

/-! ### Scrubs (R474) -/

/-- What the end of a scrub leaves of a slot's registers. -/
def State.clearSlot (s : State) (k st : Nat) : State :=
  (((s.fset Reg.SEC_KS_B_STATE [k] st).fset Reg.SEC_KS_B_RETIRE [k] 0).fset Reg.SEC_KS_A_GEN [k] 0).fset Reg.SEC_KS_A_TENANT [k] 0

theorem exec_scrubComplete {s : State} {k : Nat} (slot : k < 2048) (scrubbing : s.slotState k = 3)
    (written : ∀ c ∈ s.scrubs, c.slot = k → c.todo = []) :
    exec (.scrubComplete k) s = .next (
      let last := decide (s.fget Reg.SEC_KS_A_GEN [k] = 2 ^ 32 - 1)
      State.clearSlot { s with
        scrubs := s.scrubs.filter (fun c => decide (c.slot ≠ k))
        tenantKeys := kvDel s.tenantKeys k
        nv := { s.nv with exhausted := if last then setIns s.nv.exhausted k else s.nv.exhausted }
        staged := kvDel s.staged (RegName.SEC_KS_B.addr [k]) } k (if last then 4 else 0)) := by
  refine congrArg Host.Outcome.next (if_neg ?_)
  rintro (other | outside | waits)
  · exact other scrubbing
  · exact Nat.not_le.mpr slot outside
  · obtain ⟨c, member, both⟩ := List.any_eq_true.mp waits
    obtain ⟨same, todo⟩ := Bool.and_eq_true_iff.mp both
    rw [written c member (of_decide_eq_true same)] at todo
    exact Bool.false_ne_true todo

/-- Settles O45: the tweak from its fields, and each command by its rule. -/
theorem keySlots : Obligations.KeySlots := by
  unfold Obligations.KeySlots
  refine ⟨fun g1 g2 n1 n2 h1 h2 l1 l2 => lineTweak_injective, ?_⟩
  intro s k h l d o
  refine ⟨fun found => State.atRest_of_obj found l, ?_, ?_, ?_⟩
  · intro running j g kek opened
    have delivered : deliveredKey s.kemSeed d = opened.map (fun t => BitVec.ofNat 256 (bytesNat (t.take 32))) := rfl
    cases opens : opened with
    | none =>
      rw [opens] at delivered
      exact exec_keyDeliveryDone_closed running delivered
    | some bs =>
      rw [opens] at delivered
      exact exec_keyDeliveryDone_opened running delivered
  · exact fun slot draining => congrArg Host.Outcome.next (if_neg (by omega))
  · intro slot scrubbing written clear t
    have ends := exec_scrubComplete slot scrubbing written
    refine ⟨fun more => ?_, fun last => ?_⟩
    · rw [decide_eq_false more] at ends
      exact ends
    · rw [decide_eq_true last] at ends
      exact ends

end Sys2Proof.Machine
end

section
/-! PROOFS. Rebuild, check windows and the loss log (R511 to R518), and shadowing (R520 to R527). -/
namespace Sys2Proof.Machine

/-! ### Mirrors (R512, R516) -/

/-- A SHADOW after its rebuild: its tray, its pair and the record of code 5 (R512). -/
def State.rebuilt (s : State) (k copied : Nat) : State :=
  let n := s.fget Reg.PLACE_PAIR_STAT_NEW [k]
  let u := (((s.setTray n 4 k).fset Reg.PLACE_TRAY_STAT_CLEAN [n] (s.fget Reg.PLACE_TRAY_STAT_CLEAN [n])).fset
    Reg.PLACE_PAIR_STAT_STATE [k] 4).fset Reg.PLACE_PAIR_STAT_COPIED_GIB [k] (copied * 4096 / 2 ^ 30)
  (u.modMir (fun m => { m with
    rebuild := kvDel m.rebuild k
    credit := kvDel m.credit k
    shadowClean := kvDel m.shadowClean n })).mirrorRec stOk 5 n n k

theorem exec_rebuildCopyDone {s : State} {k : Nat} {r : Nat × List (Nat × Nat)} (copying : kvGet? s.mir.rebuild k = some r)
    (rebuilding : s.pairState k = 3) (done : r.2 = []) : exec (.rebuildCopyDone k) s = .next (s.rebuilt k r.1) := by
  show execRebuildCopyDone k s = _
  unfold execRebuildCopyDone
  rw [copying]
  refine congrArg Host.Outcome.next (if_neg ?_)
  rintro (other | left')
  · exact other rebuilding
  · exact left' done

/-- The granules of a run that still hold a mark (R516). -/
def Obj.marked (o : Obj) (gs : List Nat) : List Nat :=
  gs.filter (fun g => (span (64 * g) (64 * g + 64)).any (fun l => o.lost.contains l))

section
variable {s : State} {p : Nat} {e : Nat × List Nat} {o : Obj}
  (first : s.mir.runs.find? (fun q => decide (handlePart q.1 = p)) = some e) (object : s.obj? e.1 = some o)
include first object

theorem exec_lossLogWrite_unmarked (unmarked : o.marked e.2 = []) :
    exec (.lossLogWrite p) s = .next (s.modMir (fun m => { m with runs := m.runs.erase e })) := by
  unfold Obj.marked at unmarked
  show execLossLogWrite p s = _
  unfold execLossLogWrite
  rw [first]
  dsimp only
  rw [object]
  dsimp only
  rw [unmarked]

/-- One entry of the loss log for a run of the granules of an object, at the place of entry `n`. -/
def State.logEntry (s : State) (log cap n h : Nat) (o : Obj) (first len : Nat) : State :=
  (s.storeObj log (64 + 16 * (n % cap)) (natBytes 8 (mkRef h o.hgen) ++ natBytes 5 first ++ natBytes 3 len)).storeObj
    log 8 (natBytes 8 (n + 1))

theorem exec_lossLogWrite_marked (marked : o.marked e.2 ≠ []) {lg : Obj}
    (log : s.objOfRef (s.fget Reg.PLACE_LOSS_LOG_LOG [p]) = some lg) :
    exec (.lossLogWrite p) s = .next (
      let ref := s.fget Reg.PLACE_LOSS_LOG_LOG [p]
      let lh := refHandle ref
      let cap := (lg.size - 64) / 16
      let n := s.wordAt lh 8
      if ref = 0 ∨ handlePart lh ≠ p ∨ lg.rd = false ∨ lg.wr = false ∨ s.wordAt lh 0 + cap ≤ n then s
      else
        let run := firstRun (o.marked e.2)
        let len := min run.2 (2 ^ 24 - 1)
        (s.logEntry lh cap n e.1 o run.1 len).modMir (fun m => { m with runs := m.runs.map (fun q =>
          if q = e then (e.1, (o.marked e.2).filter (fun g => decide (run.1 + len ≤ g))) else q) })) := by
  obtain ⟨g, rest, some'⟩ := List.exists_cons_of_ne_nil marked
  rw [some']
  unfold Obj.marked at some'
  show execLossLogWrite p s = _
  unfold execLossLogWrite
  rw [first]
  dsimp only
  rw [object]
  dsimp only
  rw [some']
  dsimp only
  rw [log]
  rfl

end

/-- Settles O46: each command by its rule. -/
theorem mirrorsAndLossLog : Obligations.MirrorsAndLossLog := by
  unfold Obligations.MirrorsAndLossLog
  intro s p h reads k cap n r e o lg
  refine ⟨fun copying rebuilding done => exec_rebuildCopyDone copying rebuilding done, rfl, ?_⟩
  intro first object gs ref run
  refine ⟨fun unmarked => exec_lossLogWrite_unmarked first object unmarked, ?_⟩
  intro marked named handle part log readable writable room count
  subst handle room count
  have writes := exec_lossLogWrite_marked first object marked log
  refine ⟨fun fits => writes.trans (congrArg Host.Outcome.next (if_neg ?_)),
    fun full => writes.trans (congrArg Host.Outcome.next (if_pos (.inr (.inr (.inr (.inr full))))))⟩
  rintro (null | other | unreadable | unwritable | full)
  · exact named null
  · exact other part
  · exact Bool.false_ne_true (unreadable.symm.trans readable)
  · exact Bool.false_ne_true (unwritable.symm.trans writable)
  · exact Nat.not_le.mpr fits full

/-! ### Shadowing (R520 to R527) -/

theorem exec_shadowFail {p cause : Nat} (low : 1 ≤ cause) (high : cause ≤ 7) (s : State) :
    exec (.shadowFail p cause) s = .next (s.shadowFail p cause) :=
  congrArg Host.Outcome.next (if_pos ⟨low, high⟩)

section
variable {s : State} {p : Nat} {h : Shadow} (shadowed : (s.part p).shadow = some h)
include shadowed

theorem exec_shadowJoin (part : p < 16) (follows : h.leader = false) (waits : h.joined = false) (n : Nat) (key : BitVec 256) :
    exec (.shadowJoin p n key) s = .next (s.modPart p (fun x => { x with
      orbit := n % 2 ^ 40
      held := false
      shadow := some { h with joined := true, n0 := n % 2 ^ 40, key := key }
      shadowState := 2 })) := by
  show execShadowJoin p n key s = _
  unfold execShadowJoin
  rw [shadowed]
  dsimp only
  rw [follows, waits, decide_eq_false (Nat.not_le.mpr part)]
  rfl

variable (joined : h.joined = true)
include joined

theorem exec_shadowForward (follows : h.leader = false) (i : ShadowInput) :
    exec (.shadowForward p i) s = .next ((s.applyForward p i).getD (s.shadowFail p 7)) := by
  show execShadowForward p i s = _
  unfold execShadowForward
  rw [shadowed]
  dsimp only
  rw [follows, joined]
  cases s.applyForward p i with
  | none => rfl
  | some t => rfl

theorem exec_shadowDigest (follows : h.leader = false) (n : Nat) (d : BitVec 256) (v : Bool) :
    exec (.shadowDigest p n d v) s = .next (
      let g := { h with received := kvSet h.received n (d, v) }
      let t := s.modPart p (fun x => { x with shadow := some g })
      if s.fget Reg.GLB_SHD_CTRL_LAG_MAX [p] < g.lag (s.part p).orbit then t.shadowFail p 3 else t.compareDigest p n) := by
  show execShadowDigest p n d v s = _
  unfold execShadowDigest
  rw [shadowed]
  dsimp only
  rw [follows, joined]
  rfl

theorem exec_shadowPromote_follower (follows : h.leader = false) (promotes : h.promoting = true) (n : Nat) :
    exec (.shadowPromote p n) s =
      .next ((s.modPart p (fun x => { x with shadow := some { h with upTo := some n } })).promoteAt p) := by
  show execShadowPromote p n s = _
  unfold execShadowPromote
  rw [shadowed]
  dsimp only
  rw [follows, joined, promotes]
  rfl

theorem exec_shadowPromote_leader (leads : h.leader = true) (n : Nat) :
    exec (.shadowPromote p n) s = .next (s.modPart p (fun x => { x with shadow := some { h with promoting := true } })) := by
  show execShadowPromote p n s = _
  unfold execShadowPromote
  rw [shadowed]
  dsimp only
  rw [leads, joined]
  rfl

end

/-- Settles O47: each command by its rule. -/
theorem shadowing : Obligations.Shadowing := by
  unfold Obligations.Shadowing
  intro s p n cause key d v i h
  refine ⟨fun low high => exec_shadowFail low high s, fun shadowed => ⟨?_, ?_, ?_⟩⟩
  · exact fun part follows waits => exec_shadowJoin shadowed part follows waits n key
  · intro joined follows
    have forwards := exec_shadowForward shadowed joined follows i
    have compares := exec_shadowDigest shadowed joined follows n d v
    refine ⟨fun t applied => ?_, fun refused => ?_, ⟨fun near => ?_, fun far => ?_⟩, fun promotes => ?_⟩
    · rw [applied] at forwards
      exact forwards
    · rw [refused] at forwards
      exact forwards
    · exact compares.trans (congrArg Host.Outcome.next (if_neg (Nat.not_lt.mpr near)))
    · exact compares.trans (congrArg Host.Outcome.next (if_pos far))
    · exact exec_shadowPromote_follower shadowed joined follows promotes n
  · exact fun joined leads => exec_shadowPromote_leader shadowed joined leads n

end Sys2Proof.Machine
end

section
/-! PROOFS. The services of the management core, over MCTP and over the service mailbox (R533 to R541, R546, R552). -/
namespace Sys2Proof.Machine

/-! ### Requests over MCTP (R531 to R533, R541) -/

/-- The response a service sends over MCTP. -/
def State.sendReply (s : State) (q : List Byte) (st : Nat) (pay : List Byte) : Outcome :=
  .next (s.emit (.service (svcResponse q st pay)))

/-- What a well-formed request answers, from what its service gives. -/
def State.sendServed (q : List Byte) (r : State × Nat × List Byte) : Outcome := r.1.sendReply q r.2.1 r.2.2

theorem State.service_mctp {s : State} {q : List Byte} (up : s.mctpUp = true) (short : q.length ≤ 4096)
    (formed : svcOk q = true) : Host.Outcome.next (s.service (svcOp q) (some q)) =
      State.sendServed q (s.serveMgmt 2 (svcOp q) (svcPayload q)) := by
  have passes : ¬(!s.mctpUp || decide (4096 < q.length) || (decide (svcOp q ≠ svcOp q) && svcOk q)) = true := by
    rw [up, decide_eq_false (Nat.not_lt.mpr short), decide_eq_false (not_not_intro rfl)]
    exact Bool.false_ne_true
  refine congrArg Host.Outcome.next ((if_neg passes).trans ?_)
  rw [State.answerSvc, if_pos formed]

theorem State.service_malformed {s : State} {q : List Byte} (up : s.mctpUp = true) (short : q.length ≤ 4096)
    (malformed : svcOk q = false) (op : Nat) : Host.Outcome.next (s.service op (some q)) = s.sendReply q stAccess [] := by
  have passes : ¬(!s.mctpUp || decide (4096 < q.length) || (decide (svcOp q ≠ op) && svcOk q)) = true := by
    rw [up, decide_eq_false (Nat.not_lt.mpr short), malformed, Bool.and_false]
    exact Bool.false_ne_true
  refine congrArg Host.Outcome.next ((if_neg passes).trans ?_)
  rw [State.answerSvc, if_neg (Bool.eq_false_iff.mp malformed)]

theorem State.service_long {s : State} {q : List Byte} (long : 4096 < q.length) (op : Nat) :
    (Host.Outcome.next (s.service op (some q)) : Outcome) = .next s := by
  refine congrArg Host.Outcome.next (if_pos ?_)
  rw [decide_eq_true long, Bool.or_true, Bool.true_or]

theorem State.service_mailbox {s : State} (busy : s.fget Reg.MGT_SVC_STAT_BUSY [] = 1) {op : Nat}
    (names : svcOp s.svcBuf = op) : (Host.Outcome.next (s.service op none) : Outcome) = .next s.finishSvc :=
  congrArg Host.Outcome.next (if_pos ⟨busy, names⟩)

/-! ### What each service gives (R534 to R539, R546) -/

/-- The state and payload of a service that only answers with a status. -/
def statusOnly (r : State × Nat) : State × Nat × List Byte := (r.1, r.2, [])

section
variable {s : State} (runs : s.pwr.phase ≠ .halted) (tr : Nat) (p : List Byte)
include runs

theorem State.serveMgmt_status : s.serveMgmt tr 1 p = (s, stOk, natBytes 8 (s.regW .SEC_BOOT_STAT []).toNat ++
    natBytes 8 (s.regW .PART_SEAL []).toNat ++ natBytes 8 (s.regW .SEC_FLOOR []).toNat ++
    natBytes 8 (s.regW .MGT_PWR_FAULT []).toNat ++ natBytes 8 (s.cycles 7)) := by
  unfold State.serveMgmt
  rw [decide_eq_false runs]
  rfl

theorem State.serveMgmt_flashInfo :
    s.serveMgmt tr 2 p = (s, stOk, (List.range 4).flatMap (fun k => (s.flash k).info)) := by
  unfold State.serveMgmt
  rw [decide_eq_false runs]
  rfl

theorem State.serveMgmt_flashWrite :
    s.serveMgmt tr 3 p = statusOnly (s.flashWrite tr (field p 0 1) (field p 4 4) (p.drop 8)) := by
  unfold State.serveMgmt
  rw [decide_eq_false runs]
  rfl

theorem State.serveMgmt_flashCommit : s.serveMgmt tr 4 p = statusOnly (s.flashCommit tr (field p 0 1) (field p 4 4)) := by
  unfold State.serveMgmt
  rw [decide_eq_false runs]
  rfl

theorem State.serveMgmt_flashErase : s.serveMgmt tr 5 p = statusOnly (s.flashErase tr (field p 0 1)) := by
  unfold State.serveMgmt
  rw [decide_eq_false runs]
  rfl

theorem State.serveMgmt_telemRead :
    s.serveMgmt 2 6 p = (s, s.telemRead (field p 0 2) (field p 4 4) (field p 8 2)) := by
  unfold State.serveMgmt
  rw [decide_eq_false runs]
  rfl

theorem State.serveMgmt_discRead : s.serveMgmt tr 7 p =
    if field p 2 2 = 0 ∨ 256 < field p 0 2 + field p 2 2 then (s, stAccess, [])
    else (s, stOk, (span (field p 0 2) (field p 0 2 + field p 2 2)).flatMap (fun i =>
      natBytes 8 (s.regW .MGT_DISC [i]).toNat)) := by
  unfold State.serveMgmt
  rw [decide_eq_false runs]
  rfl

end

/-- In a boot halt only what R541 names is served. -/
theorem State.serveMgmt_halted {s : State} (halted : s.pwr.phase = .halted) {op : Nat} {p : List Byte}
    (shut : 6 ≤ op ∨ 3 ≤ op ∧ 2 ≤ field p 0 1) (tr : Nat) : s.serveMgmt tr op p = (s, stAccess, []) := by
  have closed : (decide (6 ≤ op) || (decide (3 ≤ op) && decide (2 ≤ field p 0 1))) = true := by
    rw [Bool.or_eq_true_iff, Bool.and_eq_true_iff, decide_eq_true_iff, decide_eq_true_iff, decide_eq_true_iff]
    exact shut
  unfold State.serveMgmt
  rw [decide_eq_true halted]
  refine if_pos ?_
  rw [closed]
  rfl

/-! ### The boot flash (R536 to R539) -/

/-- Whether a write of a slot is refused whoever owns it. -/
def State.writeBarred (s : State) (k off : Nat) (bs : List Byte) : Prop :=
  4 ≤ k ∨ s.flashGuard k = true ∨ flashRoom k < off + bs.length

section
variable {s : State} {tr k off : Nat}

theorem State.writeBarred_iff (bs : List Byte) :
    (decide (4 ≤ k) || s.flashGuard k || decide (flashRoom k < off + bs.length)) = true ↔ s.writeBarred k off bs := by
  rw [Bool.or_eq_true_iff, Bool.or_eq_true_iff, decide_eq_true_iff, decide_eq_true_iff, or_assoc]
  rfl

theorem State.flashWrite_barred {bs : List Byte} (barred : s.writeBarred k off bs) : s.flashWrite tr k off bs = (s, stAccess) :=
  if_pos ((s.writeBarred_iff bs).mpr barred)

theorem State.flashWrite_foreign {bs : List Byte} (free : ¬s.writeBarred k off bs) (foreign : (s.flash k).foreign tr = true) :
    s.flashWrite tr k off bs = (s, stBusy) :=
  (if_neg fun barred => free ((s.writeBarred_iff bs).mp barred)).trans (if_pos foreign)

theorem State.flashWrite_writes {bs : List Byte} (free : ¬s.writeBarred k off bs) (own : (s.flash k).foreign tr = false) :
    s.flashWrite tr k off bs = (s.setFlash k ⟨1, tr, 0, 0, 0, memWrite (s.flash k).data off bs⟩, stOk) :=
  (if_neg fun barred => free ((s.writeBarred_iff bs).mp barred)).trans (if_neg (Bool.eq_false_iff.mp own))

theorem State.flashCommit_closed (closed : 4 ≤ k ∨ (s.flash k).st ≠ 1) (len : Nat) : s.flashCommit tr k len = (s, stAccess) := by
  refine if_pos ?_
  rw [Bool.or_eq_true_iff, Bool.or_eq_true_iff, decide_eq_true_iff, decide_eq_true_iff]
  exact .inl closed

theorem State.flashCommit_open (slot : k < 4) (held : (s.flash k).st = 1) (len : Nat) :
    s.flashCommit tr k len = if s.commitOk k len (imageTo (s.flash k).data len) then
      if (s.flash k).foreign tr then (s, stBusy)
      else (({ s with nv := { s.nv with commits := s.nv.commits + 1 } } : State).setFlash k
        ⟨2, 0, len, imageSvn k (imageTo (s.flash k).data len) len, s.nv.commits + 1, imageTo (s.flash k).data len⟩, stOk)
    else (s, stAccess) := by
  unfold State.flashCommit
  dsimp only
  rw [decide_eq_false (Nat.not_le.mpr slot), decide_eq_false (not_not_intro held), Bool.false_or, Bool.false_or]
  cases s.commitOk k len (imageTo (s.flash k).data len) with
  | true => rfl
  | false => rfl

theorem State.flashErase_barred (barred : 4 ≤ k ∨ s.flashGuard k = true) : s.flashErase tr k = (s, stAccess) := by
  refine if_pos ?_
  rw [Bool.or_eq_true_iff, decide_eq_true_iff]
  exact barred

theorem State.erase_free (slot : k < 4) (free : s.flashGuard k = false) : ¬(decide (4 ≤ k) || s.flashGuard k) = true := by
  rw [decide_eq_false (Nat.not_le.mpr slot), free]
  exact Bool.false_ne_true

theorem State.flashErase_foreign (slot : k < 4) (free : s.flashGuard k = false) (foreign : (s.flash k).foreign tr = true) :
    s.flashErase tr k = (s, stBusy) :=
  (if_neg (s.erase_free slot free)).trans (if_pos foreign)

theorem State.flashErase_erases (slot : k < 4) (free : s.flashGuard k = false) (own : (s.flash k).foreign tr = false) :
    s.flashErase tr k = (s.setFlash k emptySlot, stOk) :=
  (if_neg (s.erase_free slot free)).trans (if_neg (Bool.eq_false_iff.mp own))

theorem exec_flashSlotTimeout (slot : k < 4) (held : (s.flash k).st = 1) :
    exec (.flashSlotTimeout k) s = .next (s.setFlash k emptySlot) :=
  congrArg Host.Outcome.next (if_pos ⟨slot, held⟩)

end

/-! ### Counter sets (R546) -/

theorem State.telemRead_refused {s : State} {set first count : Nat}
    (outside : 13 ≤ set ∨ count = 0 ∨ 511 < count ∨ telemSize set < first + count) :
    s.telemRead set first count = (stAccess, []) :=
  if_pos outside

/-- The 8 bytes of a value of a counter set. -/
def State.telemValue (s : State) (set i : Nat) : List Byte :=
  match telemAt set i with
  | some (r, ix) => natBytes 8 (s.readReg r ix).toNat
  | none => natBytes 8 0

theorem State.telemRead_reads {s : State} {set first count : Nat}
    (inside : ¬(13 ≤ set ∨ count = 0 ∨ 511 < count ∨ telemSize set < first + count)) :
    s.telemRead set first count = (stOk, (span first (first + count)).flatMap (s.telemValue set)) :=
  if_neg inside

/-! ### The obligation -/

/-- A well-formed request over MCTP is answered with what its service gives. -/
theorem State.answers_mctp {s : State} {q : List Byte} {op : Nat} (serves : s.mctpServes) (short : q.length ≤ 4096)
    (formed : svcOk q = true) (names : svcOp q = op) {r : State × Nat × List Byte}
    (gives : s.serveMgmt 2 op (svcPayload q) = r) : Host.Outcome.next (s.service op (some q)) = State.sendServed q r := by
  rw [← gives, ← names]
  exact State.service_mctp serves.1 short formed

/-- The services of a boot halt over MCTP: one that R541 does not name is answered with ACCESS. -/
theorem State.refuses_halted {s : State} {q : List Byte} {op : Nat} (up : s.mctpUp = true) (halted : s.pwr.phase = .halted)
    (short : q.length ≤ 4096) (formed : svcOk q = true) (names : svcOp q = op)
    (shut : 6 ≤ op ∨ 3 ≤ op ∧ 2 ≤ field (svcPayload q) 0 1) :
    Host.Outcome.next (s.service op (some q)) = s.sendReply q stAccess [] := by
  have served := State.service_mctp up short formed
  rw [names, s.serveMgmt_halted halted shut] at served
  exact served

/-- Settles O48: the transport once, then each service by what it gives. -/
theorem servicesAnswer : Obligations.ServicesAnswer := by
  unfold Obligations.ServicesAnswer
  intro s q reply req p k f off
  refine ⟨fun serves short formed => ⟨?_, ?_, ?_, ?_, ?_, ?_, ?_⟩, ?_, ?_, ?_, ?_, ?_⟩
  · exact fun names => State.answers_mctp serves short formed names (s.serveMgmt_status serves.2 2 p)
  · exact fun names => State.answers_mctp serves short formed names (s.serveMgmt_flashInfo serves.2 2 p)
  · intro names bs no
    have writes := State.answers_mctp serves short formed names (s.serveMgmt_flashWrite serves.2 2 p)
    refine ⟨fun barred => ?_, fun free foreign => ?_, fun free own => ?_⟩
    · rw [s.flashWrite_barred barred] at writes
      exact writes
    · rw [s.flashWrite_foreign free foreign] at writes
      exact writes
    · rw [s.flashWrite_writes free own] at writes
      exact writes
  · intro names m
    have commits := State.answers_mctp serves short formed names (s.serveMgmt_flashCommit serves.2 2 p)
    refine ⟨fun closed => ?_, fun slot held => ?_⟩
    · rw [s.flashCommit_closed closed] at commits
      exact commits
    · rw [s.flashCommit_open slot held] at commits
      refine commits.trans ?_
      dsimp only [m]
      by_cases passes : s.commitOk k off (imageTo f.data off) = true
      · rw [if_pos passes, if_pos passes]
        by_cases foreign : f.foreign 2 = true
        · rw [if_pos foreign, if_pos foreign]
          rfl
        · rw [if_neg foreign, if_neg foreign]
          rfl
      · rw [if_neg passes, if_neg passes]
        rfl
  · intro names
    have erases := State.answers_mctp serves short formed names (s.serveMgmt_flashErase serves.2 2 p)
    refine ⟨fun barred => ?_, fun slot free foreign => ?_, fun slot free own => ?_⟩
    · rw [s.flashErase_barred barred] at erases
      exact erases
    · rw [s.flashErase_foreign slot free foreign] at erases
      exact erases
    · rw [s.flashErase_erases slot free own] at erases
      exact erases
  · intro names set n
    have reads := State.answers_mctp serves short formed names (s.serveMgmt_telemRead serves.2 p)
    refine ⟨fun outside => ?_, fun known some' few fits => ?_⟩
    · rw [s.telemRead_refused outside] at reads
      exact reads
    · have inside : ¬(13 ≤ set ∨ n = 0 ∨ 511 < n ∨ telemSize set < off + n) := by omega
      rw [s.telemRead_reads inside] at reads
      exact reads
  · intro names a n
    have reads := State.answers_mctp serves short formed names (s.serveMgmt_discRead serves.2 2 p)
    refine ⟨fun outside => ?_, fun some' fits => ?_⟩
    · rw [if_pos outside] at reads
      exact reads
    · rw [if_neg (by omega)] at reads
      exact reads
  · intro serves short malformed
    have answers := s.service_malformed serves.1 short malformed
    simp only [List.forall_mem_cons]
    exact ⟨answers 1, answers 2, answers 3, answers 4, answers 5, answers 6, answers 7, List.forall_mem_nil _⟩
  · intro up halted short formed
    exact ⟨fun names => s.refuses_halted up halted short formed names (.inl (by decide)),
      fun names => s.refuses_halted up halted short formed names (.inl (by decide)),
      fun manifest names => s.refuses_halted up halted short formed names (.inr ⟨by decide, manifest⟩),
      fun manifest names => s.refuses_halted up halted short formed names (.inr ⟨by decide, manifest⟩)⟩
  · intro long
    have discards := fun op => s.service_long long op
    simp only [List.forall_mem_cons]
    exact ⟨discards 1, discards 2, discards 3, discards 4, discards 5, discards 6, discards 7, List.forall_mem_nil _⟩
  · intro busy held r done
    subst held
    have finishes : s.finishSvc = done := by rw [State.finishSvc]
    have ends := fun op (names : svcOp s.svcBuf = op) => s.service_mailbox busy names
    rw [finishes] at ends
    clear_value done
    simp only [List.forall_mem_cons]
    exact ⟨ends 1, ends 2, ends 3, ends 4, ends 5, ends 6, ends 7, List.forall_mem_nil _⟩
  · exact fun j slot held => exec_flashSlotTimeout slot held

end Sys2Proof.Machine
end

section
/-! PROOFS. MCTP control, the test port, measurements and the writes of tenant views (R461, R463, R531, R532, R547 to R551). -/
namespace Sys2Proof.Machine

/-! ### MCTP control and the test port (R531, R532, R550, R551) -/

theorem State.mctpUp_of {s : State} (up : s.aonUp = true) (settled : s.devResetDue = false) : s.mctpUp = true := by
  rw [State.mctpUp, up, settled]
  rfl

theorem State.tapRun_acts {s : State} (up : s.aonUp = true) {ok : Bool} (acts : ok = true) (code : Nat) (bytes : List Byte) :
    s.tapRun ok code bytes = (s.tapIr code).emit (.tdo bytes) := by
  rw [State.tapRun, up, acts]
  rfl

theorem State.tapRun_bypass {s : State} (up : s.aonUp = true) {ok : Bool} (barred : ok = false) (code : Nat) (bytes : List Byte) :
    s.tapRun ok code bytes = s.tapIr 0xFF := by
  rw [State.tapRun, up, barred]
  rfl

/-- An internal test instruction acts where the device may be tested, and else selects BYPASS (R551). -/
theorem State.internalTest_eq {s : State} (up : s.aonUp = true) (code : Nat) :
    s.internalTest code = if s.testable then
      ({ (s.tapIr code).emit (.tdo (Config.testBytes code)) with tap := ⟨code, true⟩ } : State) else s.tapIr 0xFF := by
  unfold State.internalTest
  dsimp only
  rw [up, Bool.true_and]
  cases acts : s.testable with
  | true =>
    rw [if_pos rfl, if_pos rfl, s.tapRun_acts up rfl]
    rfl
  | false =>
    rw [if_neg Bool.false_ne_true, if_neg Bool.false_ne_true, s.tapRun_bypass up rfl]

theorem exec_skRailmon {s : State} (up : s.aonUp = true) :
    exec .skRailmon s = .next (if Config.isEV then (s.tapIr 0x10).emit (.tdo ((List.range 49).flatMap (fun r =>
      natBytes 8 (s.regW .MGT_RAIL [r]).toNat))) else s.tapIr 0xFF) := by
  refine congrArg Host.Outcome.next ?_
  cases Config.isEV with
  | true => exact (s.tapRun_acts up rfl _ _).trans (if_pos rfl).symm
  | false => exact (s.tapRun_bypass up rfl _ _).trans (if_neg Bool.false_ne_true).symm

theorem exec_spdmMeasurements {s : State} (rails : s.railsDown = false) (settled : s.devResetDue = false) (nonce : List Byte) :
    exec (.spdmMeasurements nonce) s = .next (s.emit (.measurements nonce s.measurementBlocks
      (Config.attest s.signSeed nonce s.measurementBlocks))) := by
  refine congrArg Host.Outcome.next (if_pos ?_)
  rw [rails, settled]
  rfl

/-! ### Tenant views (R547 to R549) -/

theorem State.viewTarget_gone {s : State} {ref : Nat}
    (gone : s.objOfRef ref = none ∨ ∃ y, s.objOfRef ref = some y ∧ s.keyRetired y = true) : s.viewTarget ref = none := by
  rw [State.viewTarget]
  cases gone with
  | inl missing => rw [missing]; rfl
  | inr retired =>
    obtain ⟨y, found, key⟩ := retired
    rw [found, Option.filter_some, key]
    rfl

theorem State.viewTarget_there {s : State} {ref : Nat} {o : Obj} (found : s.objOfRef ref = some o)
    (key : s.keyRetired o = false) : s.viewTarget ref = some o := by
  rw [State.viewTarget, found, Option.filter_some, key]
  rfl

section
variable {s : State} {p v ref : Nat} {bs : List Byte} (part : p < 16) (view : v < 16)
include part view

theorem exec_viewWrite_writing (writing : (s.view p v).writing = some (ref, bs)) :
    exec (.viewWrite p v) s = .next ((s.viewTarget ref).elim (s.unbindView p v ref) (fun o =>
      if s.ready (.view (16 * p + v)) (refHandle ref) (blocksOf 64 0 bs.length) true then s.endView p v ref bs o else s)) := by
  refine congrArg Host.Outcome.next ((if_neg (by omega)).trans ?_)
  rw [writing]
  dsimp only
  cases s.viewTarget ref with
  | none => rfl
  | some o => rfl

theorem exec_viewWrite_waiting (idle : (s.view p v).writing = none) (waits : (s.view p v).capture = some (ref, bs)) :
    exec (.viewWrite p v) s = .next ((s.viewTarget ref).elim (s.unbindView p v ref) (fun _ =>
      if s.inSwap p then s else s.startView p v ref bs)) := by
  refine congrArg Host.Outcome.next ((if_neg (by omega)).trans ?_)
  rw [idle, waits]
  dsimp only
  cases s.viewTarget ref with
  | none => rfl
  | some o => rfl

/-- A view whose object has gone or whose key has retired is unbound, whether its capture waits or is being written (R549). -/
theorem exec_viewWrite_gone
    (holds : (s.view p v).writing = some (ref, bs) ∨ (s.view p v).writing = none ∧ (s.view p v).capture = some (ref, bs))
    (gone : s.objOfRef ref = none ∨ ∃ y, s.objOfRef ref = some y ∧ s.keyRetired y = true) :
    exec (.viewWrite p v) s = .next (s.unbindView p v ref) := by
  have missing := s.viewTarget_gone gone
  cases holds with
  | inl writing =>
    rw [exec_viewWrite_writing part view writing, missing]
    rfl
  | inr waits =>
    rw [exec_viewWrite_waiting part view waits.1 waits.2, missing]
    rfl

variable {o : Obj} (found : s.objOfRef ref = some o) (key : s.keyRetired o = false)
include found key

theorem exec_viewWrite_starts (idle : (s.view p v).writing = none) (waits : (s.view p v).capture = some (ref, bs))
    (still : s.inSwap p = false) : exec (.viewWrite p v) s = .next (s.startView p v ref bs) := by
  rw [exec_viewWrite_waiting part view idle waits, s.viewTarget_there found key]
  exact congrArg Host.Outcome.next (if_neg (Bool.eq_false_iff.mp still))

theorem exec_viewWrite_ends (writing : (s.view p v).writing = some (ref, bs))
    (answered : s.ready (.view (16 * p + v)) (refHandle ref) (blocksOf 64 0 bs.length) true = true) :
    exec (.viewWrite p v) s = .next (s.endView p v ref bs o) := by
  rw [exec_viewWrite_writing part view writing, s.viewTarget_there found key]
  exact congrArg Host.Outcome.next (if_pos answered)

end

/-- The worst of the final statuses that the lines of a view's write ended with (R549). -/
def State.viewStatus (s : State) (p v ref : Nat) (bs : List Byte) (o : Obj) : Option Nat :=
  worst (s.reqFinals (.view (16 * p + v)) ++ (blocksOf 64 0 bs.length).map (fun l =>
    s.writeStatus o (refHandle ref) l true (s.sentLine (.view (16 * p + v)) (refHandle ref) l)))

theorem State.endView_failed {s : State} {p v ref : Nat} {bs : List Byte} {o : Obj} (failed : s.viewStatus p v ref bs o ≠ none) :
    s.endView p v ref bs o = (s.dropReqs (.view (16 * p + v))).modView p v (fun x => { x with writing := none }) :=
  if_pos (Option.isSome_iff_ne_none.mpr failed)

theorem State.endView_written {s : State} {p v ref : Nat} {bs : List Byte} {o : Obj} (good : s.viewStatus p v ref bs o = none) :
    s.endView p v ref bs o = ((((s.dropReqs (.view (16 * p + v))).modView p v (fun x => { x with writing := none })).modView p v
      (fun x => { x with seq := (s.view p v).seq + 2 })).storeObj (refHandle ref) 0 bs).fset
      Reg.TELEM_VIEW_TRUNC [p, v] (field bs 52 1 % 2) :=
  if_neg fun failed => Option.isSome_iff_ne_none.mp failed good

/-- Settles O49: the port by `tapRun` and `mctpUp`, the views by what stands of their object. -/
theorem managementPortsAndViews : Obligations.ManagementPortsAndViews := by
  unfold Obligations.ManagementPortsAndViews
  intro s a eid nonce p v ref bs o
  refine ⟨?_, fun rails settled => exec_spdmMeasurements rails settled nonce, ?_⟩
  · intro up shift pass
    have acts : ∀ {ok : Bool} (code : Nat) (bytes : List Byte), ok = true →
        (Host.Outcome.next (s.tapRun ok code bytes) : Outcome) = .next (shift code bytes) := fun code bytes ok =>
      congrArg Host.Outcome.next (s.tapRun_acts up ok code bytes)
    have bypasses : ∀ {ok : Bool} (code : Nat) (bytes : List Byte), ok = false →
        (Host.Outcome.next (s.tapRun ok code bytes) : Outcome) = .next pass := fun code bytes ok =>
      congrArg Host.Outcome.next (s.tapRun_bypass up ok code bytes)
    refine ⟨congrArg Host.Outcome.next (if_pos up), fun settled => ?_, congrArg Host.Outcome.next (if_pos up),
      bypasses 0xFF [] rfl, acts 0x01 _ rfl, acts 0x02 _ rfl,
      fun down => ⟨acts 0x00 _ down, acts 0x04 [] down, acts 0x05 [] down⟩,
      fun rails => ⟨bypasses 0x00 _ rails, bypasses 0x04 [] rails, bypasses 0x05 [] rails⟩, exec_skRailmon up, ?_, ?_⟩
    · have serves := State.mctpUp_of up settled
      exact ⟨congrArg Host.Outcome.next (if_pos serves), congrArg Host.Outcome.next (if_pos serves),
        congrArg Host.Outcome.next (if_pos serves), congrArg Host.Outcome.next (if_pos serves),
        congrArg Host.Outcome.next (if_pos serves)⟩
    · exact congrArg Host.Outcome.next (s.internalTest_eq up 0x20)
    · exact congrArg Host.Outcome.next (s.internalTest_eq up 0x21)
  · intro part view w h run ended
    refine ⟨fun holds gone => exec_viewWrite_gone part view holds gone, fun found key => ⟨?_, ?_⟩⟩
    · exact fun idle waits still => exec_viewWrite_starts part view found key idle waits still
    · intro writing answered st t
      have ends := exec_viewWrite_ends part view found key writing answered
      exact ⟨fun failed => ends.trans (congrArg Host.Outcome.next (s.endView_failed failed)),
        fun good => ends.trans (congrArg Host.Outcome.next (s.endView_written good))⟩

end Sys2Proof.Machine
end

section
/-! PROOFS. Boot, the end of stack training, and the resets (R437, R438, R456 to R460, R502, R553 to R555). -/
namespace Sys2Proof.Machine

/-! ### What boot code leaves of the running image and the device keys (R458) -/

/-- The slot of the running image and the keys derived from it. -/
def State.identity (s : State) : Option Nat × Option DevKeys := (s.running, s.island)

theorem State.fset_identity (s : State) (f : RField) (ix : List Nat) (n : Nat) :
    (s.fset f ix n).SameIn State.identity s := rfl

theorem State.setSlW_identity (s : State) (r : RegName) (ix : List Nat) (v : Word) :
    (s.setSlW r ix v).SameIn State.identity s := rfl

theorem State.newTag_identity (s : State) (p : Nat) : (s.newTag p).SameIn State.identity s := rfl

theorem State.writeSl_identity (s : State) (m : Memory) : (s.writeSl m).SameIn State.identity s := by
  refine .trans (.foldl _ (fun t q => t.setSlW_identity ..) _ _) ?_
  refine .trans (.foldl _ (fun t g => t.setSlW_identity ..) _ _) ?_
  refine .trans (.foldl _ (fun t n => .trans (State.fset_identity ..) (t.setSlW_identity ..)) _ _) ?_
  refine .trans (.foldl _ (fun t w => .trans (State.setSlW_identity ..) (t.setSlW_identity ..)) _ _) ?_
  exact .trans (.foldl _ (fun t p => .foldl _ (fun u e => u.setSlW_identity ..) _ t) _ _) (s.setSlW_identity ..)

theorem State.anchors_identity (s : State) (a : List (BitVec 512)) (h : BitVec 512) :
    ({ s with anchors := a, manHash := h } : State).SameIn State.identity s := rfl

theorem State.sealFrom_identity (s : State) (m : Memory) : (s.sealFrom m).SameIn State.identity s := by
  unfold State.sealFrom
  dsimp only
  refine .trans (State.fset_identity ..) (.trans (State.fset_identity ..) (.trans (State.fset_identity ..) ?_))
  refine .trans (.foldl _ (fun t p => t.newTag_identity p) _ _) (.trans (State.anchors_identity ..) ?_)
  exact s.writeSl_identity m

theorem State.sealRecovery_identity (s : State) (cause : Nat) : (s.sealRecovery cause).SameIn State.identity s := by
  unfold State.sealRecovery
  dsimp only
  refine .trans (State.fset_identity ..) (.trans (State.fset_identity ..) (.trans (State.fset_identity ..) ?_))
  exact .trans (State.fset_identity ..) (s.setSlW_identity ..)

theorem State.adoptOwner_identity (s : State) (m : Memory) : (s.adoptOwner m).SameIn State.identity s := by
  unfold State.SameIn State.adoptOwner
  cases s.nv.owner with
  | none => rfl
  | some h => rfl

theorem State.sealStep_identity (s : State) : s.sealStep.1.SameIn State.identity s := by
  unfold State.sealStep
  dsimp only
  cases (s.nv.committed [2, 3]).find? (fun c => (manifestCause s.nv c.2.data).isNone) with
  | some c => exact .trans (State.adoptOwner_identity ..) (s.sealFrom_identity ..)
  | none =>
    cases s.nv.committed [2, 3] with
    | nil => exact s.sealRecovery_identity 8
    | cons c rest => exact s.sealRecovery_identity _

theorem State.commitStep_identity (s : State) (svn : Nat) (m : Memory) : (s.commitStep svn m).SameIn State.identity s :=
  .ite rfl (.refl s)

theorem State.showRpr_identity (s : State) : s.showRpr.SameIn State.identity s := by
  unfold State.showRpr
  exact .trans (State.fset_identity ..) (.trans (State.fset_identity ..) (s.fset_identity ..))

/-! ### Boot halts (R460) -/

/-- The step of start-up a state stands in. -/
def State.phase (s : State) : PwrPhase := s.pwr.phase

theorem State.setRegW_phase (s : State) (r : RegName) (ix : List Nat) (v : Word) :
    (s.setRegW r ix v).SameIn State.phase s := rfl

theorem State.fset_phase (s : State) (f : RField) (ix : List Nat) (n : Nat) : (s.fset f ix n).SameIn State.phase s := rfl

theorem State.dropRails_phase (s : State) (p : PwrPhase) : (s.dropRails p).phase = p := by
  unfold State.dropRails
  dsimp only
  exact (State.SameIn.foldl (view := State.phase) _ (fun t r => t.setRegW_phase ..) (span 1 48) _).trans rfl

theorem State.bootHalt_phase (s : State) (cause stage : Nat) : (s.bootHalt cause stage).phase = .halted := by
  unfold State.bootHalt
  refine Eq.trans ?_ (s.dropRails_phase .halted)
  exact State.SameIn.trans (State.fset_phase ..) (.trans (State.fset_phase ..) (State.setRegW_phase ..))

/-! ### Boot code (R460) -/

section
variable {s : State}

theorem State.bootCode_noImage (empty : s.nv.committed [0, 1] = []) (write : Bool) :
    s.bootCode true true write = (s.bootHalt 3 2, false) := by
  unfold State.bootCode
  dsimp only
  rw [empty]
  rfl

theorem State.bootCode_refused {k c : Nat} {f : FlashSlot} (only : s.nv.committed [0, 1] = [(k, f)])
    (fails : firmwareCause s.nv f = some c) (write : Bool) :
    s.bootCode true true write = (s.bootHalt c (c - 1), false) := by
  have refused : [(k, f)].find? (fun e => (firmwareCause s.nv e.2).isNone) = none := by
    rw [List.find?_cons_of_neg, List.find?_nil]
    rw [fails]
    exact Bool.false_ne_true
  unfold State.bootCode
  dsimp only
  rw [only, refused]
  dsimp only
  rw [fails]
  rfl

/-- The image that boot code accepts, and what runs from it on: the keys of R458. -/
def State.launched (s : State) (f : Nat × FlashSlot) : State :=
  ({ s with running := some f.1, island := some (devKeys (memRead f.2.data 0 f.2.len)) } : State).fset
    Reg.SEC_BOOT_STAT_FW_SVN [] f.2.svn

/-- Step 7 of R460 and the readings of the replay-protected region, after the seal. -/
def State.afterSeal (s : State) (svn : Nat) (man : Option Memory) : State :=
  let s3 := match man with
    | some m => s.commitStep svn m
    | none => s
  let s4 := s3.nv.exhausted.foldl (fun (t : State) k => t.fset Reg.SEC_KS_B_STATE [k] 4) s3
  s4.showRpr.fset Reg.SEC_BOOT_STAT_STAGE [] 7

theorem State.afterSeal_identity (s : State) (svn : Nat) (man : Option Memory) :
    (s.afterSeal svn man).SameIn State.identity s := by
  refine .trans (State.fset_identity ..) (.trans (State.showRpr_identity _)
    (.trans (.foldl _ (fun t k => t.fset_identity ..) _ _) ?_))
  cases man with
  | none => exact .refl s
  | some m => exact s.commitStep_identity svn m

theorem State.bootCode_accepts {f : Nat × FlashSlot}
    (found : (s.nv.committed [0, 1]).find? (fun f => (firmwareCause s.nv f.2).isNone) = some f) (write : Bool) :
    s.bootCode true true write = (s.bootHalt 2 6, false) ∨
      s.bootCode true true write = ((s.launched f).sealStep.1.afterSeal f.2.svn (s.launched f).sealStep.2, true) := by
  unfold State.bootCode
  dsimp only
  rw [found]
  simp only [Bool.not_true, Bool.false_eq_true, if_false]
  exact (Decidable.em _).imp (fun undone => if_pos undone) fun seals => (if_neg seals).trans rfl

theorem State.bootCode_none (refused : (s.nv.committed [0, 1]).find? (fun f => (firmwareCause s.nv f.2).isNone) = none)
    (write : Bool) : ∃ c, s.bootCode true true write = (s.bootHalt c (c - 1), false) := by
  unfold State.bootCode
  dsimp only
  rw [refused]
  exact ⟨_, rfl⟩

/-- Boot code ends in a boot halt, or with a committed image sealed and running. -/
theorem State.bootCode_cases (puf rpr write : Bool) : (∃ c n, s.bootCode puf rpr write = (s.bootHalt c n, false)) ∨
    ∃ f ∈ s.nv.committed [0, 1],
      s.bootCode puf rpr write = ((s.launched f).sealStep.1.afterSeal f.2.svn (s.launched f).sealStep.2, true) := by
  cases puf with
  | false => exact .inl ⟨1, 0, rfl⟩
  | true =>
    cases rpr with
    | false => exact .inl ⟨2, 1, rfl⟩
    | true =>
      cases found : (s.nv.committed [0, 1]).find? (fun f => (firmwareCause s.nv f.2).isNone) with
      | none =>
        obtain ⟨c, halts⟩ := State.bootCode_none found write
        exact .inl ⟨c, c - 1, halts⟩
      | some f =>
        obtain halts | seals := State.bootCode_accepts found write
        · exact .inl ⟨2, 6, halts⟩
        · exact .inr ⟨f, List.mem_of_find?_eq_some found, seals⟩

theorem State.booted_identity (f : Nat × FlashSlot) (man : Option Memory) :
    ((s.launched f).sealStep.1.afterSeal f.2.svn man).identity =
      (some f.1, some (devKeys (memRead f.2.data 0 f.2.len))) :=
  (State.SameIn.trans (State.afterSeal_identity ..) (State.sealStep_identity _)).trans rfl

end

theorem mem_committed {nv : Nv} {ks : List Nat} {e : Nat × FlashSlot} (member : e ∈ nv.committed ks) :
    kvGet? nv.slots e.1 = some e.2 := by
  have listed : e ∈ ks.filterMap (fun k => (kvGet? nv.slots k).bind (fun f => if f.st = 2 then some (k, f) else none)) := by
    unfold Nv.committed at member
    generalize ks.filterMap (fun k => (kvGet? nv.slots k).bind (fun f => if f.st = 2 then some (k, f) else none)) = l at member ⊢
    dsimp only at member
    split at member
    · split at member
      · exact (List.Perm.swap ..).mem_iff.mp member
      · exact member
    · exact member
  obtain ⟨k, -, gives⟩ := List.mem_filterMap.mp listed
  obtain ⟨f, found, committed⟩ := Option.bind_eq_some_iff.mp gives
  split at committed
  · rw [← Option.some.inj committed]
    exact found
  · cases committed

theorem exec_boot {s : State} (boots : s.pwr.phase = .boot) (intact : s.tap.acted = false) (puf rpr write : Bool) :
    exec (.boot puf rpr write) s = .next (if (s.bootCode puf rpr write).2 then
      ((s.bootCode puf rpr write).1.fset Reg.SEC_BOOT_STAT_STAGE [] 8).modPwr (fun w => { w with phase := .rails, group := 0 })
      else (s.bootCode puf rpr write).1) := by
  refine congrArg Host.Outcome.next (if_neg ?_)
  rintro (other | acted)
  · exact other boots
  · exact Bool.false_ne_true (intact.symm.trans acted)

/-- What BOOT gives where boot code ends in a boot halt. -/
theorem exec_boot_halts {s : State} (boots : s.pwr.phase = .boot) (intact : s.tap.acted = false) {puf rpr write : Bool}
    {c n : Nat} (halts : s.bootCode puf rpr write = (s.bootHalt c n, false)) :
    exec (.boot puf rpr write) s = .next (s.bootHalt c n) := by
  rw [exec_boot boots intact, halts]
  rfl

/-- Step 8 of R460: the rails are commanded. -/
def State.released (s : State) : State :=
  (s.fset Reg.SEC_BOOT_STAT_STAGE [] 8).modPwr (fun w => { w with phase := .rails, group := 0 })

/-- Step 8 changes neither the image that runs nor its keys. -/
theorem State.identity_released {s : State} {slot : Option Nat} {keys : Option DevKeys} (same : s.identity = (slot, keys)) :
    s.released.running = slot ∧ s.released.island = keys :=
  ⟨congrArg Prod.fst same, congrArg Prod.snd same⟩

theorem exec_boot_seals {s t : State} (boots : s.pwr.phase = .boot) (intact : s.tap.acted = false) {puf rpr write : Bool}
    (seals : s.bootCode puf rpr write = (t, true)) : exec (.boot puf rpr write) s = .next t.released := by
  rw [exec_boot boots intact, seals]
  rfl

/-- The rails rise only with the keys of R458 derived from the image that runs. -/
theorem exec_boot_identity {s : State} (boots : s.pwr.phase = .boot) (intact : s.tap.acted = false) (puf rpr write : Bool) :
    ∃ t, exec (.boot puf rpr write) s = .next t ∧ (t.pwr.phase = .rails → ∃ f : Nat × FlashSlot,
      t.running = some f.1 ∧ kvGet? s.nv.slots f.1 = some f.2 ∧ t.island = some (devKeys (memRead f.2.data 0 f.2.len))) := by
  obtain ⟨c, n, halts⟩ | ⟨f, member, seals⟩ := s.bootCode_cases puf rpr write
  · refine ⟨_, exec_boot_halts boots intact halts, fun rises => ?_⟩
    exact absurd ((s.bootHalt_phase c n).symm.trans rises) (by decide)
  · obtain ⟨runs, derived⟩ := State.identity_released (State.booted_identity (s := s) f (s.launched f).sealStep.2)
    exact ⟨_, exec_boot_seals boots intact seals, fun _ => ⟨f, runs, mem_committed member, derived⟩⟩

theorem firmwareCause_old {nv : Nv} {f : FlashSlot} (old : f.svn < nv.fwFloor) :
    firmwareCause nv f = some (if Config.firmwareSigned (memRead f.data 0 f.len) then 4 else 3) := by
  unfold firmwareCause
  cases Config.firmwareSigned (memRead f.data 0 f.len) with
  | false => rfl
  | true => exact (if_neg (Bool.false_ne_true ∘ Eq.symm)).trans (if_pos old)

/-! ### The end of stack training and the resets (R438, R502, R553 to R555) -/

theorem exec_hbmTrainingEnd {s : State} (trains : s.pwr.phase = .train) (bad : List Nat) (maps : Bool) :
    let u := ({ s with rng := s.rng + 2, placeKey := s.rng, spillKey := s.rng + 1 } : State).fset Reg.MGT_PWR_CTRL_LSEN []
      ((s.neededLasers.map (fun j => 2 ^ j)).sum)
    let v := ((List.range 256).filter u.livePort).foldl (fun (t : State) n => t.setPort n 1) u
    let w := (bad.filter (fun i => decide (i < 8))).foldl (fun (t : State) i => t.loseStack i) v
    exec (.hbmTrainingEnd ⟨bad, maps⟩) s =
      .next ((if maps then w.enterDeviceFault 2 0 else w).modPwr (fun y => { y with phase := .ready })) :=
  congrArg Host.Outcome.next (if_neg (not_not_intro trains))

/-- A register written leaves another one as it reads. -/
theorem State.regW_setRegW_of_ne {s : State} {r q : RegName} {ix iy : List Nat} (sorted : kvSorted s.regs = true)
    (ne : q.addr iy ≠ r.addr ix) (v : Word) : (s.setRegW r ix v).regW q iy = s.regW q iy := by
  have kept : kvGet? (s.setRegW r ix v).regs (q.addr iy) = kvGet? s.regs (q.addr iy) := by
    unfold State.setRegW kvPut
    dsimp only
    split
    · exact kvGet?_kvDel_other s.regs _ _ ne sorted
    · exact kvGet?_kvSet_other s.regs _ _ _ ne
  unfold State.regW kvGet
  rw [kept]
  rfl

theorem State.setRegW_sorted {s : State} (sorted : kvSorted s.regs = true) (r : RegName) (ix : List Nat) (v : Word) :
    kvSorted (s.setRegW r ix v).regs = true := by
  unfold State.setRegW kvPut
  dsimp only
  split
  · exact kvSorted_kvDel _ _ sorted
  · exact kvSorted_kvSet _ _ _ sorted

/-- A register without sealed fields reads what was written. -/
theorem State.regW_setRegW_self {s : State} {r : RegName} {ix : List Nat} (sorted : kvSorted s.regs = true)
    (plain : r.mask .sl = 0) (unsealed : s.sl = []) (v : Word) : (s.setRegW r ix v).regW r ix = v := by
  have low := kvGet_kvPut_self (r.resetW &&& ~~~ r.mask .sl) s.regs (r.addr ix) (v &&& ~~~ r.mask .sl) sorted
  have high : kvGet (r.resetW &&& r.mask .sl) s.sl (r.addr ix) = 0#64 := by
    rw [unsealed, plain, BitVec.ofNat_eq_ofNat, BitVec.and_zero]
    rfl
  have written : (s.setRegW r ix v).regW r ix = v &&& ~~~ r.mask .sl ||| 0#64 := Eq.trans (congrArg (· ||| _) low) (congrArg (_ ||| ·) high)
  rw [written, BitVec.or_zero, plain]
  exact BitVec.and_allOnes

/-- The reset of SYS_RST_N: what it keeps of MGT_PWR_FAULT. -/
theorem State.resetBase_fault (s : State) (p : PwrPhase) :
    (s.resetBase [0, 48] p).regW .MGT_PWR_FAULT [] = s.regW .MGT_PWR_FAULT [] := by
  unfold State.resetBase
  dsimp only
  rw [List.foldl_cons, List.foldl_cons, List.foldl_nil]
  have sorted := fun (t : State) (empty : t.regs = []) (v : Word) =>
    t.setRegW_sorted (congrArg kvSorted empty) .MGT_PWR_FAULT [] v
  rw [State.regW_setRegW_of_ne (State.setRegW_sorted (sorted _ rfl _) ..) (by decide),
    State.regW_setRegW_of_ne (sorted _ rfl _) (by decide), State.regW_setRegW_self rfl (by decide) rfl]

theorem exec_sysRstN {s : State} (up : s.aonUp = true) :
    exec .sysRstN s = .next ((s.resetBase [0, 48] .boot).modClk (fun c => { c with up := [7, 8] })) := by
  show execSysRstN s = _
  unfold execSysRstN
  rw [up]
  rfl

theorem exec_deviceReset {s : State} (due : s.devResetDue = true) (ready : s.pwr.phase = .ready) (puf rpr write : Bool) :
    let ports := (List.range 256).filter s.livePort
    let told := ports.foldl (fun (t : State) n => t.emit (.dark n))
      ((ports.filter (fun n => decide (s.role n = 1))).foldl (fun (t : State) n => t.emit (.viral n)) s)
    let base := (told.resetBase (List.range 49) .train).modClk (fun c => { c with
      up := s.clk.up
      count := kvFilter (fun d _ => decide (d = 6)) s.clk.count
      frac := kvFilter (fun d _ => decide (d = 6)) s.clk.frac })
    exec (.deviceReset puf rpr write) s = .next (((({ base with pilot := s.pilot } : State).setRegW .LINK_PILOT_STAT []
      (s.regW .LINK_PILOT_STAT [])).bootCode puf rpr write).1) := by
  refine congrArg Host.Outcome.next (if_neg ?_)
  rw [due, decide_eq_false (not_not_intro ready)]
  exact Bool.false_ne_true

/-- Settles O50: boot code by its cases, the end of training and the resets by their rules. -/
theorem startUpAndResets : Obligations.StartUpAndResets := by
  unfold Obligations.StartUpAndResets
  intro s puf rpr write maps bad
  refine ⟨?_, fun trains => exec_hbmTrainingEnd trains bad maps, ?_, rfl, ?_, fun due ready =>
    exec_deviceReset due ready puf rpr write⟩
  · intro boots intact r
    refine ⟨exec_boot boots intact puf rpr write, exec_boot_halts boots intact rfl, exec_boot_halts boots intact rfl,
      fun empty => exec_boot_halts boots intact (State.bootCode_noImage empty write), fun k f only old => ?_, ?_⟩
    · have halts := exec_boot_halts boots intact (State.bootCode_refused only (firmwareCause_old old) write)
      cases signed : Config.firmwareSigned (memRead f.data 0 f.len) with
      | true =>
        rw [signed] at halts
        exact halts
      | false =>
        rw [signed] at halts
        exact halts
    · obtain ⟨t, gives, keys⟩ := exec_boot_identity boots intact puf rpr write
      refine ⟨t, gives, fun rises => ?_⟩
      obtain ⟨⟨j, f⟩, runs, stored, derived⟩ := keys rises
      exact ⟨j, f, runs, stored, derived⟩
  · exact fun up => ⟨_, exec_sysRstN up, rfl, rfl, rfl, s.resetBase_fault .boot, rfl, rfl, rfl, rfl, rfl, rfl, rfl, rfl, rfl,
      rfl, rfl, rfl, rfl, rfl⟩
  · refine fun rails perst => congrArg Host.Outcome.next (if_pos ?_)
    rw [rails, perst]
    rfl

end Sys2Proof.Machine
end
